-- ==== Sys2Proof/Word.lean ====
section
/-! DEFINITION. The word types of the device and the sparse map that every register file, memory and
table of the state is held in. -/

namespace Sys2Proof

/-- A byte (R7). -/
abbrev Byte := BitVec 8
/-- A register, instruction or descriptor word (R8, R46). -/
abbrev Word := BitVec 64
/-- A lane or FP32 value (R112, R145). -/
abbrev Half := BitVec 32

/-- A sparse table: strictly rising keys, and no entry that holds the table's default value. -/
abbrev SMap (α : Type) := List (Nat × α)

end Sys2Proof
end

