-- ==== Sys2Proof/Syntax.lean ====
section
/-! DEFINITION. The commands of the block: one constructor per row of spec/opcode_table.json. The table gives
the rows no fields; the operands are what the row's rule says arrives with it. Where an environment decides
(a residue verdict, a sensor value, symbol errors found), its decision is an operand. -/

namespace Sys2Proof

/-- Who makes a request (the requester kinds of R410): host over PCIe, cox, a tile, a PUT from a link, the management port, another engine. -/
inductive Req where
  | host
  | cox
  | tile (t : Nat)
  | put (dev : Nat)
  | mgmt
  | engine
  deriving DecidableEq, Repr

/-- A command frame as the cox reads it (R376), with the bytes of its buffer. -/
structure Frame where
  w0 : Word := 0#64
  w1 : Word := 0#64
  w2 : Word := 0#64
  w3 : Word := 0#64
  w4 : Word := 0#64
  w5 : Word := 0#64
  w6 : Word := 0#64
  w7 : Word := 0#64
  buf : List Byte := []
  deriving DecidableEq, Repr

/-- A received flit (R280): its header fields, its body, the poison that travels with each of its bytes (R25), and its CRC. -/
structure Flit where
  vc : Nat := 0
  last : Bool := true
  seq : Nat := 0
  ack : Nat := 0
  ackValid : Bool := false
  dst : Nat := 0
  src : Nat := 0
  credA : Nat × Nat := (0, 0)
  credB : Nat × Nat := (0, 0)
  body : List Byte := []
  pois : List Bool := []
  crc : BitVec 32 := 0#32
  deriving DecidableEq, Repr

/-- What the detector of a droop region reads when it compares its local core supply, in µV (R353). -/
structure Droop where
  region : Nat := 0
  uv : Nat := 0
  deriving DecidableEq, Repr

/-- What the 26 detectors of a die read, in µV (R354). -/
structure Detectors where
  die : Nat := 0
  uvs : List Nat := []
  deriving DecidableEq, Repr

/-- The commands. -/
inductive Instr where
  /-- POWER_GOOD (R368): Every rail comes into range with REFCLK stable and reset released, moving the device from OFF to DRY. -/
  | powerGood (octal : Bool)
  /-- RAIL_LOSS (R368): Loss of a shared rail takes the device to OFF. -/
  | railLoss
  /-- COLD_RST_N (R371): A cold reset clears everything, opens the gate-open window, zeroes tile stores and starts the boot. -/
  | coldRstN (octal : Bool)
  /-- BOOT_IMAGE_CHECK (R371): The Gate finishes reading and hashing an image and releases the cox, tries the other image, or stays in DRY. -/
  | bootImageCheck (digest : Word) (header : Word) (version : Nat)
  /-- STARTUP_TESTS_COMPLETE (R368): The cox reports its start-up tests complete and the device moves from DRY to MOORED. -/
  | startupTestsComplete
  /-- WARM_RST_N (R371): The warm-reset pin flushes the stack queues to self-refresh and resets every domain except always-on. -/
  | warmRstN
  /-- WARM_RESET (R394): The warm-reset command posts OK and starts a warm reset 1 ms later. -/
  | warmReset (ring : Nat) (f : Frame)
  /-- PERST_N (R371): A PCIe reset clears the endpoint, the MSI-X state and the ring registrations. -/
  | perstN
  /-- HOT_RESET (R371): A hot reset or link disable from the host resets the PCIe endpoint. -/
  | hotReset
  /-- FUNCTION_LEVEL_RESET (R429): Function Level Reset resets with the scope of the PCIe reset. -/
  | functionLevelReset
  /-- PLL_LOCK (R323): A PLL locks to its reference and CLK_LOCK shows it. -/
  | pllLock (pll : Nat)
  /-- PLL_UNLOCK (R334): A PLL loses lock, which sets CLK_UNLOCK and raises an event. -/
  | pllUnlock (pll : Nat)
  /-- REGISTER_WRITE (R8): A write to a register that has no behaviour of its own updates the RW, W1C or W1S fields. -/
  | registerWrite (req : Req) (off : Nat) (size : Nat) (v : Word)
  /-- BAD_ACCESS (R8): A register access of another width or alignment reads 0 or is discarded, and is recorded. -/
  | badAccess (req : Req) (off : Nat) (len : Nat) (write : Bool)
  /-- BAR0_ACCESS (R426): A host access through BAR0 reaches register space. -/
  | bar0Access (off : Nat) (size : Nat) (write : Bool) (v : Word) (ep : Bool)
  /-- BAR2_ACCESS (R427): A host access through BAR2 reaches stack memory at PCIE_BAR2_BASE plus the offset. -/
  | bar2Access (off : Nat) (len : Nat) (write : Bool) (data : List Byte) (ep : Bool)
  /-- BAR4_ACCESS (R426): A host access through BAR4 reaches the tile SRAM windows. -/
  | bar4Access (off : Nat) (len : Nat) (write : Bool) (data : List Byte) (ep : Bool)
  /-- PCIE_BAR2_BASE_WRITE (R427): A write sets the BAR2 window base, or is discarded and recorded when misaligned or beyond stack memory. -/
  | pcieBar2BaseWrite (req : Req) (v : Word)
  /-- BAR2_RESIZE (R427): A Resizable BAR write changes the BAR2 size and sets the base to 0. -/
  | bar2Resize (n : Nat)
  /-- MSIX_UNMASK (R428): Unmasking an MSI-X vector sends its pending message. -/
  | msixUnmask (vec : Nat)
  /-- HOST_READ_TIMEOUT (R429): A device read of host memory times out after 50 ms, stopping its ring and setting PCIE_ERR bit 1. -/
  | hostReadTimeout (ring : Nat)
  /-- WINDOW_READ (R42): A read reaches a tile SRAM window from the host or a mesh reader and returns the data, poisoned if marked. -/
  | windowRead (req : Req) (t : Nat) (off : Nat) (len : Nat) (errs : List (Nat × Nat))
  /-- WINDOW_WRITE (R42): A write reaches a tile SRAM window and is applied, refused for a protected tile, or discarded and recorded. -/
  | windowWrite (req : Req) (t : Nat) (off : Nat) (data : List Byte) (ep : Bool)
  /-- SCRUB_PERIOD (R26): The background scrubber reads and corrects tile store words each TILE_SCRUB period. -/
  | scrubPeriod (t : Nat) (errs : List (Nat × Nat))
  /-- TILE_SEQ_CODE_WRITE (R87): A write to TILE_SEQ_CODE takes effect at the next dispatch, or is discarded and recorded when out of the data store. -/
  | tileSeqCodeWrite (req : Req) (t : Nat) (v : Word)
  /-- MAP_MOVE (R30): The cox drains a logical tile, holds its packets, copies its stores and rewrites every router map. -/
  | mapMove (t : Nat) (px : Nat) (py : Nat) (readable : Bool)
  /-- MAP_HOLD_CLEAR (R30): Once all 1,248 routers acknowledge the new coordinates, MAP_HOLD clears and held packets proceed. -/
  | mapHoldClear (t : Nat) (acks : Nat)
  /-- ROUTER_CHECK_FAILURE (R32): A router failing its check enters pass-through behind a device-wide injection fence, and its tile is retired. -/
  | routerCheckFailure (px : Nat) (py : Nat)
  /-- DISPATCH (R47): An idle sequencer takes the nearest eligible descriptor from its own deque and sets up its registers. -/
  | dispatch (t : Nat)
  /-- ILLEGAL_OPCODE (R60): Issue of an undefined opcode, or of a misplaced or malformed second word, faults. -/
  | illegalOpcode (t : Nat) (w0 : Word) (w1 : Word)
  /-- NOP (R60): Does nothing. -/
  | nop (t : Nat) (w : BitVec 56)
  /-- END (R54): Ends the descriptor and waits for every issued instruction to complete. -/
  | endProg (t : Nat) (w : BitVec 56)
  /-- END_RETIREMENT (R54): END retires once all issued instructions complete, handles open groups by affinity and counts group completion. -/
  | endRetirement (t : Nat)
  /-- BR (R60): Branches by a signed word offset. -/
  | br (t : Nat) (w : BitVec 56)
  /-- JR (R60): Jumps to the offset in a scalar register. -/
  | jr (t : Nat) (w : BitVec 56)
  /-- LOOP (R66): Repeats the following words a counted number of times using LC0 or LC1. -/
  | loop (t : Nat) (w : BitVec 56)
  /-- FAULT (R67): Ends the descriptor with a software fault code. -/
  | swFault (t : Nat) (w : BitVec 56)
  /-- MFS (R48): Reads a special register into a scalar register. -/
  | mfs (t : Nat) (w : BitVec 56)
  /-- ADD (R63): Integer add. -/
  | add (t : Nat) (w : BitVec 56)
  /-- SUB (R63): Integer subtract. -/
  | sub (t : Nat) (w : BitVec 56)
  /-- AND (R60): Bitwise and. -/
  | andd (t : Nat) (w : BitVec 56)
  /-- OR (R60): Bitwise or. -/
  | orr (t : Nat) (w : BitVec 56)
  /-- XOR (R60): Bitwise exclusive or. -/
  | xorr (t : Nat) (w : BitVec 56)
  /-- SHL (R60): Shift left. -/
  | shl (t : Nat) (w : BitVec 56)
  /-- SHR (R60): Logical shift right. -/
  | shr (t : Nat) (w : BitVec 56)
  /-- SRA (R60): Arithmetic shift right. -/
  | sra (t : Nat) (w : BitVec 56)
  /-- MUL (R63): Low 64 bits of an integer product. -/
  | mul (t : Nat) (w : BitVec 56)
  /-- MIN (R60): Signed minimum. -/
  | minS (t : Nat) (w : BitVec 56)
  /-- MAX (R60): Signed maximum. -/
  | maxS (t : Nat) (w : BitVec 56)
  /-- LIH (R60): Loads an immediate into the high half of a scalar register. -/
  | lih (t : Nat) (w : BitVec 56)
  /-- CMP (R64): Sets a predicate by a condition code. -/
  | cmp (t : Nat) (w : BitVec 56)
  /-- PLOG (R64): Predicate logic. -/
  | plog (t : Nat) (w : BitVec 56)
  /-- FADD (R63): FP32 add. -/
  | fadd (t : Nat) (w : BitVec 56)
  /-- FMUL (R63): FP32 multiply. -/
  | fmul (t : Nat) (w : BitVec 56)
  /-- FMA (R63): FP32 fused multiply-add. -/
  | fma (t : Nat) (w : BitVec 56)
  /-- FCVT (R63): Converts between INT64 and FP32. -/
  | fcvt (t : Nat) (w : BitVec 56)
  /-- AADDR (R60): Computes an address register from a base, a scaled scalar and an immediate. -/
  | aaddr (t : Nat) (w : BitVec 56)
  /-- MOVA (R60): Moves a value between address and scalar registers. -/
  | mova (t : Nat) (w : BitVec 56)
  /-- LDS (R70): Issues a scalar load in LOCAL or DPA space. -/
  | lds (t : Nat) (w : BitVec 56)
  /-- LDS_DATA_ARRIVAL (R70): The load data arrives and writes the register, or the descriptor faults on poison. -/
  | ldsDataArrival (t : Nat)
  /-- STS (R70): Scalar store. -/
  | sts (t : Nat) (w : BitVec 56)
  /-- COPY (R71): Copies bytes between LOCAL and DPA spaces. -/
  | copy (t : Nat) (w : BitVec 56)
  /-- COPY2D (R71): Strided copy shaped by four registers. -/
  | copy2d (t : Nat) (w : BitVec 56)
  /-- FILL (R71): Fills a range with an 8-byte pattern. -/
  | fill (t : Nat) (w : BitVec 56)
  /-- BLOCK_MOVE_COMPLETION (R72): Every byte of a move or store is acknowledged, the instruction completes and posts if enabled. -/
  | blockMoveCompletion (t : Nat) (store : Bool)
  /-- MOPEN (R98): Opens an accumulation group, zeroed or preloaded. -/
  | mopen (t : Nat) (w : BitVec 56) (w1 : Word)
  /-- PRELOAD_COMPLETION (R98): Every tile of a group is initialised and MOPEN completes and posts. -/
  | preloadCompletion (t : Nat) (arr : Nat)
  /-- MMA (R88): Accumulates a product into one output tile. -/
  | mma (t : Nat) (w : BitVec 56) (w1 : Word)
  /-- MMA2 (R96): Broadcasts one dY operand to the GX and GW arrays. -/
  | mma2 (t : Nat) (w : BitVec 56) (w1 : Word)
  /-- MMA_COMPLETION (R94): An MMA writes its last accumulation and completes. -/
  | mmaCompletion (t : Nat) (arr : Nat)
  /-- MABORT (R101): Closes a group and discards its values. -/
  | mabort (t : Nat) (w : BitVec 56) (w1 : Word)
  /-- DCLOSE (R101): Queues a drain of every tile of a group and closes the group. -/
  | dclose (t : Nat) (w : BitVec 56) (w1 : Word)
  /-- DKEEP (R101): Queues a drain of a copy of the group and leaves it open. -/
  | dkeep (t : Nat) (w : BitVec 56) (w1 : Word)
  /-- DRAIN_START (R135): A queued drain begins reading rows through the drain chain once the group's MMAs have completed. -/
  | drainStart (t : Nat) (arr : Nat)
  /-- DRAIN_COMPLETION (R108): Every drained row is written and acknowledged, and the drain posts. -/
  | drainCompletion (t : Nat) (arr : Nat)
  /-- LMMA (R192): Lineage MMA with G1 rounding on the F array. -/
  | lmma (t : Nat) (w : BitVec 56) (w1 : Word)
  /-- LCLOSE (R193): Lineage drain to L12 or FP32. -/
  | lclose (t : Nat) (w : BitVec 56) (w1 : Word)
  /-- VLD (R119): Vector load of a linear, tile-pair or gathered operand. -/
  | vld (t : Nat) (w : BitVec 56)
  /-- VST (R119): Vector store, scatter included. -/
  | vst (t : Nat) (w : BitVec 56)
  /-- VSPLAT (R114): Writes a scalar into every active lane. -/
  | vsplat (t : Nat) (w : BitVec 56)
  /-- VMOVS (R114): Copies lane 0 into a scalar register. -/
  | vmovs (t : Nat) (w : BitVec 56)
  /-- VCMP (R114): Compares lanes into a mask. -/
  | vcmp (t : Nat) (w : BitVec 56)
  /-- VMLOG (R114): Mask logic. -/
  | vmlog (t : Nat) (w : BitVec 56)
  /-- VADD (R115): Vector add. -/
  | vadd (t : Nat) (w : BitVec 56)
  /-- VSUB (R115): Vector subtract. -/
  | vsub (t : Nat) (w : BitVec 56)
  /-- VMUL (R115): Vector multiply. -/
  | vmul (t : Nat) (w : BitVec 56)
  /-- VFMA (R115): Vector fused multiply-add. -/
  | vfma (t : Nat) (w : BitVec 56)
  /-- VMAX (R115): Vector maximum. -/
  | vmax (t : Nat) (w : BitVec 56)
  /-- VMIN (R115): Vector minimum. -/
  | vmin (t : Nat) (w : BitVec 56)
  /-- VSEL (R114): Selects lanes by mask. -/
  | vsel (t : Nat) (w : BitVec 56)
  /-- VFUNC (R116): Evaluates a transcendental function. -/
  | vfunc (t : Nat) (w : BitVec 56)
  /-- VROT (R118): Rotary rotation of lane pairs. -/
  | vrot (t : Nat) (w : BitVec 56)
  /-- VRED (R123): Reduces a tile or a register. -/
  | vred (t : Nat) (w : BitVec 56)
  /-- VSCAN (R124): Prefix sum across lanes. -/
  | vscan (t : Nat) (w : BitVec 56)
  /-- VCVT (R117): Converts plain values between formats. -/
  | vcvt (t : Nat) (w : BitVec 56)
  /-- VRNG (R125): Counter-based random numbers. -/
  | vrng (t : Nat) (w : BitVec 56)
  /-- VSAMPLE (R126): One Gumbel-max sampling step. -/
  | vsample (t : Nat) (w : BitVec 56)
  /-- FENCE (R75): Stalls issue until every earlier instruction completes. -/
  | fence (t : Nat) (w : BitVec 56)
  /-- FENCE_RELEASE (R75): The last outstanding instruction completes and issue resumes after FENCE. -/
  | fenceRelease (t : Nat)
  /-- WAITK (R74): Waits until a sync counter reaches n, then subtracts n. -/
  | waitk (t : Nat) (w : BitVec 56)
  /-- WAITK_RELEASE (R74): A post satisfies a waiting WAITK and issue resumes. -/
  | waitkRelease (t : Nat)
  /-- POSTK (R74): Adds n to a sync counter. -/
  | postk (t : Nat) (w : BitVec 56)
  /-- WAITW (R76): Waits on a data-store word by a condition, with an optional timeout. -/
  | waitw (t : Nat) (w : BitVec 56)
  /-- WAITW_SATISFIED (R76): A write makes the WAITW condition hold, setting the predicate to 1. -/
  | waitwSatisfied (t : Nat)
  /-- WAITW_TIMEOUT (R76): The WAITW timeout expires and the predicate is set to 0. -/
  | waitwTimeout (t : Nat)
  /-- AADD (R77): Atomic add. -/
  | aadd (t : Nat) (w : BitVec 56)
  /-- ASWAP (R77): Atomic swap. -/
  | aswap (t : Nat) (w : BitVec 56)
  /-- ACAS (R77): Atomic compare and swap. -/
  | acas (t : Nat) (w : BitVec 56)
  /-- ATOMIC_REQUEST (R77): The target data store performs an arriving atomic, serialized per word. -/
  | atomicRequest (t : Nat)
  /-- ATOMIC_RESULT_ARRIVAL (R77): The old value of an atomic returns and writes the destination register. -/
  | atomicResultArrival (t : Nat)
  /-- RDK (R74): Reads a sync counter. -/
  | rdk (t : Nat) (w : BitVec 56)
  /-- DQPUSH (R78): Pushes a descriptor into a deque. -/
  | dqpush (t : Nat) (w : BitVec 56)
  /-- DQPUSH_ACKNOWLEDGEMENT (R78): The push acknowledgement returns and writes the predicate. -/
  | dqpushAcknowledgement (t : Nat)
  /-- DQLEN (R78): Returns the tile's own deque occupancy. -/
  | dqlen (t : Nat) (w : BitVec 56)
  /-- CGABORT (R79): Requests an abort of the descriptor's commit group. -/
  | cgabort (t : Nat) (w : BitVec 56)
  /-- CGSTAT (R79): Returns the state of the descriptor's commit group. -/
  | cgstat (t : Nat) (w : BitVec 56)
  /-- DESCRIPTOR_FAILURE (R86): After a fault and the completion of begun instructions, groups are discarded, the failure recorded and the next descriptor dispatched. -/
  | descriptorFailure (t : Nat)
  /-- PUSH (R199): A pushed descriptor arrives at a deque and is checked, accepted or refused. -/
  | push (t : Nat)
  /-- DEQUE_REEVALUATION (R201): Every 256 tile cycles the deque re-evaluates the eligibility of every entry. -/
  | dequeReevaluation (t : Nat)
  /-- STEAL_ROUND (R205): An idle tile with no eligible work starts a round of probes. -/
  | stealRound (t : Nat)
  /-- STEAL_BACKOFF_EXPIRY (R205): The backoff wait after an empty round expires and the next round begins. -/
  | stealBackoffExpiry (t : Nat)
  /-- STEAL_PROBE (R206): A probe arrives at a victim, which answers none or hands over an eligible entry. -/
  | stealProbe (t : Nat)
  /-- STEAL_ANSWER (R206): The answer to a probe arrives at the thief, which runs the stolen descriptor or probes on. -/
  | stealAnswer (t : Nat)
  /-- GUARD_PASS_DECISION (R185): The guard accepts or rejects a conversion pass of a drain tile 51 cycles after its first row. -/
  | guardPassDecision (t : Nat) (arr : Nat) (badRow : Option Nat)
  /-- SPILL_SLOT_ALLOCATION (R182): The blotter returns a spill slot for a tile, or none, which stops the tile with cause 5. -/
  | spillSlotAllocation (t : Nat) (arr : Nat)
  /-- TSC_FETCH_COMPLETION (R161): A tensor-scale fetch on a cache miss returns from the blotter and releases a waiting drain. -/
  | tscFetchCompletion (t : Nat) (arr : Nat)
  /-- BLOTTER_REPORT (R156): A drain tile's maximum and class counts reach the blotter and update its counters. -/
  | blotterReport
  /-- ADJUDICATION (R398): A residue disagreement starts a recompute of the failing rows on another array or the nearest idle tile. -/
  | adjudication (t : Nat) (unit : Nat) (onArray : Option Nat) (helper : Nat)
  /-- ADJUDICATION_RESULT (R398): A recompute finishes: rows are released, a fault is charged, a third tile runs, or the rows are quarantined. -/
  | adjudicationResult (t : Nat) (unit : Nat) (pass : Bool) (same : Bool) (firstSame : Bool)
  /-- STEP_ADVANCE_REQUEST (R264): A write of 1 to SCHED_ADV requests a step advance, queued or refused. -/
  | stepAdvanceRequest (req : Req)
  /-- STEP_ADVANCE (R159): The device holds drains, collects reports, computes scales, schedule and floors, delivers S and releases drains. -/
  | stepAdvance (mirrorOk : Bool)
  /-- STEP_VALUES_DELIVERY (R268): S, lr and wdf reach a base die, which releases its held job starts. -/
  | stepValuesDelivery (stack : Nat)
  /-- TSC_NEXT_WRITE (R158): A write to TSC_NEXT is latched for the next or the following advance. -/
  | tscNextWrite (req : Req) (id : Nat) (v : Word)
  /-- TSC_CTL_WRITE (R158): A write to TSC_CTL takes effect at the next step advance. -/
  | tscCtlWrite (req : Req) (id : Nat) (v : Word)
  /-- BLT_ENTRY_WRITE (R185): A write to BLT_THR, BLT_GUARD or BLT_LAYER takes effect at the next step advance. -/
  | bltEntryWrite (req : Req) (off : Nat) (v : Word)
  /-- BLT_SPILL_WRITE (R195): A write to BLT_SPILL is deferred, or discarded and recorded when the region leaves stack memory. -/
  | bltSpillWrite (req : Req) (id : Nat) (v : Word)
  /-- SCHED_SWAP_REQUEST (R267): Writing 1 to SCHED_CTL bit 1 requests a bank swap at the next advance. -/
  | schedSwapRequest (req : Req)
  /-- SCHED_SEG_WRITE (R267): A write to a segment entry is applied to the inactive bank, or discarded and recorded for the active bank. -/
  | schedSegWrite (req : Req) (off : Nat) (v : Word)
  /-- COMMIT_FLIP (R215): When the fill ends, every dirty page of the group flips to its other backing in all stacks and the completion is posted. -/
  | commitFlip (g : Nat)
  /-- REGION_RESTORE_COMPLETE (R210): Restoring a shadowed region ends and SHR_SET or SHR_CLEAR posts its final frame. -/
  | regionRestoreComplete (r : Nat)
  /-- STACK_READ_REQUEST (R226): A read reaches a stack controller and is served by priority class, decoded and corrected or poisoned. -/
  | stackReadRequest (req : Req) (cls : Nat) (dpa : Nat) (len : Nat) (errs : List (Nat × Nat)) (late : Bool)
  /-- STACK_WRITE_REQUEST (R229): A write reaches the controller and enters the write queue or the combining buffer, then is acknowledged. -/
  | stackWriteRequest (req : Req) (dpa : Nat) (data : List Byte)
  /-- COMBINING_TIMEOUT (R229): A combining entry open beyond the timeout is read-modify-written. -/
  | combiningTimeout (stack : Nat)
  /-- REFRESH (R226): Refresh claims its slots in each 64-slot window. -/
  | refresh (stack : Nat) (pc : Nat)
  /-- PATROL_SCRUB (R233): The patrol reads and corrects every line once per period and feeds the row-failure rules. -/
  | patrolScrub (stack : Nat) (errs : List (Nat × Nat × Nat)) (met : Bool)
  /-- ROW_REMAP (R235): A failing row is held, copied to a field spare row, entered in the remap table and released. -/
  | rowRemap (stack : Nat) (pc : Nat) (bank : Nat) (row : Nat) (errs : List (Nat × Nat × Nat))
  /-- PAGE_RETIREMENT (R237): A row with no free spare retires its channel page by a device-internal commit group. -/
  | pageRetirement (stack : Nat) (pc : Nat) (page : Nat) (errs : List (Nat × Nat × Nat))
  /-- CHANNEL_RETIREMENT (R238): A pseudo-channel with more than 64 retired pages is retired and its granules moved. -/
  | channelRetirement (stack : Nat) (pc : Nat)
  /-- STACK_TEMP_SAMPLE (R241): Every 8 µs the controller reads its stack sensor and changes thermal step when a threshold is crossed. -/
  | stackTempSample (stack : Nat) (temp : Int)
  /-- STACK_LOSS (R409): A stack controller or base die fails and the stack is lost. -/
  | stackLoss (stack : Nat)
  /-- BN_JOB (R249): Command that submits an update job to a stack. -/
  | bnJob (ring : Nat) (f : Frame)
  /-- START_WORD_POLL (R252): At least every 1 µs the start word of a waiting job or collective is evaluated again. -/
  | startWordPoll
  /-- UPDATE_JOB_START (R252): A job's start condition is met; it latches lr, wdf, S and the copy scale and deals its passes. -/
  | updateJobStart (stack : Nat)
  /-- BN_PASS_START (R248): An engine begins a pass, advancing the counters of present blocks. -/
  | bnPassStart (stack : Nat) (eng : Nat)
  /-- BN_PASS_REPEAT (R262): A pass whose residue check disagreed is repeated on the next engine. -/
  | bnPassRepeat (stack : Nat) (eng : Nat)
  /-- BN_NOP (R256): Base-note no operation. -/
  | bnNop (stack : Nat) (eng : Nat)
  /-- BN_ADD (R256): Base-note add. -/
  | bnAdd (stack : Nat) (eng : Nat) (ok : Bool)
  /-- BN_SUB (R256): Base-note subtract. -/
  | bnSub (stack : Nat) (eng : Nat) (ok : Bool)
  /-- RSB (R256): Base-note reverse subtract. -/
  | bnRsb (stack : Nat) (eng : Nat) (ok : Bool)
  /-- BN_MUL (R256): Base-note multiply. -/
  | bnMul (stack : Nat) (eng : Nat) (ok : Bool)
  /-- BN_FMA (R256): Base-note fused multiply-add. -/
  | bnFma (stack : Nat) (eng : Nat) (ok : Bool)
  /-- FNS (R256): Base-note negated multiply-subtract. -/
  | bnFns (stack : Nat) (eng : Nat) (ok : Bool)
  /-- DIV (R256): Base-note divide. -/
  | bnDiv (stack : Nat) (eng : Nat) (ok : Bool)
  /-- SQRT (R256): Base-note square root. -/
  | bnSqrt (stack : Nat) (eng : Nat) (ok : Bool)
  /-- RCP (R256): Base-note reciprocal. -/
  | bnRcp (stack : Nat) (eng : Nat)
  /-- RSQ (R256): Base-note reciprocal square root. -/
  | bnRsq (stack : Nat) (eng : Nat)
  /-- EXP (R256): Base-note exponential. -/
  | bnExp (stack : Nat) (eng : Nat)
  /-- LOG (R256): Base-note natural logarithm. -/
  | bnLog (stack : Nat) (eng : Nat)
  /-- BN_MAX (R256): Base-note maximum. -/
  | bnMax (stack : Nat) (eng : Nat)
  /-- BN_MIN (R256): Base-note minimum. -/
  | bnMin (stack : Nat) (eng : Nat)
  /-- ABS (R256): Base-note absolute value. -/
  | bnAbs (stack : Nat) (eng : Nat)
  /-- SEL (R256): Base-note select by sign. -/
  | bnSel (stack : Nat) (eng : Nat)
  /-- POWT (R260): Raises a scalar to the block counter. -/
  | bnPowt (stack : Nat) (eng : Nat)
  /-- BCNT (R256): Loads the block counter as FP32. -/
  | bnBcnt (stack : Nat) (eng : Nat)
  /-- LDG (R257): Loads the decoded gradient. -/
  | bnLdg (stack : Nat) (eng : Nat)
  /-- LDW (R257): Loads the master weight. -/
  | bnLdw (stack : Nat) (eng : Nat)
  /-- LDM (R257): Loads a decoded moment. -/
  | bnLdm (stack : Nat) (eng : Nat)
  /-- LDX (R257): Loads auxiliary state. -/
  | bnLdx (stack : Nat) (eng : Nat)
  /-- STW (R258): Stores the master weight. -/
  | bnStw (stack : Nat) (eng : Nat)
  /-- STM (R258): Stores a moment with a chosen E8M0 scale. -/
  | bnStm (stack : Nat) (eng : Nat)
  /-- STC (R259): Stores the forward copy, and the snapshot when enabled. -/
  | bnStc (stack : Nat) (eng : Nat)
  /-- STX (R258): Stores auxiliary state. -/
  | bnStx (stack : Nat) (eng : Nat)
  /-- BN_END (R248): Ends the program and writes the block header. -/
  | bnEnd (stack : Nat) (eng : Nat)
  /-- UPDATE_JOB_COMPLETION (R253): A job's writes are acknowledged; the completion word is incremented and the completion frame posted. -/
  | updateJobCompletion (stack : Nat)
  /-- FLIT_CRC_FAILURE (R281): A received flit fails its CRC or has a reserved type, is discarded and NAKed. -/
  | flitCrcFailure (l : Nat) (raw : List Byte) (codewords : Nat)
  /-- DATA_FLIT (R283): A sequenced DATA flit is accepted in order, acknowledged and delivered or forwarded in transit. -/
  | dataFlit (l : Nat) (f : Flit)
  /-- IDLE_FLIT (R283): An IDLE flit delivers acknowledgement and credit fields. -/
  | idleFlit (l : Nat) (f : Flit)
  /-- BEAT_FLIT (R282): A BEAT flit is accepted as a sequenced flit to acknowledge. -/
  | beatFlit (l : Nat) (f : Flit)
  /-- BEAT_TIMER (R282): After 250 ns without a sequenced flit the transmitter sends a BEAT. -/
  | beatTimer (l : Nat)
  /-- NAK_FLIT (R283): A received NAK makes the transmitter replay every flit after the named sequence. -/
  | nakFlit (l : Nat) (f : Flit)
  /-- NAK_HOLDOFF_EXPIRY (R283): 1 µs after a NAK without the expected flit, another NAK may be sent. -/
  | nakHoldoffExpiry (l : Nat)
  /-- ACK_DEADLINE_LAPSE (R284): The acknowledgement deadline lapses and the transmitter replays; the third consecutive lapse declares the link failed. -/
  | ackDeadlineLapse (l : Nat)
  /-- REPLAY_WINDOW_EXPIRY (R294): After 1 ms the receiving end forgets the failed link's last accepted sequence. -/
  | replayWindowExpiry (l : Nat)
  /-- PACE_FLIT (R316): A PACE flit is received, forwarded to the next stage and applied to pace following. -/
  | paceFlit (l : Nat) (f : Flit)
  /-- IDENTITY (R289): A LINKCTL identity flit is compared, and the link goes UP or MISCABLED. -/
  | identity (l : Nat) (f : Flit)
  /-- DEGRADE (R297): A LINKCTL DEGRADE request or answer stops new DATA on the link toward two-lane mode. -/
  | degrade (l : Nat) (f : Flit)
  /-- LINK_TRAINING_COMPLETE (R289): An enabled port finishes training and sends its identity flit. -/
  | linkTrainingComplete (l : Nat) (lanes : Nat)
  /-- DEGRADE_WINDOW (R297): At the end of each 1 ms window lane symbol errors are compared with the degrade threshold. -/
  | degradeWindow (l : Nat) (syms : List Nat) (corrected : Nat)
  /-- DEGRADE_DRAINED (R297): All flits are acknowledged and both ends change to two-lane mode. -/
  | degradeDrained (l : Nat)
  /-- DEGRADE_COMPLETE (R297): The two-lane mode change completes and the identity check runs. -/
  | degradeComplete (l : Nat)
  /-- LINK_RETRAIN_TIMER (R296): A failed port retries training every 10 s. -/
  | linkRetrainTimer (l : Nat)
  /-- SOAK_COMPLETE (R296): A port passes its 10 s soak and rejoins its bond. -/
  | soakComplete (l : Nat)
  /-- LSN_REPEAT (R296): A link-state notice is repeated every 100 ms while a port in the dimension is not UP. -/
  | lsnRepeat (dim : Nat)
  /-- PUT (R288): A PUT packet writes its bytes at the destination and returns a PUT_ACK if requested. -/
  | putPacket
  /-- PUT_ACK (R288): A PUT_ACK packet returns the status of a PUT to its source. -/
  | putAckPacket
  /-- LSN (R296): A link-state notice arrives and updates detour choices. -/
  | lsnPacket
  /-- NOROUTE (R295): A NOROUTE packet reports a discarded packet to its source. -/
  | noroutePacket
  /-- COL_PACKET (R307): A collective segment arrives, is staged and reduced or forwarded. -/
  | colPacket
  /-- COLLECTIVE_START (R306): A collective's start condition is met and its first stages begin. -/
  | collectiveStart (id : Nat)
  /-- STAGE_COMPLETE (R308): A member completes a stage of a part and begins the next. -/
  | stageComplete (id : Nat) (part : Nat)
  /-- COLLECTIVE_COMPLETION (R311): Every result write is acknowledged; the completion word is incremented and the frame posted. -/
  | collectiveCompletion (id : Nat)
  /-- SILENT (R312): After the due epoch a member silent for a window raises a SILENT event. -/
  | silent (id : Nat) (rank : Nat)
  /-- PACE_FRAME_TIMER (R314): A pace frame is sent every 10 µs while the condition lasts. -/
  | paceFrameTimer (cause : Nat)
  /-- PACE_TIMEOUT (R318): After 30 µs without frames the member returns to its own clock choice. -/
  | paceTimeout (id : Nat)
  /-- PACE_HOLD_EXPIRY (R313): A pace frame held for a collective not yet started expires after 30 µs. -/
  | paceHoldExpiry (id : Nat)
  /-- PPS_EDGE (R328): A PPS_IN edge is timed and used to align, step or reject as an outlier the epoch counter. -/
  | ppsEdge (sub : Nat)
  /-- HOLDOVER_ENTRY (R330): After 1.5 s without an accepted edge the counter enters HOLDOVER. -/
  | holdoverEntry
  /-- EPOCH_SET (R331): In host-assisted mode a write sets the epoch counter as a step; otherwise it is discarded and recorded. -/
  | epochSet (req : Req) (v : Word)
  /-- FREEZE_ARM (R332): Writing 1 to EPOCH_FREEZE_CTL bit 0 arms a scheduled freeze. -/
  | freezeArm (req : Req)
  /-- COUNTER_FREEZE (R417): The freeze fires and every domain snapshots its counters. -/
  | counterFreeze
  /-- PMC_FREEZE_NOW (R417): Writing 1 fires a freeze at once. -/
  | pmcFreezeNow (req : Req)
  /-- POWER_SAMPLE (R341): Every 10 µs the governor forms a package-power sample and checks its windows and the Gate ceilings. -/
  | powerSample (dies : List Nat) (stackW : Nat) (linkW : Nat) (ctrlW : Nat)
  /-- CLAMP_END (R363): Both averages stay 5 % below their ceilings for 10 ms and the clamp ends. -/
  | clampEnd
  /-- CEILING_BREACH (R363): The 100 ms average stays above the ceiling after 1 s of clamping and the device enters HOLD. -/
  | ceilingBreach
  /-- AVS_CURRENT_READ (R338): Every 1 ms the rail currents are read and die estimates calibrated. -/
  | avsCurrentRead (amps : List Nat)
  /-- VOLTAGE_SETTLED (R338): A Status read reports a voltage change settled, or an AVSBus fault is found. -/
  | voltageSettled (die : Nat) (mv : Nat) (fault : Bool)
  /-- FREQUENCY_STEP (R340): A die's tile clock steps by at most 100 MHz when due and spaced. -/
  | frequencyStep (die : Nat)
  /-- TAG_INTERVAL (R348): Every 100 µs the governor records the dominant tag, learns per occurrence and chooses clocks and array counts. -/
  | tagInterval (die : Nat) (tiles : List Nat) (notes0 : Nat) (notes1 : Nat) (colls : Nat)
  /-- JUNCTION_SAMPLE (R343): Junction sensors are read every 100 µs and applied to the junction limit. -/
  | junctionSample (die : Nat) (temps : List Int)
  /-- STACK_HEAT_THROTTLE (R347): Every 100 ms of a hot stack lowers its die one node, and recovery raises it. -/
  | stackHeatThrottle (die : Nat)
  /-- FORECAST_PUBLISH (R350): Every 100 ms the governor publishes a forecast of 100 slots. -/
  | forecastPublish (die : Nat) (pick : Nat)
  /-- SHED_REQ_N (R345): A taken SHED_REQ_N orders every die to its shed clock. -/
  | shedReqN
  /-- SHED_CLOCK_UPDATE (R345): Every 100 µs the governor computes each die's shed clock. -/
  | shedClockUpdate (acts : List Nat) (temps : List Int)
  /-- SHED_END (R345): SHED_REQ_N high for 1 ms ends the shed and power returns at the up-ramp. -/
  | shedEnd
  /-- CATCH_STRETCH (R353): A droop detector trips and the die's tile period lengthens by 1.3. -/
  | catchStretch (trip : Droop)
  /-- STRETCH_RECOVERY (R354): Every detector recovers and the 64-cycle hold begins. -/
  | stretchRecovery (seen : Detectors)
  /-- STRETCH_END (R354): The hold ends and the nominal period resumes. -/
  | stretchEnd (die : Nat) (cycles : Nat)
  /-- FACILITY_BUDGET_WRITE (R346): The effecter sets the facility budget, or refuses a value out of range. -/
  | facilityBudgetWrite (watts : Nat)
  /-- GATE_WRITE (R359): A Gate-write message sets one GL register whole while the window is open, or is refused. -/
  | gateWrite (off : Nat) (v : Word)
  /-- GATE_LOCK (R358): Writing 1 to GATE_LOCK bit 0 closes the gate-open window. -/
  | gateLock
  /-- GATE_READ (R432): Returns any GATE register. -/
  | gateRead (off : Nat)
  /-- FORECAST_READ (R432): Returns the forecast epoch and slots. -/
  | forecastRead
  /-- GATE_WINDOW_TIMEOUT (R358): After 10 s of the always-on oscillator the window closes and the lock is marked by timeout. -/
  | gateWindowTimeout
  /-- GATE_CHECK (R366): The Gate checks the configuration buffer after the cox asserts valid, raising outputs-enable or entering HOLD. -/
  | gateCheck
  /-- THERMAL_TRIP (R364): A sensor at its trip temperature forces minimum clocks, drops outputs-enable and enters HOLD. -/
  | thermalTrip (stackSensor : Bool) (index : Nat) (temp : Int)
  /-- TRIP_RELEASE (R364): Every sensor 5 °C below its trip for 1 s ends the trip and releases THERM_TRIP_N. -/
  | tripRelease
  /-- WATCHDOG_TOGGLE (R370): The cox toggles the watchdog line, ending a hold after a restart. -/
  | watchdogToggle
  /-- WATCHDOG_MISS (R370): A watchdog period ends with no toggle; intake is held and the cox restarted. -/
  | watchdogMiss (within1s : Bool)
  /-- STAGING_COMPLETE (R372): The Gate finishes staging an image and checks it, refusing it or beginning the switch. -/
  | stagingComplete (digest : Word) (header : Word) (version : Nat)
  /-- COX_SWITCH_END (R372): The restarted firmware finishes the journal and serves the rings. -/
  | coxSwitchEnd
  /-- SWITCH_TIMEOUT (R372): A switch that has not ended after 60 ms counts as a watchdog miss. -/
  | switchTimeout
  /-- COX_LOCKSTEP_DISAGREEMENT (R409): The lockstep cores disagree and a cox-only reset follows. -/
  | coxLockstepDisagreement
  /-- EASY_COMPLETE (R368): Every descriptor, job and collective in flight completes and the device moves from EASY to RIGGED. -/
  | easyComplete
  /-- DIE_LOSS (R408): A die's core rail or PLL is lost; tiles go ABSENT, its stacks and links are lost and standbys take over. -/
  | dieLoss (die : Nat)
  /-- SCAN_START (R406): The sweep reaches a tile, which is set DRAINING for its scan. -/
  | scanStart (px : Nat) (py : Nat)
  /-- SCAN_DRAINED (R406): The tile's deque empties with its sequencer idle and the scan patterns stream. -/
  | scanDrained (t : Nat)
  /-- SCAN_DRAIN_TIMEOUT (R406): The drain timeout expires, the tile returns to service and a skip is counted. -/
  | scanDrainTimeout (t : Nat)
  /-- SCAN_COMPLETE (R406): The scan ends, passing, repeating, or retiring the tile. -/
  | scanComplete (t : Nat) (pass : Bool) (chains : Nat)
  /-- EVENT_RECORD_WRITE (R410): An event record is written to ERRLOG and pushed to the management port. -/
  | eventRecordWrite (code : Nat) (die : Nat) (src : Nat) (a : Word) (b : Word)
  /-- ASYNC_RECORD_POST (R383): A failure or event record is posted on a completion ring. -/
  | asyncRecordPost
  /-- COMMAND_DOORBELL (R374): A write of a new tail to MBX_CMD_DB records new commands or stops the ring with an error. -/
  | commandDoorbell (c : Nat) (v : Nat)
  /-- COMPLETION_DOORBELL (R375): A write to MBX_CPL_DB frees completion slots and held frames are posted. -/
  | completionDoorbell (c : Nat) (v : Nat)
  /-- CMD_RING_ENABLE (R374): Writing the enable bit starts a command ring, clearing an error and resetting head to tail. -/
  | cmdRingEnable (c : Nat) (v : Word)
  /-- CPL_RING_ENABLE (R396): Writing the enable bit resets the completion tail to 0 and the phase to 1. -/
  | cplRingEnable (c : Nat) (v : Word)
  /-- CPL_HOLD_TIMEOUT (R375): A frame held over 1 ms for a full ring is counted. -/
  | cplHoldTimeout (c : Nat)
  /-- UNKNOWN_OPCODE (R387): A command with an opcode outside the catalogue posts UNKNOWN_OPCODE. -/
  | unknownOpcode (ring : Nat) (f : Frame)
  /-- CFG_QUERY (R389): Writes the device description. -/
  | cfgQuery (ring : Nat) (f : Frame)
  /-- CFG_BEGIN (R388): Copies the active configuration into staging, or zeroes it. -/
  | cfgBegin (ring : Nat) (f : Frame)
  /-- CFG_WRITE (R388): Writes bytes into the staging configuration. -/
  | cfgWrite (ring : Nat) (f : Frame)
  /-- CFG_READ (R388): Reads the staging or active configuration. -/
  | cfgRead (ring : Nat) (f : Frame)
  /-- CFG_COMMIT (R386): Locks staging, validates it and commits it through a device-internal commit group. -/
  | cfgCommit (ring : Nat) (f : Frame)
  /-- CFG_RELEASE (R388): Withdraws the configuration, moving RIGGED to MOORED. -/
  | cfgRelease (ring : Nat) (f : Frame)
  /-- WORK_ENQ (R390): Pushes descriptors into a tile's deque; the first accepted work moves RIGGED to UNDERWAY. -/
  | workEnq (ring : Nat) (f : Frame)
  /-- WORK_DRAIN (R390): Moves UNDERWAY to EASY. -/
  | workDrain (ring : Nat) (f : Frame)
  /-- WORK_RUN (R369): Resumes frozen work and moves to UNDERWAY. -/
  | workRun (ring : Nat) (f : Frame)
  /-- WORK_DISCARD (R369): Ends every frozen descriptor with DISCARDED and aborts open commit groups. -/
  | workDiscard (ring : Nat) (f : Frame)
  /-- CG_OPEN (R390): Opens a commit group in a free slot. -/
  | cgOpen (ring : Nat) (f : Frame)
  /-- CG_ABORT (R390): Aborts an open commit group. -/
  | cgAbort (ring : Nat) (f : Frame)
  /-- CG_FREE (R390): Frees a committed or aborted group's slot. -/
  | cgFree (ring : Nat) (f : Frame)
  /-- SHR_SET (R390): Declares a shadowed region, first restoring an old one. -/
  | shrSet (ring : Nat) (f : Frame)
  /-- SHR_CLEAR (R390): Restores and removes a shadowed region. -/
  | shrClear (ring : Nat) (f : Frame)
  /-- MEM_LOCAL_SET (R391): Writes a local region into staging. -/
  | memLocalSet (ring : Nat) (f : Frame)
  /-- MEM_LOCAL_CLEAR (R391): Clears a local region in staging. -/
  | memLocalClear (ring : Nat) (f : Frame)
  /-- BN_LOAD (R391): Loads the base-note program store. -/
  | bnLoad (ring : Nat) (f : Frame)
  /-- MEM_REPAIR (R391): Approves or declines a repair proposal. -/
  | memRepair (ring : Nat) (f : Frame)
  /-- COMM_SET (R392): Writes a communicator into staging. -/
  | commSet (ring : Nat) (f : Frame)
  /-- COMM_CLEAR (R392): Clears a communicator in staging. -/
  | commClear (ring : Nat) (f : Frame)
  /-- COL_SUBMIT (R392): Submits a collective record. -/
  | colSubmit (ring : Nat) (f : Frame)
  /-- COL_ABORT (R392): Aborts a collective. -/
  | colAbort (ring : Nat) (f : Frame)
  /-- PUT_SEND (R392): Sends one PUT packet. -/
  | putSend (ring : Nat) (f : Frame)
  /-- ROUTE_SET (R392): Installs a detour in host-assisted failover mode. -/
  | routeSet (ring : Nat) (f : Frame)
  /-- ROUTE_CLEAR (R392): Removes a detour. -/
  | routeClear (ring : Nat) (f : Frame)
  /-- SPARE_ASSIGN (R299): Assigns a failed port's role to spare port 15. -/
  | spareAssign (ring : Nat) (f : Frame)
  /-- SPARE_RELEASE (R299): Moves the role back from the spare port. -/
  | spareRelease (ring : Nat) (f : Frame)
  /-- PWR_CLOCK_CAP (R393): Sets a pace clock cap in host-assisted pace mode. -/
  | pwrClockCap (ring : Nat) (f : Frame)
  /-- PWR_RELEARN (R393): Restarts the clock search for the chosen tags. -/
  | pwrRelearn (ring : Nat) (f : Frame)
  /-- STEP_ADV (R393): Requests a step advance and reports the new S. -/
  | stepAdv (ring : Nat) (f : Frame)
  /-- TSC_LOAD (R393): Writes TSC_NEXT and TSC_CTL entries. -/
  | tscLoad (ring : Nat) (f : Frame)
  /-- BLT_READ (R393): Copies guard entries to a buffer. -/
  | bltRead (ring : Nat) (f : Frame)
  /-- TIME_NEXT_SEC (R393): Writes EPOCH_NEXT_SEC. -/
  | timeNextSec (ring : Nat) (f : Frame)
  /-- SCAN_TILE (R394): Drains, scans and returns one tile. -/
  | scanTile (ring : Nat) (f : Frame)
  /-- SPARE_TILE (R394): Moves a logical tile to a spare. -/
  | spareTile (ring : Nat) (f : Frame)
  /-- SPARE_DECIDE (R394): Approves or declines a tile proposal. -/
  | spareDecide (ring : Nat) (f : Frame)
  /-- QUAR_CLOSE (R402): Records the host's verdict on a quarantine and frees its slot. -/
  | quarClose (ring : Nat) (f : Frame)
  /-- CTR_DUMP (R418): Copies tile or device snapshot records. -/
  | ctrDump (ring : Nat) (f : Frame)
  /-- SAMPLE_RING (R420): Sets the sample ring. -/
  | sampleRing (ring : Nat) (f : Frame)
  /-- FW_INFO (R394): Returns the image and digest information. -/
  | fwInfo (ring : Nat) (f : Frame)
  /-- FW_RESTART (R372): Starts a cox-only reset into the running or the other image. -/
  | fwRestart (ring : Nat) (f : Frame)
  /-- COUNTER_CLEAR (R414): Writing TILE_PMC_CLR clears selected tile counters. -/
  | counterClear (req : Req) (t : Nat) (v : Word)
  /-- PMC_SAMPLE_WRITE (R419): A write to PMC_SAMPLE sets the interval and reloads every tile's LFSR. -/
  | pmcSampleWrite (req : Req) (v : Word)
  /-- PMC_CONFIG_LOCK (R421): Writing 1 to PMC_CTL bit 0 locks the counter configuration until a warm reset. -/
  | pmcConfigLock (req : Req)
  /-- SAMPLE_RECORD_WRITE (R420): A tagged instruction's record is written to the sample ring, or dropped when full. -/
  | sampleRecordWrite (t : Nat) (ok : Bool)
  /-- ENTDAA (R430): The bus assigns the I3C dynamic address. -/
  | entdaa (addr : Nat)
  /-- SETDASA (R430): Sets the dynamic address from the static address. -/
  | setdasa (addr : Nat)
  /-- SET_ENDPOINT_ID (R431): The bus owner assigns the MCTP endpoint ID. -/
  | setEndpointId (eid : Nat)
  /-- GET_ENDPOINT_ID (R430): Returns the MCTP endpoint ID. -/
  | getEndpointId
  /-- GET_MCTP_VERSION (R430): Returns the MCTP version. -/
  | getMctpVersion
  /-- GET_MESSAGE_TYPE_SUPPORT (R430): Returns the supported message types. -/
  | getMessageTypeSupport
  /-- GET_VENDOR_DEFINED_MESSAGE_SUPPORT (R430): Returns vendor message support. -/
  | getVendorDefinedMessageSupport
  /-- GET_PDR (R433): Returns PDR repository entries. -/
  | getPdr (handle : Nat)
  /-- GET_SENSOR_READING (R433): Returns a sensor reading. -/
  | getSensorReading (id : Nat)
  /-- SET_EVENT_RECEIVER (R434): Sets the receiver of platform event messages. -/
  | setEventReceiver (eid : Nat)
  /-- POLL_FOR_PLATFORM_EVENT_MESSAGE (R434): Drains buffered event records in ERRLOG order. -/
  | pollForPlatformEventMessage
  /-- REQUEST_UPDATE (R435): Starts a firmware update of the inactive image or pattern set. -/
  | requestUpdate (component : Nat)
  /-- FIRMWARE_DATA (R435): A 256-byte transfer of update data is received and programmed. -/
  | firmwareData (data : List Byte) (ok : Bool)
  /-- VERIFY_COMPLETE (R435): The Gate hashes the written body and marks the slot valid or invalid. -/
  | verifyComplete (digest : Word) (header : Word) (version : Nat)
  /-- ACTIVATE_FIRMWARE (R435): Activates a new image by cox-only reset, or a new pattern set. -/
  | activateFirmware
  /-- CANCEL_UPDATE (R435): Cancels an update and leaves the slot invalid. -/
  | cancelUpdate
  /-- BYPASS (R450): JTAG BYPASS instruction. -/
  | jtagBypass
  /-- IDCODE (R450): JTAG IDCODE instruction. -/
  | jtagIdcode
  /-- SAMPLE (R450): JTAG SAMPLE instruction. -/
  | jtagSample
  /-- VECTOR_COMPLETION (R121): A queued vector instruction finishes in the vector unit; a VST completes once its bytes are written, and the instruction posts its sync counter when pe = 1. -/
  | vectorCompletion (t : Nat) (ok : Bool)
  /-- MSIX_HOLDOFF_EXPIRY (R375): The 2 µs interval after an MSI-X message on a vector ends, and the merged message that fell due within it is sent. -/
  | msixHoldoffExpiry (vec : Nat)
  /-- PCIE_LINK_UP (R429): The PCIe link finishes training and the endpoint becomes ready, so configuration requests no longer complete with Request Retry Status. -/
  | pcieLinkUp (rate : Nat) (width : Nat) (flitMode : Bool)
  /-- PCIE_LINK_DOWN (R440): The PCIe link goes down, setting PCIE_ERR bit 2 and clearing the link-up bit of PCIE_LINK. -/
  | pcieLinkDown
  deriving DecidableEq, Repr

end Sys2Proof
end

