-- ==== Sys2Proof/Decode.lean ====
section
/-! DEFINITION. Instruction words of a tile (R57, R60), and words of the table: spec/opcode_table.json gives its rows no bits. -/

namespace Sys2Proof

/-- The command that a word spells by the table's bits. -/
def decodeTableWord (_nbits _w : Nat) : Option Instr := none

/-- The command that the words at tile t's PC spell (R60): the opcode is [63:56] of the first; a two-word instruction needs a second word, whose
[63:56] are 0xFF (R56). Every other opcode is ILLEGAL_OPCODE's. -/
def decodeTile (t : Nat) (w0 w1 : BitVec 64) : Instr :=
  let w := w0.truncate 56
  let two := fun (i : Instr) => if w1.extractLsb' 56 8 = 0xFF#8 then i else .illegalOpcode t w0 w1
  match (w0.extractLsb' 56 8).toNat with
  | 0x00 => .nop t w
  | 0x01 => .endProg t w
  | 0x02 => .br t w
  | 0x03 => .jr t w
  | 0x04 => .loop t w
  | 0x05 => .swFault t w
  | 0x06 => .mfs t w
  | 0x08 => .add t w
  | 0x09 => .sub t w
  | 0x0A => .andd t w
  | 0x0B => .orr t w
  | 0x0C => .xorr t w
  | 0x0D => .shl t w
  | 0x0E => .shr t w
  | 0x0F => .sra t w
  | 0x10 => .mul t w
  | 0x12 => .minS t w
  | 0x13 => .maxS t w
  | 0x15 => .lih t w
  | 0x16 => .cmp t w
  | 0x17 => .plog t w
  | 0x18 => .fadd t w
  | 0x19 => .fmul t w
  | 0x1A => .fma t w
  | 0x1B => .fcvt t w
  | 0x1C => .aaddr t w
  | 0x1D => .mova t w
  | 0x20 => .lds t w
  | 0x21 => .sts t w
  | 0x22 => .copy t w
  | 0x23 => .copy2d t w
  | 0x24 => .fill t w
  | 0x40 => two (.mopen t w w1)
  | 0x41 => two (.mma t w w1)
  | 0x42 => two (.mma2 t w w1)
  | 0x43 => two (.mabort t w w1)
  | 0x60 => two (.dclose t w w1)
  | 0x61 => two (.dkeep t w w1)
  | 0x80 => .vld t w
  | 0x81 => .vst t w
  | 0x82 => .vsplat t w
  | 0x83 => .vmovs t w
  | 0x84 => .vcmp t w
  | 0x85 => .vmlog t w
  | 0x88 => .vadd t w
  | 0x89 => .vsub t w
  | 0x8A => .vmul t w
  | 0x8B => .vfma t w
  | 0x8C => .vmax t w
  | 0x8D => .vmin t w
  | 0x8E => .vsel t w
  | 0x90 => .vfunc t w
  | 0x94 => .vrot t w
  | 0x98 => .vred t w
  | 0x99 => .vscan t w
  | 0xA0 => .vcvt t w
  | 0xA8 => .vrng t w
  | 0xA9 => .vsample t w
  | 0xC0 => .fence t w
  | 0xC1 => .waitk t w
  | 0xC2 => .postk t w
  | 0xC3 => .waitw t w
  | 0xC4 => .aadd t w
  | 0xC5 => .aswap t w
  | 0xC6 => .acas t w
  | 0xC7 => .rdk t w
  | 0xD0 => .dqpush t w
  | 0xD1 => .dqlen t w
  | 0xD8 => .cgabort t w
  | 0xD9 => .cgstat t w
  | 0xE0 => two (.lmma t w w1)
  | 0xE1 => two (.lclose t w w1)
  | _ => .illegalOpcode t w0 w1

end Sys2Proof
end

