-- ==== Sys2Proof/Machine/Bits.lean ====
section
/-! DEFINITION. Bit fields, sign extension, byte order (R6, R7), and the operations of sparse tables. -/

namespace Sys2Proof

/-! ### Sparse tables -/

/-- The value at a key, or `d` where the table lists none. -/
def SMap.get {α : Type} (d : α) : SMap α → Nat → α
  | [], _ => d
  | (k, v) :: m, j => if k = j then v else SMap.get d m j

/-- The table without a key. -/
def SMap.erase {α : Type} : SMap α → Nat → SMap α
  | [], _ => []
  | (k, v) :: m, j => if k = j then SMap.erase m j else (k, v) :: SMap.erase m j

/-- Insert before the first greater key. -/
def SMap.insert {α : Type} : SMap α → Nat → α → SMap α
  | [], j, x => [(j, x)]
  | (k, v) :: m, j, x => if j < k then (j, x) :: (k, v) :: m else (k, v) :: SMap.insert m j x

/-- Write a key: writing the default removes the entry, so that equal tables are equal data. -/
def SMap.put {α : Type} [DecidableEq α] (d : α) (m : SMap α) (j : Nat) (x : α) : SMap α :=
  if x = d then SMap.erase m j else SMap.insert (SMap.erase m j) j x

/-- Write a key of a table whose entries are kept even when they hold the default. -/
def SMap.set {α : Type} (m : SMap α) (j : Nat) (x : α) : SMap α :=
  SMap.insert (SMap.erase m j) j x

/-- Strictly rising keys above a bound, no entry equal to the default: the canonical form. -/
def SMap.wfAbove {α : Type} [DecidableEq α] (d : α) (lo : Nat) : SMap α → Bool
  | [] => true
  | (k, v) :: m => decide (lo ≤ k) && !decide (v = d) && SMap.wfAbove d (k + 1) m

/-- The canonical form of a table. -/
def SMap.wf {α : Type} [DecidableEq α] (d : α) (m : SMap α) : Bool := SMap.wfAbove d 0 m

/-- Write consecutive keys. -/
def SMap.putList {α : Type} [DecidableEq α] (d : α) (m : SMap α) (j : Nat) : List α → SMap α
  | [] => m
  | x :: xs => SMap.putList d (SMap.put d m j x) (j + 1) xs

/-- Read consecutive keys. -/
def SMap.getList {α : Type} (d : α) (m : SMap α) (j n : Nat) : List α :=
  (List.range n).map (fun i => SMap.get d m (j + i))

/-! ### Bit fields (R6) -/

/-- Bits hi..lo of a word, as a number. -/
def bits {n : Nat} (w : BitVec n) (hi lo : Nat) : Nat := (w.toNat >>> lo) % 2 ^ (hi + 1 - lo)

/-- One bit of a word. -/
def bit {n : Nat} (w : BitVec n) (i : Nat) : Bool := w.getLsbD i

/-- The word with bits hi..lo replaced by the low bits of a number. -/
def setBits {n : Nat} (w : BitVec n) (hi lo : Nat) (v : Nat) : BitVec n :=
  let mask := BitVec.ofNat n ((2 ^ (hi + 1 - lo) - 1) <<< lo)
  (w &&& ~~~mask) ||| (BitVec.ofNat n ((v % 2 ^ (hi + 1 - lo)) <<< lo))

/-- The word with one bit set to a given value. -/
def setBit {n : Nat} (w : BitVec n) (i : Nat) (b : Bool) : BitVec n := setBits w i i (if b then 1 else 0)

/-- The 32-bit immediate sign-extended to 64 bits. -/
def sext32 (n : Nat) : Word := (BitVec.ofNat 32 n).signExtend 64

/-- A number read as a two's-complement value of the given width. -/
def toSigned (w n : Nat) : Int := if n % 2 ^ w < 2 ^ (w - 1) then (n % 2 ^ w : Nat) else ((n % 2 ^ w : Nat) : Int) - (2 ^ w : Nat)

/-- The low bits of an integer. -/
def ofSigned (w : Nat) (i : Int) : Nat := (i % ((2 ^ w : Nat) : Int)).toNat

/-- A Boolean as a number. -/
def b2n (b : Bool) : Nat := if b then 1 else 0

/-- ⌈a ÷ b⌉. -/
def ceilDiv (a b : Nat) : Nat := (a + b - 1) / b

/-! ### Byte order (R7) -/

/-- Little-endian bytes of a number. -/
def leBytes : Nat → Nat → List Byte
  | 0, _ => []
  | n + 1, v => BitVec.ofNat 8 v :: leBytes n (v / 256)

/-- The number that little-endian bytes spell. -/
def leNat : List Byte → Nat
  | [] => 0
  | b :: bs => b.toNat + 256 * leNat bs

/-- Little-endian 64-bit words of bytes. -/
def leWord (bs : List Byte) : Word := BitVec.ofNat 64 (leNat bs)

/-! ### Lists -/

/-- Element i of a list, or a default. -/
def nth {α : Type} (d : α) : List α → Nat → α
  | [], _ => d
  | x :: _, 0 => x
  | _ :: xs, i + 1 => nth d xs i

/-- Replace element i. -/
def setNth {α : Type} : List α → Nat → α → List α
  | [], _, _ => []
  | _ :: xs, 0, y => y :: xs
  | x :: xs, i + 1, y => x :: setNth xs i y

/-- Remove element i. -/
def dropNth {α : Type} : List α → Nat → List α
  | [], _ => []
  | _ :: xs, 0 => xs
  | x :: xs, i + 1 => x :: dropNth xs i

/-- The index of the first element that passes, or the length. -/
def findIdx {α : Type} (f : α → Bool) : List α → Nat
  | [] => 0
  | x :: xs => if f x then 0 else findIdx f xs + 1

/-- Cut a list into pieces of n (structural on fuel). -/
def chunksFuel {α : Type} (n : Nat) : Nat → List α → List (List α)
  | 0, _ => []
  | f + 1, xs => if xs.isEmpty then [] else xs.take n :: chunksFuel n f (xs.drop n)

/-- Cut a list into pieces of n. -/
def chunks {α : Type} (n : Nat) (xs : List α) : List (List α) := chunksFuel n (xs.length + 1) xs

/-- Sum of a list of numbers. -/
def sumNat (xs : List Nat) : Nat := xs.foldl (· + ·) 0

/-- Repeat a state change over a list. -/
def forEach {α σ : Type} (xs : List α) (f : α → σ → σ) (s : σ) : σ := xs.foldl (fun s x => f x s) s

end Sys2Proof
end

