-- ==== Sys2Proof/Machine/Num.lean ====
section
/-! DEFINITION. The sixteen number formats (R145 to R148), exact arithmetic on their values, and every
rounding the spec names (R63, R99, R115, R162, R165, R166, R180, R192). A finite value is ±m·2^e. -/

namespace Sys2Proof

/-- A decoded value: a NaN with its sign, an infinity, or a finite value ±m·2^e (zeros keep their sign, R146). -/
inductive Num where
  | nan (neg : Bool)
  | inf (neg : Bool)
  | fin (neg : Bool) (m : Nat) (e : Int)
  deriving DecidableEq, Repr

/-- A binary floating format: widths, bias and the magnitude code of its largest finite value (R145). -/
structure FloatFmt where
  eb : Nat
  mb : Nat
  bias : Nat
  maxFin : Nat
  deriving DecidableEq, Repr

def fmtFP32 : FloatFmt := ⟨8, 23, 127, 0x7F7FFFFF⟩
def fmtBF16 : FloatFmt := ⟨8, 7, 127, 0x7F7F⟩
def fmtFP16 : FloatFmt := ⟨5, 10, 15, 0x7BFF⟩
def fmtE4M3 : FloatFmt := ⟨4, 3, 7, 0x7E⟩
def fmtE5M2 : FloatFmt := ⟨5, 2, 15, 0x7B⟩
def fmtE3M2 : FloatFmt := ⟨3, 2, 3, 0x1F⟩
def fmtE2M3 : FloatFmt := ⟨2, 3, 1, 0x1F⟩
def fmtE2M1 : FloatFmt := ⟨2, 1, 1, 0x7⟩

/-- Format codes (R61). -/
def FP32 : Nat := 0
def BF16 : Nat := 1
def FP16 : Nat := 2
def E4M3 : Nat := 3
def E5M2 : Nat := 4
def E3M2 : Nat := 5
def E2M3 : Nat := 6
def FP4 : Nat := 7
def INT8 : Nat := 8
def INT4 : Nat := 9
def INT32 : Nat := 10
def INT16 : Nat := 11
def UINT8 : Nat := 12
def E8M0 : Nat := 13
def UE4M3 : Nat := 14
def L12 : Nat := 15

/-- The floating format of a format code. -/
def floatFmt (c : Nat) : Option FloatFmt :=
  match c with
  | 0 => some fmtFP32 | 1 => some fmtBF16 | 2 => some fmtFP16 | 3 => some fmtE4M3 | 4 => some fmtE5M2
  | 5 => some fmtE3M2 | 6 => some fmtE2M3 | 7 => some fmtE2M1 | _ => none

/-- Bits of an element (R145). -/
def fmtBits (c : Nat) : Nat :=
  match c with
  | 0 => 32 | 1 => 16 | 2 => 16 | 3 => 8 | 4 => 8 | 5 => 6 | 6 => 6 | 7 => 4 | 8 => 8 | 9 => 4
  | 10 => 32 | 11 => 16 | 12 => 8 | 13 => 8 | 14 => 8 | _ => 16

/-- Bits an element occupies in an element block: FP6 travels in the 4-bit packing (R148). -/
def packBits (c : Nat) : Nat := if c = E3M2 ∨ c = E2M3 then 4 else fmtBits c

/-- Elements in one 32-byte block row (R88). -/
def elemsPerRow (c : Nat) : Nat := 256 / packBits c

def isFP6 (c : Nat) : Bool := c == E3M2 || c == E2M3
/-- 4-bit and FP6 formats. -/
def isNarrow (c : Nat) : Bool := c == FP4 || isFP6 c
def isFP8 (c : Nat) : Bool := c == E4M3 || c == E5M2
def isIntFmt (c : Nat) : Bool := c == INT8 || c == INT4 || c == INT32 || c == INT16 || c == UINT8
def is16Fmt (c : Nat) : Bool := c == BF16 || c == FP16

def Num.zero : Num := .fin false 0 0
def Num.ofInt (i : Int) : Num := .fin (decide (i < 0)) i.natAbs 0
def Num.isNan : Num → Bool | .nan _ => true | _ => false
def Num.isFin : Num → Bool | .fin _ _ _ => true | _ => false
def Num.isZero : Num → Bool | .fin _ m _ => m == 0 | _ => false
def Num.neg? : Num → Bool | .nan n => n | .inf n => n | .fin n _ _ => n
def Num.negate : Num → Num | .nan n => .nan n | .inf n => .inf !n | .fin n m e => .fin (!n) m e
def Num.abs : Num → Num | .nan _ => .nan false | .inf _ => .inf false | .fin _ m e => .fin false m e

/-- The value of a floating code of a format with IEEE specials or without (R145, R146). -/
def decodeFloat (f : FloatFmt) (code v : Nat) : Num :=
  let neg := (v >>> (f.eb + f.mb)) % 2 == 1
  let mag := v % 2 ^ (f.eb + f.mb)
  let ex := mag >>> f.mb
  let fr := mag % 2 ^ f.mb
  if mag > f.maxFin then
    if code = E4M3 then .nan neg
    else if fr = 0 then .inf neg else .nan neg
  else if ex = 0 then .fin neg fr (1 - (f.bias : Int) - f.mb)
  else .fin neg (fr + 2 ^ f.mb) ((ex : Int) - f.bias - f.mb)

/-- The value of an element code in any of the sixteen formats (R145, R146). -/
def decodeNum (c v : Nat) : Num :=
  match floatFmt c with
  | some f => decodeFloat f c v
  | none =>
    if c = INT8 then .ofInt (toSigned 8 v) else if c = INT4 then .ofInt (toSigned 4 v)
    else if c = INT32 then .ofInt (toSigned 32 v) else if c = INT16 then .ofInt (toSigned 16 v)
    else if c = UINT8 then .ofInt (v % 256 : Nat)
    else if c = E8M0 then (if v % 256 = 255 then .nan false else .fin false 1 ((v % 256 : Nat) - 127))
    else if c = UE4M3 then
      (if v % 256 ≥ 0x7F then .nan false else decodeFloat fmtE4M3 E4M3 (v % 128))
    else -- L12: no subnormals, bits [15:12] ignored (R146)
      let neg := (v >>> 11) % 2 == 1
      let ex := (v >>> 6) % 32
      let fr := v % 64
      if ex = 31 then (if fr = 0 then .inf neg else .nan neg)
      else if ex = 0 then .fin neg 0 0 else .fin neg (fr + 64) ((ex : Int) - 15 - 6)

def f32 (v : Half) : Num := decodeFloat fmtFP32 FP32 v.toNat
def bf16 (v : Nat) : Num := decodeFloat fmtBF16 BF16 v

/-! ### Exact arithmetic -/

/-- 2^e as numerator and denominator. -/
def pow2Num (e : Int) : Nat := if e ≥ 0 then 2 ^ e.toNat else 1
def pow2Den (e : Int) : Nat := if e ≥ 0 then 1 else 2 ^ (-e).toNat

/-- Signed mantissa of a finite value. -/
def Num.sm : Num → Int | .fin n m _ => if n then -(m : Int) else m | _ => 0
def Num.ex : Num → Int | .fin _ _ e => e | _ => 0

/-- Exact product; 0 × ∞ is NaN (R152). -/
def Num.mul : Num → Num → Num
  | .nan n, _ => .nan n
  | _, .nan n => .nan n
  | .inf a, .inf b => .inf (a != b)
  | .inf a, .fin b m _ => if m = 0 then .nan false else .inf (a != b)
  | .fin a m _, .inf b => if m = 0 then .nan false else .inf (a != b)
  | .fin a m e, .fin b k f => .fin (a != b) (m * k) (e + f)

/-- Exact sum of two finite values; a zero sum is -0 only when both are -0 (IEEE 754, nearest). -/
def addFin (a : Bool) (m : Nat) (e : Int) (b : Bool) (k : Nat) (f : Int) : Num :=
  let g := min e f
  let x : Int := (if a then -(m : Int) else m) * (2 ^ (e - g).toNat : Nat)
  let y : Int := (if b then -(k : Int) else k) * (2 ^ (f - g).toNat : Nat)
  let s := x + y
  if s = 0 then .fin (a && b) 0 g else .fin (decide (s < 0)) s.natAbs g

/-- Exact sum; +∞ with -∞ is NaN (R152). -/
def Num.add : Num → Num → Num
  | .nan n, _ => .nan n
  | _, .nan n => .nan n
  | .inf a, .inf b => if a = b then .inf a else .nan false
  | .inf a, _ => .inf a
  | _, .inf b => .inf b
  | .fin a m e, .fin b k f => addFin a m e b k f

/-- Exact sum of a list, starting from +0: a sum of zeros is +0 (log 8). -/
def Num.sum (xs : List Num) : Num := xs.foldl Num.add .zero

/-- Strictly less, on values that are not NaN. -/
def Num.lt : Num → Num → Bool
  | .nan _, _ => false
  | _, .nan _ => false
  | .inf a, .inf b => a && !b
  | .inf a, .fin _ _ _ => a
  | .fin _ _ _, .inf b => !b
  | x, y => let d := Num.add x y.negate; decide (d.sm < 0)

/-- Equal values (zeros of both signs are equal). -/
def Num.eqv (x y : Num) : Bool := !x.isNan && !y.isNan && !Num.lt x y && !Num.lt y x
def Num.le (x y : Num) : Bool := Num.lt x y || Num.eqv x y

/-! ### Rounding -/

/-- Rounding of a magnitude: nearest even (R165), nearest ties away (R192), upward (R180), stochastic with 32 random bits (R166). -/
inductive Rnd where
  | even
  | away
  | up
  | stoch (r : Nat)
  deriving DecidableEq, Repr

/-- floor(log2(num/den)) for num, den > 0. -/
def floorLog2 (num den : Nat) : Int :=
  let l : Int := (Nat.log2 num : Int) - Nat.log2 den
  if num * pow2Den l ≥ den * pow2Num l then l else l - 1

/-- The integer nearest to num/den by a rounding. -/
def roundQuot (r : Rnd) (num den : Nat) : Nat :=
  let q := num / den
  let rem := num % den
  match r with
  | .even => if 2 * rem > den then q + 1 else if 2 * rem = den then q + q % 2 else q
  | .away => if 2 * rem ≥ den then q + 1 else q
  | .up => if rem > 0 then q + 1 else q
  | .stoch x => if (rem * 2 ^ 32) / den + x ≥ 2 ^ 32 then q + 1 else q

/-- The magnitude code of num/den rounded into a format whose exponent range is unbounded above: codes rise with the value. -/
def roundCode (f : FloatFmt) (r : Rnd) (num den : Nat) : Nat :=
  if num = 0 then 0 else
  let qmin : Int := 1 - (f.bias : Int) - f.mb
  let q := max qmin (floorLog2 num den - f.mb)
  let m := roundQuot r (num * pow2Den q) (den * pow2Num q)
  ((q + f.bias + f.mb - 1) * (2 ^ f.mb : Nat) + m).toNat

/-- Numerator and denominator of a finite magnitude. -/
def magNum (m : Nat) (e : Int) : Nat := m * pow2Num e
def magDen (e : Int) : Nat := pow2Den e

/-- The magnitude code of a finite value. -/
def finCode (f : FloatFmt) (r : Rnd) (m : Nat) (e : Int) : Nat := roundCode f r (magNum m e) (magDen e)

/-- The sign bit of a format. -/
def signAt (f : FloatFmt) (neg : Bool) : Nat := if neg then 2 ^ (f.eb + f.mb) else 0

def nan32 : Half := 0x7FC00000#32
def inf32 (neg : Bool) : Half := if neg then 0xFF800000#32 else 0x7F800000#32

/-- Round an exact magnitude num/den to FP32; beyond the largest finite value it is an infinity (R115, R165). -/
def toF32Q (r : Rnd) (neg : Bool) (num den : Nat) : Half :=
  let c := roundCode fmtFP32 r num den
  if c > fmtFP32.maxFin then inf32 neg else BitVec.ofNat 32 (c + signAt fmtFP32 neg)

/-- Round an exact value to FP32; every NaN is the default NaN (R63, R146). -/
def toF32 (r : Rnd) : Num → Half
  | .nan _ => nan32
  | .inf n => inf32 n
  | .fin n m e => toF32Q r n (magNum m e) (magDen e)

/-- FP32 addition, multiplication and fused multiply-add, nearest even (R63, R115). -/
def fadd (a b : Half) : Half := toF32 .even (Num.add (f32 a) (f32 b))
def fneg (a : Half) : Half := a ^^^ 0x80000000#32
def fsub (a b : Half) : Half := toF32 .even (Num.add (f32 a) (f32 b).negate)
def fmul (a b : Half) : Half := toF32 .even (Num.mul (f32 a) (f32 b))
def ffma (a b c : Half) : Half := toF32 .even (Num.add (Num.mul (f32 a) (f32 b)) (f32 c))

/-- Division of decoded values rounded once to FP32: x÷0 is ∞, 0÷0 and ∞÷∞ are NaN (IEEE 754; R162 step 1, R260). -/
def divF32 (r : Rnd) : Num → Num → Half
  | .nan _, _ => nan32
  | _, .nan _ => nan32
  | .inf _, .inf _ => nan32
  | .inf a, .fin b _ _ => inf32 (a != b)
  | .fin a _ _, .inf b => BitVec.ofNat 32 (signAt fmtFP32 (a != b))
  | .fin a m e, .fin b k f =>
    if k = 0 then (if m = 0 then nan32 else inf32 (a != b))
    else toF32Q r (a != b) (magNum m e * magDen f) (magDen e * magNum k f)

def fdiv (a b : Half) : Half := divF32 .even (f32 a) (f32 b)

/-- Integer square root by binary search on bits (structural on the bit count). -/
def isqrtBits (n : Nat) : Nat → Nat → Nat
  | 0, acc => acc
  | b + 1, acc => let t := acc + 2 ^ b; if t * t ≤ n then isqrtBits n b t else isqrtBits n b acc
def isqrt (n : Nat) : Nat := isqrtBits n (Nat.log2 n / 2 + 1) 0

/-- Exactly rounded FP32 square root (R260). -/
def fsqrt (a : Half) : Half :=
  match f32 a with
  | .nan _ => nan32
  | .inf n => if n then nan32 else inf32 false
  | .fin n m e =>
    if m = 0 then a else if n then nan32 else
    let e' := if e % 2 = 0 then e else e - 1
    let m' := if e % 2 = 0 then m else 2 * m
    let s := isqrt (m' * 2 ^ 80)
    let odd := if s * s = m' * 2 ^ 80 then 0 else 1
    toF32Q .even false ((2 * s + odd) * pow2Num (e' / 2)) (2 * 2 ^ 40 * pow2Den (e' / 2))

def one32 : Half := 0x3F800000#32

/-- BF16 results: the FP32 or exact value rounded once (R115). -/
def toBF16 (r : Rnd) : Num → Nat
  | .nan _ => 0x7FC0
  | .inf n => if n then 0xFF80 else 0x7F80
  | .fin n m e => let c := finCode fmtBF16 r m e; (if c > fmtBF16.maxFin then 0x7F80 else c) + signAt fmtBF16 n

def toFP16 (r : Rnd) : Num → Nat
  | .nan _ => 0x7E00
  | .inf n => if n then 0xFC00 else 0x7C00
  | .fin n m e => let c := finCode fmtFP16 r m e; (if c > fmtFP16.maxFin then 0x7C00 else c) + signAt fmtFP16 n

/-- The magnitude of a finite value rounded to an integer. -/
def roundInt (r : Rnd) (m : Nat) (e : Int) : Nat := roundQuot r (magNum m e) (magDen e)

/-- Nearest-even integer clamped to a range; ±∞ goes to the nearer end, NaN to 0 (R63, R117). -/
def toIntClamp (r : Rnd) (lo hi : Int) : Num → Int
  | .nan _ => 0
  | .inf n => if n then lo else hi
  | .fin n m e => let i : Int := if n then -(roundInt r m e : Int) else roundInt r m e; max lo (min hi i)

/-- The saturating narrow float codes: a finite magnitude beyond the format takes its largest code (R162 step 5). -/
def toNarrowSat (f : FloatFmt) (r : Rnd) (n : Bool) (m : Nat) (e : Int) : Nat :=
  min (finCode f r m e) f.maxFin + signAt f n

/-- A finite value beyond the format's largest finite value after rounding (R164, R165). -/
def narrowOverflows (f : FloatFmt) (r : Rnd) (m : Nat) (e : Int) : Bool := decide (finCode f r m e > f.maxFin)

/-- g1round: nearest with ties away, results below 2^-126 become zero of the same sign (R192). -/
def g1round : Num → Half
  | .nan _ => nan32
  | .inf n => inf32 n
  | .fin n m e =>
    let c := finCode fmtFP32 .away m e
    if c < 2 ^ 23 then BitVec.ofNat 32 (signAt fmtFP32 n)
    else if c > fmtFP32.maxFin then inf32 n else BitVec.ofNat 32 (c + signAt fmtFP32 n)

/-- FP32 to L12: ties away, below 2^-14 to ±0, above 65,024 to ±∞, NaN to 0x07E0 (R193). -/
def toL12 (v : Half) : Nat :=
  match f32 v with
  | .nan _ => 0x07E0
  | .inf n => 0x7C0 + (if n then 0x800 else 0)
  | .fin n m e =>
    let s := if n then 0x800 else 0
    if magNum m e * 2 ^ 14 < magDen e then s
    else let c := finCode ⟨5, 6, 15, 0x7BF⟩ .away m e
      if c > 0x7BF then 0x7C0 + s else c + s

/-- The largest finite magnitude of an element format (R155, R162). -/
def emax (c : Nat) : Num :=
  match c with
  | 3 => .fin false 448 0 | 4 => .fin false 57344 0 | 5 => .fin false 28 0 | 6 => .fin false 15 (-1) | 7 => .fin false 6 0
  | 8 => .fin false 127 0 | 9 => .fin false 7 0 | _ => .fin false 1 0

/-- The greater of two magnitudes, neither NaN. -/
def Num.maxN (x y : Num) : Num := if Num.lt x y then y else x

end Sys2Proof
end

