-- ==== Sys2Proof/Machine/Flags.lean ====
section
/-! DEFINITION. Condition codes and predicate or mask logic (R64, R114). -/

namespace Sys2Proof.Machine
open Sys2Proof

/-- The float conditions FEQ, FLT, FLE, FUN on bits [31:0] (R64). -/
def floatCond (cc : Nat) (a b : Half) : Bool :=
  let x := f32 a
  let y := f32 b
  if cc = 10 then Num.eqv x y else if cc = 11 then Num.lt x y else if cc = 12 then Num.le x y
  else x.isNan || y.isNan

/-- Integer conditions 0 to 9 on words of one width (R64). -/
def intCond {n : Nat} (cc : Nat) (a b : BitVec n) : Bool :=
  match cc with
  | 0 => a == b
  | 1 => a != b
  | 2 => a.slt b
  | 3 => a.sle b
  | 4 => b.slt a
  | 5 => b.sle a
  | 6 => a.ult b
  | 7 => a.ule b
  | 8 => b.ult a
  | _ => b.ule a

/-- CMP's condition on two scalar registers (R64). -/
def condWord (cc : Nat) (a b : Word) : Bool :=
  if cc < 10 then intCond cc a b else floatCond cc (a.truncate 32) (b.truncate 32)

/-- Codes 14 and 15 are reserved (R64). -/
def badCond (cc : Nat) : Bool := decide (13 < cc)

/-- PLOG's functions on single bits (R64). -/
def logicFn (fn : Nat) (a b : Bool) : Bool :=
  match fn with
  | 0 => a && b
  | 1 => a || b
  | 2 => a != b
  | 3 => a && !b
  | 4 => !a
  | 5 => true
  | _ => false

end Sys2Proof.Machine
end

