-- ==== Sys2Proof/Machine/Ecc.lean ====
section
/-! DEFINITION. The line code of the stacks (R230): a Reed–Solomon code of 64 data and 8 check symbols over GF(2⁸), and where its
symbols travel. -/

namespace Sys2Proof.Machine
open Sys2Proof

/-- A field element times α = 0x02, modulo x⁸ + x⁴ + x³ + x² + 1 (R230). -/
def gfDouble (a : Byte) : Byte := if a.getLsbD 7 then (a <<< 1) ^^^ 0x1D#8 else a <<< 1

/-- Product in GF(2⁸), the multiplier's bits taken from the most significant one. -/
def gfMul (a b : Byte) : Byte :=
  (List.range 8).foldl (fun acc i => gfDouble acc ^^^ (if b.getLsbD (7 - i) then a else 0#8)) 0#8

/-- α to the power n. -/
def gfAlpha : Nat → Byte
  | 0 => 1#8
  | n + 1 => gfDouble (gfAlpha n)

/-- A polynomial, highest coefficient first, times (x − r). -/
def gfTimesRoot (p : List Byte) (r : Byte) : List Byte :=
  List.zipWith (· ^^^ ·) (p ++ [0#8]) (0#8 :: p.map (gfMul r))

/-- The generator g(x) = (x − α⁰)(x − α¹)…(x − α⁷), highest coefficient first (R230). -/
def lineGenerator : List Byte := (List.range 8).foldl (fun p i => gfTimesRoot p (gfAlpha i)) [1#8]

/-- The check bytes of 64 data bytes: the remainder of x⁸ d(x) by g(x), check byte i the coefficient of x^(7 − i) (R230). -/
def checkBytes (d : List Byte) : List Byte :=
  let g := lineGenerator.drop 1
  d.foldl (fun r b =>
    let k := b ^^^ nth 0#8 r 0
    List.zipWith (fun x c => x ^^^ gfMul k c) (r.drop 1 ++ [0#8]) g) (List.replicate 8 0#8)

/-- The codeword of 64 data bytes: data byte j is the coefficient of x^(71 − j) (R230). -/
def codeword (d : List Byte) : List Byte := d ++ checkBytes d

/-- Value of a word of symbols, highest first, at a field element. -/
def gfEval (c : List Byte) (x : Byte) : Byte := c.foldl (fun acc b => gfMul acc x ^^^ b) 0#8

/-- The syndromes that the decoder forms: all 0 exactly where g(x) divides the word (R230, R231). -/
def syndromes (c : List Byte) : List Byte := (List.range 8).map (fun i => gfEval c (gfAlpha i))

/-- The data or check line of a symbol, and its first beat of eight (R230). -/
def symbolPlace (sym : Nat) : Nat × Nat := (sym / 2, 8 * (sym % 2))

/-- What beats in error on one of the 36 lines do to a symbol: the mask of its bits in error. Beat 8 × (s mod 2) + i carries bit i. -/
def symbolHit (wire beats sym : Nat) : Byte :=
  if (symbolPlace sym).1 = wire then BitVec.ofNat 8 (beats >>> (symbolPlace sym).2) else 0#8

end Sys2Proof.Machine
end

