-- ==== Sys2Proof/Config.lean ====
section
/-! DEFINITION. What one implementation fixes and what the spec leaves open. Nothing here has a body: no proof can see a value. -/

namespace Sys2Proof

/-- Activation f(x) of a code that the table does not list, on finite inputs (R104). -/
opaque Config.actValue : Nat → BitVec 32 → BitVec 32
/-- Derivative f′(z) of a code that the table does not list, on finite inputs (R104). -/
opaque Config.actDeriv : Nat → BitVec 32 → BitVec 32
/-- VFUNC results for inputs and codes of which the table says nothing (R116): function code, input. -/
opaque Config.vfuncValue : Nat → BitVec 32 → BitVec 32
/-- Where the result of a fixed FP32 sequence, which the spec does not give, lies within the stated error of the exact function, and the sign of a zero
result (R104, R116): function, input. -/
opaque Config.evalStep : Nat → BitVec 32 → Nat × Bool
/-- The bits of the maximum or minimum of no INT32 elements (R123): the operation. -/
opaque Config.emptyExtremum : Nat → BitVec 32
/-- Whether VRNG's uniform, where it lies between two FP32 values, is the lower one (R125): the generator's value. -/
opaque Config.uniformLow : BitVec 32 → Bool
/-- The next state of the sampling LFSR, whose polynomial is not given (R419). -/
opaque Config.lfsrNext : BitVec 32 → BitVec 32
/-- Undefined destination bytes of an overlapping block move (R71): free-value counter, byte index. -/
opaque Config.freeByte : Nat → Nat → BitVec 8
/-- A byte of a result that the spec leaves open and that depends on the operands alone (R208): the words it comes from, its index. -/
opaque Config.openByte : List (BitVec 32) → Nat → BitVec 8
/-- A value the spec does not state, fresh for every value of State.fresh. -/
opaque Config.freeWord : Nat → BitVec 64
/-- Where between its bounds the lag of a die's copy of the epoch counter lies at a moment, in ns above the least (R327): die, counter. -/
opaque Config.copyLag : Nat → Nat → Nat
/-- A die runs the producers of a collective (R318), which the spec leaves open: collective id, die. -/
opaque Config.producerDie : Nat → Nat → Bool
/-- Fused die trim in mV, 0 to 20 (R335). -/
opaque Config.dieTrim : Nat → Fin 21
/-- Stepping byte of the part (R453). -/
opaque Config.stepping : Nat
/-- The spares of a die that are not free as shipped: at most eight of its 24 (R28). Each names its column in the spare row and the tile of the die
that it serves in the shipped map, none where the spare itself failed (R27). -/
opaque Config.shippedUse : Nat → Nat → Option (Fin 24 × Option (Fin 288))
/-- Residue predicted for an element of a quarantined tile (R402): the checker's own value. -/
opaque Config.residueByte : Nat → Nat → BitVec 8
/-- Content of a PDR repository record beyond the table of R433, whose binary layout is DSP0248's. -/
opaque Config.pdrByte : Nat → Nat → BitVec 8
/-- Package power in W that the learned model predicts at a moment (State.fresh) for one die's phase tag, clock in MHz and voltage in mV, the others
as they are (R344, R348, R352): moment, die, tag, clock, voltage. -/
opaque Config.predictedPower : Nat → Nat → Nat → Nat → Nat → Nat
/-- Package power in W that the model predicts from one die's present activity and temperature, at a clock in MHz and a voltage in mV, the others as they
are (R345): moment, die, activity, temperature, clock, voltage. -/
opaque Config.activePower : Nat → Nat → Nat → Int → Nat → Nat → Nat
/-- Energy of an occurrence and power that the learned model predicts for a tag with a number of forward arrays (R349): moment, tag, arrays. -/
opaque Config.arrayModel : Nat → Nat → Nat → Nat × Nat
/-- Array duty in eighths, below 8, that a power in W below the reach of 0.60 GHz needs on a die at a moment (R345, R346). -/
opaque Config.dutyFor : Nat → Nat → Nat → Fin 8

end Sys2Proof
end

