-- ==== Sys2Proof/Machine/State.lean ====
section
/-! DEFINITION. Everything the spec gives the device to hold, as plain data, and the state after reset.
Software-visible registers stand in `regs`, keyed by BAR0 offset, unless a field below is their home. -/

namespace Sys2Proof.Machine
open Sys2Proof

/-- Why the block stops. No command of this model raises it: every access of the spec completes (R8, R13). -/
inductive Fault where
  /-- Raised by no command; safe: a stop proves nothing about the device. -/
  | stopped
  deriving DecidableEq, Repr

/-- Why a command has no meaning. -/
inductive Refusal where
  /-- The row has no meaning in the model yet; safe. -/
  | notModelled (mnemonic : String)
  deriving DecidableEq, Repr

/-- Device states, numbered as R410 numbers them. -/
inductive DevState where
  | off
  | dry
  | moored
  | rigged
  | underway
  | easy
  | hold
  deriving DecidableEq, Repr

/-! ### Tiles -/

/-- The header of an issued instruction: program-order number, PC, counter to post. -/
structure Hdr where
  sn : Nat := 0
  pc : Nat := 0
  post : Option Nat := none
  deriving DecidableEq, Repr

/-- A recorded fault: code, PC, software code, address, array and group, lane (R86, R111, R130). -/
structure FaultInfo where
  code : Nat := 0
  pc : Nat := 0
  sw : Nat := 0
  addr : Nat := 0
  arr : Nat := 0
  grp : Nat := 0
  lane : Nat := 0
  deriving DecidableEq, Repr

/-- What a stalled sequencer waits for (R54, R74, R75, R76). -/
inductive Wait where
  | counter (k n : Nat)
  | word (pd cc addr : Nat) (v timeout : Word) (pc : Nat)
  | fence
  deriving DecidableEq, Repr

/-- Sequencer state (R87): idle, running, waiting, END issued, draining after a fault. -/
inductive Seq where
  | idle
  | running
  | waiting (w : Wait)
  | ending
  | faulted (f : FaultInfo)
  deriving DecidableEq, Repr

/-- One active hardware loop (R66): body start, first byte after the body, passes left after this one. -/
structure Loop where
  start : Nat
  stop : Nat
  left : Nat
  deriving DecidableEq, Repr

/-- A scalar load in flight: destination, loaded value, poisoned (R70). -/
structure Load where
  hdr : Hdr
  st : Nat
  v : Word
  poisoned : Bool
  deriving DecidableEq, Repr

/-- Work of the move unit (R71, R77, R78). -/
inductive MoveKind where
  | block (dsp : Bool) (dst : Nat) (ssp : Bool) (src : Nat) (len rows sStr dStr pri : Nat)
  | fill (dsp : Bool) (dst len : Nat) (pat : Word)
  | atomic (op sd tgt off : Nat) (sv sc : Word) (res : Option (Word × Bool))
  | push (pd tgt off : Nat) (res : Option Nat)
  deriving DecidableEq, Repr

structure MoveOp where
  hdr : Hdr
  kind : MoveKind
  deriving DecidableEq, Repr

/-- Fields of MMA, MMA2 and LMMA with their address registers read (R62, R82). -/
structure MmaF where
  arr : Nat := 0
  g : Nat := 0
  ai : Nat := 0
  aw : Nat := 0
  asc : Nat := 0
  aw2 : Nat := 0
  asc2 : Nat := 0
  fa : Nat := 0
  fw : Nat := 0
  warr : Nat := 0
  larr : Nat := 0
  wm : Bool := false
  rows : Nat := 0
  kb : Nat := 0
  oi : Nat := 0
  asa : Nat := 0
  asl : Nat := 0
  sle : Bool := false
  two : Bool := false
  lin : Bool := false
  deriving DecidableEq, Repr

/-- Fields of DCLOSE, DKEEP and LCLOSE with their address registers read (R62). -/
structure DrainF where
  arr : Nat := 0
  g : Nat := 0
  ad : Nat := 0
  dsp : Bool := false
  fo : Nat := 0
  arro : Nat := 0
  stoch : Bool := false
  act : Nat := 0
  scm : Nat := 0
  be : Bool := false
  dv : Bool := false
  mm : Nat := 0
  asV : Nat := 0
  abV : Nat := 0
  axV : Nat := 0
  tid : Nat := 0
  keep : Bool := false
  lin : Bool := false
  deriving DecidableEq, Repr

/-- Work of an array queue. -/
inductive ArrKind where
  | mopen (g first cnt mode : Nat) (pre : Bool) (ap fmt : Nat)
  | mma (f : MmaF)
  | mabort (g : Nat)
  | drain (f : DrainF)
  deriving DecidableEq, Repr

structure ArrOp where
  hdr : Hdr
  kind : ArrKind
  deriving DecidableEq, Repr

/-- Work of the vector unit: opcode, fields, and its a and s registers read (R59, R82). -/
structure VecOp where
  hdr : Hdr
  opc : Nat
  w : BitVec 56
  av : Nat
  sv : Word
  deriving DecidableEq, Repr

/-- An initialisation of output tiles that a MOPEN left under way (R98, R135): its group's array, number, tiles and mode, the preload's source, the
tiles zeroed or loaded so far. -/
structure Init where
  hdr : Hdr
  arr : Nat
  g : Nat
  first : Nat
  cnt : Nat
  mode : Nat := 0
  pre : Bool := false
  ap : Nat := 0
  fmt : Nat := 0
  loaded : Nat := 0
  deriving DecidableEq, Repr

/-- An open accumulation group of one array (R97 to R101, R138). gty: 0 untyped, 1 float, 2 integer, 3 lineage; forms: bit 0 a row-mode MMA has
entered it, bit 1 a column-mode one, bit 2 one that its array alone runs (R95, R398); dkS, dkB, dkPois: the scale and bias
words of its latest DKEEP, and the tile positions for which one of them was poisoned. -/
structure Group where
  arr : Nat
  g : Nat
  first : Nat
  cnt : Nat
  mode : Nat := 0
  gty : Nat := 0
  forms : Nat := 0
  owner : Nat := 0
  sn : Nat := 0
  steps : SMap Nat := []
  idx : SMap Nat := []
  dkScm : Nat := 0
  dkBe : Bool := false
  dkS : SMap Half := []
  dkB : SMap Half := []
  dkPois : SMap Bool := []
  dkept : Bool := false
  idxFree : Option Nat := none
  deriving DecidableEq, Repr

/-- Where an adjudication of a drain row stands (R398): failing row, attempts made, tile and unit of the first recompute, tile of the present one. -/
structure Adj where
  row : Nat := 0
  started : Bool := false
  attempts : Nat := 1
  tile2 : Nat := 0
  unit2 : Nat := 0
  at_ : Nat := 0
  deriving DecidableEq, Repr

/-- A row of a drain's tile after stage 5, its poison, and its raw accumulator row (R102). -/
structure ChainRow where
  raw : List Half
  vs : List Half
  pois : Bool
  deriving DecidableEq, Repr

/-- A drain in its array's drain unit (R102 to R108, R179 to R185). kind: 0 pass 0, 1 retry 1, 2 retry 2.
slot: 0 none, 1 asked for, 2 held; pend: the accepted pass waits for its slot, with the rows it read; retried, widened: counted for this tile. -/
structure Drain where
  hdr : Hdr
  f : DrainF
  first : Nat
  cnt : Nat
  mode : Nat := 0
  gty : Nat := 0
  forms : Nat := 0
  idx : SMap Nat := []
  started : Bool := false
  fetch : Bool := false
  tile : Nat := 0
  kind : Nat := 0
  passes : Nat := 0
  fmt : Nat := 0
  farr : Nat := 0
  cause : Nat := 0
  slot : Nat := 0
  slotNo : Nat := 0
  pend : Bool := false
  kept : List ChainRow := []
  retried : Bool := false
  widened : Bool := false
  adj : Option Adj := none
  extV : SMap Half := []
  extI : SMap Nat := []
  deriving DecidableEq, Repr

/-- A deque entry: the descriptor's words and the command ring that enqueued it (R198, R383). -/
structure DqEntry where
  words : List Word
  ring : Nat := 0
  deriving DecidableEq, Repr

/-- The descriptor a sequencer runs (R47, R207). -/
structure Run where
  words : List Word
  home : Nat
  ring : Nat := 0
  stolen : Bool := false
  deriving DecidableEq, Repr

/-- The steal state of an idle tile (R205): the place in the round, the victim probed, the answer under way, the wait. -/
structure Steal where
  active : Bool := false
  pos : Nat := 0
  victim : Option Nat := none
  answer : Option (Option DqEntry) := none
  waiting : Bool := false
  wait : Nat := 64
  deriving DecidableEq, Repr

/-- A window or register access that waits for MAP_HOLD to end (R31); bad: of a width or place that R8 does not accept. -/
structure HeldAcc where
  req : Req
  off : Nat
  len : Nat
  write : Bool
  data : List Byte
  ep : Bool := false
  bad : Bool := false
  deriving DecidableEq, Repr

/-- A sample of a tagged instruction (R419). -/
structure Sample where
  sn : Nat := 0
  bytes : List Byte := []
  deriving DecidableEq, Repr

/-- Who must be answered later: command ring, slot, word 0 of its frame (R377, R379). -/
structure CmdRef where
  ring : Nat := 0
  slot : Nat := 0
  w0 : Word := 0#64
  deriving DecidableEq, Repr

/-- One logical tile (R14, R46, R81, R112). pre: the prefetch queue, words from the PC on with their poison marks (R51, R455); soft: store words
that hold an error nobody has met yet, by word: 1 a single-bit error, else an uncorrectable one (R24). scan: 0 none, 1 draining for a scan, 2 scanning, 3 scanning again after a failure, 4 failed
(R406); scanInt: epoch of the last intermittent result. -/
structure Tile where
  seq : Seq := .idle
  run : Option Run := none
  runNo : Nat := 0
  sn : Nat := 0
  pc : Nat := 0
  codeLo : Nat := 0
  codeLen : Nat := 0
  fp6D : Int := 0
  s : SMap Word := []
  a : SMap Word := []
  p : SMap Bool := []
  k : SMap Nat := []
  loops : List Loop := []
  loads : List Load := []
  stores : List Hdr := []
  move : List MoveOp := []
  qF : List ArrOp := []
  qGX : List ArrOp := []
  qGW : List ArrOp := []
  vec : List VecOp := []
  groups : List Group := []
  inits : List Init := []
  drains : List Drain := []
  v : SMap Half := []
  vpois : SMap Bool := []
  m : SMap (BitVec 128) := []
  vAdj : Option Adj := none
  dq : List DqEntry := []
  dqFar : Nat := 0
  dqMem : SMap Word := []
  summary : Bool × Nat := (false, 0)
  steal : Steal := {}
  mem : List Host.Cell := []
  poison : SMap Bool := []
  cache : List Nat := []
  lfsr : Half := 0#32
  sampLeft : Nat := 0
  samples : List Sample := []
  pre : List (Word × Bool) := []
  soft : SMap Nat := []
  held : List HeldAcc := []
  scan : Nat := 0
  scanCmd : Option CmdRef := none
  scanInt : Option Nat := none
  charges : List (Bool × Nat) := []
  deriving DecidableEq, Repr

/-! ### Stacks, commit groups, base-note engines -/

/-- A row that has shown errors (R234): lines with single-symbol corrections and their epochs, lines with a two-symbol correction,
whether it is failing, whether its repair has been proposed. -/
structure RowErr where
  row : Nat
  ces : List (Nat × Nat) := []
  twos : List Nat := []
  failing : Bool := false
  proposed : Bool := false
  deriving DecidableEq, Repr

/-- An entry of a combining buffer (R229): its line, the bytes written, those of them written poisoned, the use its slots count
under (R416). -/
structure Comb where
  line : Nat
  mask : Word := 0#64
  pois : Word := 0#64
  use : Nat := 4
  deriving DecidableEq, Repr

/-- Stack memory and its controllers (R221 to R241). Addresses in `mem` are physical: (stack × 64 + channel) × 768 MiB + P.
`mem` holds the data that the line code protects; `flips` the errors that a line's 72 stored symbols have taken, by line × 72 + symbol
(R230); `poison` by line, `wcb` open combining entries, oldest first; `rows` the error tables, least recently seen first; `remap` row to
field spare; `badSpare` spares marked bad; `redirect` failed page to replacement; `pages` retired pages by channel; `withdrawn`
replacement pages; `gone` retired channels in order; `hot` µs at hot or above without a break. -/
structure Stacks where
  mem : List Host.Cell := []
  flips : SMap Byte := []
  poison : SMap Bool := []
  wcb : List Comb := []
  rows : List RowErr := []
  remap : SMap Nat := []
  badSpare : SMap Bool := []
  redirect : SMap Nat := []
  pages : SMap Nat := []
  withdrawn : SMap Bool := []
  gone : List Nat := []
  hot : SMap Nat := []
  deriving DecidableEq, Repr

/-- A commit group's own data (R211 to R216): dirty pages with the lines written, regions, members running, who failed. -/
structure CGroup where
  pages : SMap Word := []
  regions : Nat := 0
  internal : Bool := false
  cmd : Option CmdRef := none
  running : List Nat := []
  jobs : Nat := 0
  failTile : Nat := 0
  failSeq : Nat := 0
  used : Bool := false
  deriving DecidableEq, Repr

/-- A region being restored (R210) and the command that waits for it. -/
structure Restore where
  r : Nat
  cmd : CmdRef
  clear : Bool
  base : Nat := 0
  twin : Nat := 0
  pages : Nat := 0
  deriving DecidableEq, Repr

/-- An update job (R249 to R253): its number, where its record lies, the group slot it is a member of, stale for its group, passes dealt
and ended. -/
structure Job where
  no : Nat := 0
  recAt : Nat := 0
  rec_ : List Byte
  cmd : CmdRef
  started : Bool := false
  member : Option Nat := none
  aborted : Bool := false
  lost : Bool := false
  lr : Half := 0#32
  wdf : Half := 0#32
  step : Nat := 0
  scale : Half := 0#32
  next : Nat := 0
  done : Nat := 0
  poisoned : Nat := 0
  firstPoison : Nat := 0
  check : Bool := false
  cnts : List Nat := [0, 0, 0, 0]
  amax : Half := 0#32
  deriving DecidableEq, Repr

/-- A pass on an engine (R248, R255); job 0 is none. Writes are held until the pass ends with its checks agreed (R262):
`wr` the ordinary ones, `snap` those of the snapshot; `firstEng` is the engine that ran it first. -/
structure Pass where
  job : Nat := 0
  no : Nat := 0
  pcw : Nat := 0
  x : SMap Half := []
  pres0 : Bool := false
  pres1 : Bool := false
  hdr0 : Word := 0#64
  hdr1 : Word := 0#64
  wr : List (Nat × List Byte) := []
  snap : List (Nat × List Byte) := []
  cnts : List Nat := [0, 0, 0, 0]
  amax : Half := 0#32
  disagree : Bool := false
  poisonAt : Option Nat := none
  repeats : Nat := 0
  firstEng : Nat := 0
  deriving DecidableEq, Repr

/-- The base die of one stack: program store, jobs in submission order, the passes that each engine interleaves, the one that issues next
first (R261), the passes that wait to be repeated (R262), the epoch after each engine's latest datapath fault (0 none), and the step
values it holds (R268). -/
structure BaseDie where
  prog : SMap (BitVec 32) := []
  jobs : List Job := []
  jobNo : Nat := 0
  eng : SMap (List Pass) := []
  redo : List Pass := []
  dpLast : SMap Nat := []
  held : Bool := false
  lr : Half := 0#32
  wdf : Half := 0x3F800000#32
  step : Nat := 0
  deriving DecidableEq, Repr

/-- A tile's report to the blotter (R156, R176). -/
structure Report where
  tid : Nat
  amax : Half
  cnts : List Nat
  deriving DecidableEq, Repr

/-- The blotter and the schedule engine beyond their registers (R157, R176, R264). -/
structure Blotter where
  hist : SMap (List Half) := []
  kept : SMap (List Nat) := []
  evt : SMap (List Nat) := []
  eff : SMap Word := []
  reports : List Report := []
  advWait : List (Option CmdRef) := []
  deriving DecidableEq, Repr

/-! ### Links and collectives -/

/-- A flit to send or in a retry buffer (R282): kind is the flit type of R280; a DATA flit carries its whole packet and its number
within it, other kinds their body; `org` is the link and VC whose receive buffer it still fills (8 and more: a PACE flit of that serial
number); acknowledgement and credit slots are those it was sent with. -/
structure TxFlit where
  seq : Nat := 0
  kind : Nat
  vc : Nat := 0
  dst : Nat := 0
  src : Nat := 0
  bytes : List (Byte × Bool) := []
  idx : Nat := 0
  last : Bool := true
  org : Option (Nat × Nat) := none
  ack : Nat := 0
  ackValid : Bool := false
  credA : Nat × Nat := (0, 0)
  credB : Nat × Nat := (0, 0)
  deriving DecidableEq, Repr

/-- One link port (R282 to R297): next sequence expected and last accepted, a NAK outstanding, next sequence to send, sent flits
not acknowledged, flits that wait, the VC that the round robin favours, credit counts by VC (sent, last received, accepted,
freed), packets being received by VC, sequence of the last complete packet, replay window open at a sequence, degrade under way
(pair to keep, answered, drained), the width it trains to, whether a soak is due and has seen an uncorrectable codeword; whether any
flit was accepted, an acknowledgement due, the turn of the credit slots, the flit sent last, PACE flits in the receive buffer (copies left
to forward by serial number) and the next serial number. -/
structure Link where
  rxExp : Nat := 1
  rxLast : Nat := 0
  nakOut : Bool := false
  txSeq : Nat := 1
  retry : List TxFlit := []
  waitQ : List TxFlit := []
  rr : Nat := 3
  sentCr : SMap Nat := []
  rcvdCr : SMap Nat := []
  accCr : SMap Nat := []
  freedCr : SMap Nat := []
  part : SMap (List (Byte × Bool)) := []
  lastPktSeq : Nat := 0
  window : Option Nat := none
  degPair : Nat := 0
  degAnswered : Bool := false
  drained : Bool := false
  lanes : Nat := 0
  soak : Bool := false
  soakBad : Bool := false
  rxAny : Bool := false
  ackDue : Bool := false
  credTurn : Nat := 0
  wire : Option TxFlit := none
  paceBuf : SMap Nat := []
  paceNo : Nat := 0
  deriving DecidableEq, Repr

/-- A packet received whole for this device (R288). -/
structure RxPkt where
  link : Nat
  vc : Nat
  flits : Nat
  src : Nat
  w0 : Word
  w1 : Word
  data : List (Byte × Bool)
  deriving DecidableEq, Repr

/-- A PUT this device sent and whose answer is awaited (R392). -/
structure PutWait where
  tag : Nat
  dst : Nat
  cmd : CmdRef
  deriving DecidableEq, Repr

/-- A COL packet in the staging set of an engine (R302, R306): its engine, the slot that holds its payload (logical tile, window offset),
payload bytes, its source and the 16 bytes of its collective header. -/
structure Staged where
  eng : Nat
  tile : Nat
  off : Nat
  len : Nat
  src : Nat
  head : List Byte
  deriving DecidableEq, Repr

/-- A run of elements of a collective's buffer (R307): first element, element codes, block-scale bytes, sender's tensor scale,
which elements and which scale bytes are poisoned. -/
structure Seg where
  off : Nat
  els : List Nat
  scl : List Nat := []
  tsc : Half := 0x3F800000#32
  pois : List Bool := []
  spois : List Bool := []
  deriving DecidableEq, Repr

/-- A segment still to be read from the source (R302, R320): its first element there and in the result, its length, its index, whether it is
the last of its run, the ranks it goes to, whether this member keeps it. -/
structure SrcTask where
  src : Nat
  off : Nat
  len : Nat
  idx : Nat
  last : Bool
  peers : List Nat
  keep : Bool
  deriving DecidableEq, Repr

/-- One of the three parts of a collective (R308): stages completed, segments still to be read, partial sums of the range held with their
poison, converted or gathered pieces, elements received at each stage as (stage, rank, segment), segments of the result still to be written,
finished. -/
structure Part where
  stage : Nat := 0
  todo : List SrcTask := []
  vals : List (Half × Bool) := []
  pieces : List Seg := []
  got : List (Nat × Nat × Seg) := []
  outs : List Seg := []
  finished : Bool := false
  deriving DecidableEq, Repr

/-- A collective record queued or running (R304, R306, R312, R318): last epoch each rank was heard, last SILENT event by rank,
arrivals reported (epoch, arrival); whether poison was met, whether a write was lost with its stack. -/
structure Coll where
  rec_ : List Byte
  cmd : CmdRef
  started : Bool := false
  startAt : Nat := 0
  parts : List Part := []
  heard : SMap Nat := []
  silent : SMap Nat := []
  amax : List (Nat × Nat) := []
  poisoned : Bool := false
  lost : Bool := false
  deriving DecidableEq, Repr

/-- The fabric side of the device: ports, packets received, answers awaited, bonds reported down (dimension × 256 + k × 16 +
destination), collectives in order of submission, pace frames held (epoch, body), COL packets in staging, the
cause of the pace frames being sent (0 none) and their count since the onset. -/
structure Fabric where
  links : SMap Link := []
  rx : List RxPkt := []
  puts : List PutWait := []
  down : SMap Bool := []
  colls : List Coll := []
  paceHeld : List (Nat × List Byte) := []
  staged : List Staged := []
  paceCause : Nat := 0
  paceCount : Nat := 0
  deriving DecidableEq, Repr

/-! ### Clocks, power, Gate -/

/-- The epoch counter beyond its registers (R326 to R331): phase error left and correction gathered, in units of 10⁻⁸ ns, edges within
5 ns in a row, errors of consecutive outliers, CYCLE by die and its fraction, reference cycles since the cold reset, the target that a write
by the cox in this cycle replaced (R328). -/
structure Epoch where
  phase : Int := 0
  acc : Int := 0
  good : Nat := 0
  outl : List Int := []
  cyc : SMap Nat := []
  cycAcc : SMap Nat := []
  ref : Nat := 0
  target : Option Word := none
  deriving DecidableEq, Repr

/-- What the governor has learned of one tag on one die (R348): the adopted node; by node, how many occurrences ran there, and duration (µs) and
energy (µJ) of the last; the next occurrence tries the node below; the search has ended. -/
structure Learn where
  node : Nat := 1100
  recs : SMap (Nat × Nat × Nat) := []
  trying : Bool := false
  final : Bool := false
  deriving DecidableEq, Repr

/-- One die's clock limits, dominant tag and runs of it, stretch and AVSBus state (R338 to R355): caps by junction (and the time above
the target), stack heat, pace, sustained stretch and host; the shed clock and duty; package power planned at its last change; the latest
dominant tag, the present run (µs, µJ), a shorter run that may join it; occurrences past, newest first (tag, µs, µJ); the clock that the present one
runs at (0 not known yet) and whether it changed; counts of cycles and stretched cycles at the last interval; whether the voltage target is confirmed;
the last current read, the last estimate and what it was calibrated by (measured, estimated). -/
structure Die where
  capTherm : Nat := 1300
  thermFor : Nat := 0
  capHeat : Nat := 1300
  capPace : Nat := 1300
  capStretch : Nat := 1300
  hostCap : Nat := 0
  shedClk : Nat := 600
  shedDuty : Nat := 8
  planned : Nat := 0
  dom : Nat := 0
  tag : Nat := 0
  occ : Nat := 0
  occE : Nat := 0
  cand : Nat := 0
  candOcc : Nat := 0
  candE : Nat := 0
  past : List (Nat × Nat × Nat) := []
  occClk : Nat := 0
  mixed : Bool := false
  cycMark : Nat := 0
  stretchMark : Nat := 0
  stretch : Bool := false
  sustained : Bool := false
  holding : Bool := false
  settled : Bool := false
  avsFault : Bool := false
  amps : Nat := 0
  est : Nat := 0
  gain : Option (Nat × Nat) := none
  hottest : Int := 25
  deriving DecidableEq, Repr

/-- The rating governor (R341 to R352): `budget` the facility budget that was in force when the shed began; `samples` of package power, newest first;
a clock or duty was lowered since the last sample; the epoch of its last change; `fcast` the forecasts published, newest first, with their starts;
sum and number of the samples in the present slot. -/
structure Gov where
  dies : SMap Die := []
  learn : SMap Learn := []
  shed : Bool := false
  clamp : Bool := false
  budget : Nat := 0
  samples : List Nat := []
  lowered : Bool := false
  changedAt : Nat := 0
  fcast : List (Nat × List Nat) := []
  slotSum : Nat := 0
  slotNo : Nat := 0
  deriving DecidableEq, Repr

/-- The Gate beyond its registers (R358 to R372). boot: 0 first image, 1 second image, 2 cox released, 3 no image. -/
structure Gate where
  st : DevState := .dry
  open_ : Bool := true
  boot : Nat := 0
  coxValid : Bool := false
  checkOk : Bool := false
  trip : Bool := false
  thermLow : Bool := false
  cause : Nat := 0
  frozen : Bool := false
  intake : Bool := false
  image : Bool := false
  staging : Option (Bool × Option CmdRef) := none
  switching : Option (Bool × Option CmdRef) := none
  misses : Nat := 0
  digests : SMap Word := []
  buf : SMap Byte := []
  deriving DecidableEq, Repr

/-- What the last freeze kept (R417): sequence, epoch, counter registers, CYCLE by die. -/
structure Snap where
  seq : Nat := 0
  at_ : Word := 0#64
  regs : SMap Word := []
  cyc : SMap Nat := []
  deriving DecidableEq, Repr

/-! ### cox, mailbox, records, ports -/

/-- A proposal awaiting the host (R240, R407): kind 1 row, 2 page, 3 channel, 4 tile. -/
structure Proposal where
  num : Nat
  kind : Nat
  a : Nat := 0
  b : Nat := 0
  c : Nat := 0
  d : Nat := 0
  decided : Bool := false
  cmd : Option CmdRef := none
  deriving DecidableEq, Repr

/-- A completion frame waiting for its ring: words and whether it asks for the vector (R375). -/
structure CplFrame where
  words : List Word
  irq : Bool := false
  async : Bool := false
  late : Bool := false
  deriving DecidableEq, Repr

/-- A frame formed that waits for its place in the ring order: its command, the step-advance commands of its ring ahead of it (R379). -/
structure OrdFrame where
  ref : CmdRef
  behind : Nat
  frame : CplFrame
  deriving DecidableEq, Repr

/-- The cox: configurations, proposals, rings, journaled work (R373 to R386, R402, R406); `spareScan` the spares being scanned with
whether they failed once, `scanSkips` the skips of this sweep, `skipped` the tiles to be tried again, `spareSwept` by spare position one more than the sweep
in which the spare last passed. -/
structure Cox where
  staging : SMap Byte := []
  active : SMap Byte := []
  hasActive : Bool := false
  lock : Option CmdRef := none
  commitSlot : Nat := 0
  drain : Option CmdRef := none
  proposals : List Proposal := []
  propNo : Nat := 0
  tails : SMap Nat := []
  stopped : SMap Bool := []
  cplHead : SMap Nat := []
  cplUsed : SMap Nat := []
  unreg : SMap Bool := []
  phase : SMap Bool := []
  held : SMap (List CplFrame) := []
  slots : SMap (List Word) := []
  hostMem : List Host.Cell := []
  async : List (Nat × List Word) := []
  quarNo : Nat := 0
  quars : List (Nat × Nat × Nat × Nat) := []
  moveCmd : SMap CmdRef := []
  movePos : List (Nat × Nat × Nat) := []
  spareScan : List (Nat × Bool) := []
  scanSkips : Nat := 0
  skipped : List Nat := []
  spareSwept : SMap Nat := []
  running : List CmdRef := []
  order : List OrdFrame := []
  deriving DecidableEq, Repr

/-- ERRLOG ring entries, eight words each, and the management port's buffer of event records (R410, R411, R434). -/
structure Records where
  log : SMap (List Word) := []
  port : List (List Word) := []
  sent : List (List Word) := []
  deriving DecidableEq, Repr

/-- The two ports (R425 to R440): the last read completion, MSI-X vectors, the last management reply, an update in
progress (component, bytes received, verified), an activation whose switch is under way. -/
structure Ports where
  rdata : List Byte := []
  rpoison : Bool := false
  msixPend : SMap Bool := []
  msixHold : SMap Bool := []
  msixMerged : SMap Bool := []
  msixSent : SMap Nat := []
  ready : Bool := false
  reply : List Byte := []
  receiver : Nat := 0
  update : Nat := 0
  updLen : Nat := 0
  updOk : Bool := false
  activating : Bool := false
  versions : SMap Nat := []
  jtag : BitVec 32 := 0#32
  deriving DecidableEq, Repr

/-! ### The state -/

/-- What is known of the start words that jobs and collectives wait for: which were seen met (stack and job number, or 8 and collective id)
(R252, R306); by collective id, values of the last 100 µs with their epochs (R317). -/
structure Watch where
  met : List (Nat × Nat) := []
  hist : SMap (List (Nat × Nat)) := []
  deriving DecidableEq, Repr

/-- The device, and the queue of commands that wait. passThrough, retired: positions of routers in pass-through and of tiles retired; flitErr: an
error on the next flit that reaches a router, 1 of one bit, else uncorrectable (R33). -/
structure State where
  pending : List Instr := []
  regs : SMap Word := []
  tiles : SMap Tile := []
  stk : Stacks := {}
  shadow : SMap Bool := []
  restores : List Restore := []
  groups : SMap CGroup := []
  bn : SMap BaseDie := []
  blt : Blotter := {}
  fab : Fabric := {}
  ep : Epoch := {}
  snap : Snap := {}
  gov : Gov := {}
  gate : Gate := {}
  cox : Cox := {}
  rec_ : Records := {}
  ports : Ports := {}
  passThrough : SMap Bool := []
  retired : SMap Bool := []
  flitErr : SMap Nat := []
  watch : Watch := {}
  fresh : Nat := 0
  deriving DecidableEq, Repr

/-- The device right after a cold reset (R358, R361, R371): DRY, the gate-open window open, every register at its
reset value, every store word 0, every queue empty. -/
def State.reset : State := {}

end Sys2Proof.Machine
end

