-- ==== Sys2Proof/Machine/Regs.lean ====
section
/-! DEFINITION. The software-visible registers (R8 to R12): place in BAR0, access masks and reset value of every register of
the register tables, and the lookup of a BAR0 offset. -/

namespace Sys2Proof.Machine
open Sys2Proof

/-- The register names of the tables. -/
inductive RegName where
  | TILE_ID
  | TILE_MAP
  | TILE_STATE
  | TILE_SRAM_CE
  | TILE_SRAM_UE
  | TILE_SRAM_ERR
  | TILE_SRAM_UE_ADDR
  | TILE_MESH_CE
  | TILE_SCRUB
  | TILE_SEQ_CODE
  | TILE_SEQ_CODE_TAG
  | TILE_SEQ_STATE
  | TILE_SEQ_FAULT
  | TILE_SEQ_FAULT_ADDR
  | TILE_SEQ_DISPATCHED
  | TILE_SEQ_FAULTS
  | TILE_ARR_GROUPS
  | TILE_F_BUSY
  | TILE_GX_BUSY
  | TILE_GW_BUSY
  | TILE_DRAIN_ROWS
  | TILE_DRAIN_HELD
  | TILE_ARR_FAULT
  | TILE_VEC_BUSY
  | TILE_VEC_FAULT
  | TSC_SCALE
  | TSC_NEXT
  | TSC_AMAX
  | TSC_CTL
  | TSC_MIRROR
  | TSC_ADV
  | TSC_ADV_EPOCH
  | TSC_ERR
  | TILE_FP6_LOW
  | TILE_TSC_WAIT
  | TILE_TSC_MISS
  | BLT_ZERO
  | BLT_SAT
  | BLT_NONFIN
  | BLT_TOTAL
  | BLT_THR
  | BLT_SPILL
  | BLT_GUARD
  | BLT_EVT
  | GUARD_RETRIES
  | GUARD_WIDENS
  | GUARD_SILL_OVF
  | GUARD_STOPS
  | GUARD_ERR
  | BLT_LAYER
  | TILE_FLOG
  | TILE_FLOG_CNT
  | TILE_GUARD_STOP
  | TILE_ZSKIP
  | TILE_DQ_CFG
  | TILE_DQ_STAT
  | TILE_DQ_PUSHED
  | TILE_DQ_REFUSED
  | TILE_STEALS
  | TILE_STOLEN
  | TILE_STEAL_MISS
  | TILE_DQ_ERR
  | CG_STATE
  | CG_COUNT
  | CG_PAGES
  | CG_EPOCH
  | SHR_BASE
  | SHR_TWIN
  | SHR_SIZE
  | STK_ID
  | STK_CLASS
  | STK_WCB
  | STK_TEMP
  | STK_T_WARM
  | STK_T_HOT
  | STK_T_CRIT
  | STK_CE
  | STK_UE
  | STK_ERR
  | STK_ERR_ADDR
  | STK_ROWCE
  | STK_SCRUB
  | STK_REMAPS
  | STK_SPARE_MIN
  | STK_PAGES_RET
  | STK_PC_RET
  | STK_RD_LINES
  | STK_WR_LINES
  | STK_RMW
  | STK_C0_LATE
  | MEM_LOC_BASE
  | MEM_LOC_SIZE
  | MEM_RESERVE
  | STK_BN_STAT
  | STK_BN_PASSES
  | STK_BN_ABSENT
  | STK_BN_BUSY
  | STK_BN_ERR
  | STK_BN_ERR_ADDR
  | SCHED_CTL
  | SCHED_ADV
  | SCHED_PEND
  | SCHED_STEP
  | SCHED_STEP_NEXT
  | SCHED_ORIGIN
  | SCHED_LR
  | SCHED_NEXT
  | SCHED_POS
  | SCHED_ERR
  | SCHED_SEG_A
  | SCHED_SEG_B
  | LNK_CTL
  | LNK_STAT
  | LNK_PEER
  | LNK_TX_FLITS
  | LNK_RX_FLITS
  | LNK_CRC_ERR
  | LNK_REPLAYS
  | LNK_ACK_LAPSE
  | LNK_FEC_CORR
  | LNK_FEC_UNCORR
  | LNK_LANE_SYM
  | LNK_DEGRADE_THR
  | LNK_PACE_DROP
  | LNK_ERR
  | LNK_DOWN_EPOCH
  | FAB_COORD
  | FAB_NOROUTE
  | FAB_DUP
  | FAB_DETOURS
  | FAB_ROUTE
  | COL_STAGE
  | COL_STAT
  | COL_SEGS
  | COL_SAT
  | COL_SILENT
  | COL_ERR
  | COL_COMM
  | COL_PACE
  | COL_PACE_AMAX
  | COL_PACE_SENT
  | COL_PACE_LOST
  | EPOCH_NOW
  | EPOCH_NEXT_SEC
  | EPOCH_STAT
  | EPOCH_PPS_LAST
  | EPOCH_PPS_ERR
  | EPOCH_RATE
  | EPOCH_STEPS
  | EPOCH_OUTLIERS
  | EPOCH_SET
  | EPOCH_FREEZE_AT
  | EPOCH_FREEZE_CTL
  | EPOCH_ERR
  | CLK_LOCK
  | CLK_UNLOCK
  | GOV_CTL
  | GOV_BUDGET
  | GOV_PWR
  | GOV_STATE
  | GOV_TJ
  | GOV_RAMP_EXCEED
  | GOV_SHED_EVENTS
  | GOV_MIRROR
  | GOV_ERR
  | GOV_TAG
  | GOV_TAG_BUDGET
  | GOV_TAG_FIX
  | GOV_FCAST_EPOCH
  | GOV_FCAST
  | CLK_AVS
  | CLK_DIE_F
  | CLK_DIE_V
  | CLK_DROOP_THR
  | CLK_STRETCH_CNT
  | CLK_STRETCH_EVT
  | CLK_DROOP_REGION
  | GATE_LOCK
  | GATE_WINDOW
  | GATE_PWR_CEIL
  | GATE_SHED
  | GATE_TRIP
  | GATE_LINK_MASK
  | GATE_LANE_RATE
  | GATE_WDOG
  | GATE_POLICY
  | GATE_CFG_PIN
  | GATE_DIGEST
  | GATE_DIGEST_VALID
  | GATE_STAT
  | GATE_CFG_DIGEST
  | GATE_CHECK_ERR
  | GATE_IMG_DIGEST
  | GATE_GL_REFUSED
  | GATE_LINK_BLOCKED
  | GATE_PWR_CLAMPS
  | GATE_TRIPS
  | GATE_WDOG_MISS
  | GATE_IMG_REFUSED
  | GATE_COX_RESTARTS
  | MBX_CMD_BASE
  | MBX_CMD_CFG
  | MBX_CMD_HEAD
  | MBX_CMD_STAT
  | MBX_CPL_BASE
  | MBX_CPL_CFG
  | MBX_CPL_TAIL
  | MBX_CPL_OVF
  | MBX_CMD_DB
  | MBX_CPL_DB
  | MBX_STAT
  | MBX_EVT_CFG
  | MBX_ASSIST
  | MBX_CMDS
  | MBX_LATE
  | TILE_RES_DP
  | TILE_RES_CHK
  | TILE_RES_ADJ
  | TILE_RES_24H
  | TILE_SCAN_LAST
  | TILE_SCAN_STAT
  | TILE_TAINT_FLAGS
  | TILE_TAINT_LO
  | TILE_TAINT_HI
  | TILE_TAINT
  | ERR_HEAD
  | ERR_COUNT
  | ERR_SCAN_CFG
  | ERR_SCAN_POS
  | ERR_QUAR_BASE
  | ERR_QUAR_USED
  | ERR_DIE_LOST
  | ERR_PORT_LOST
  | TILE_PMC_SEL
  | TILE_PMC_TAGS
  | TILE_PMC_OVF
  | TILE_PMC_CLR
  | TILE_PMC_CTR
  | TILE_PMC_SNAP
  | PMC_CTL
  | PMC_FREEZE_SEQ
  | PMC_FREEZE_EPOCH
  | PMC_FREEZE_NOW
  | PMC_SAMPLE
  | PMC_SRING
  | PMC_SRING_WR
  | PMC_SRING_RD
  | PMC_SAMPLE_DROP
  | PMC_STK_SLOT
  | PMC_LNK_VC
  | PMC_DEV_SNAP
  | PCIE_LINK
  | PCIE_BAR2_BASE
  | PCIE_BAR2_SIZE
  | PCIE_ERR
  | MGMT_STAT
  | FLASH_STAT
  | FLASH_ERR
  deriving DecidableEq, Repr

/-- A register's place: base offset, then two strides and counts for its indices; and the bits of each access kind (R8). -/
structure RegInfo where
  base : Nat
  s1 : Nat := 8
  c1 : Nat := 1
  s2 : Nat := 8
  c2 : Nat := 1
  rw : Word := 0#64
  w1c : Word := 0#64
  w1s : Word := 0#64
  wo : Word := 0#64
  gl : Word := 0#64
  deriving DecidableEq, Repr

/-- Place and access bits of every register, from the tables of the rule named. -/
def regInfo : RegName → RegInfo
  | .TILE_ID => { base := 0x1000000, s1 := 0x4000, c1 := 1152 }  -- R45
  | .TILE_MAP => { base := 0x1000008, s1 := 0x4000, c1 := 1152 }  -- R45
  | .TILE_STATE => { base := 0x1000010, s1 := 0x4000, c1 := 1152 }  -- R45
  | .TILE_SRAM_CE => { base := 0x1000018, s1 := 0x4000, c1 := 1152 }  -- R45
  | .TILE_SRAM_UE => { base := 0x1000020, s1 := 0x4000, c1 := 1152 }  -- R45
  | .TILE_SRAM_ERR => { base := 0x1000028, s1 := 0x4000, c1 := 1152, w1c := 0x13F#64 }  -- R45
  | .TILE_SRAM_UE_ADDR => { base := 0x1000030, s1 := 0x4000, c1 := 1152 }  -- R45
  | .TILE_MESH_CE => { base := 0x1000038, s1 := 0x4000, c1 := 1152 }  -- R45
  | .TILE_SCRUB => { base := 0x1000040, s1 := 0x4000, c1 := 1152, rw := 0xFFF#64 }  -- R45
  | .TILE_SEQ_CODE => { base := 0x1000100, s1 := 0x4000, c1 := 1152, rw := 0xF3F#64 }  -- R87
  | .TILE_SEQ_CODE_TAG => { base := 0x1000108, s1 := 0x4000, c1 := 1152, rw := 0xFFFFFFFF#64 }  -- R87
  | .TILE_SEQ_STATE => { base := 0x1000110, s1 := 0x4000, c1 := 1152 }  -- R87
  | .TILE_SEQ_FAULT => { base := 0x1000118, s1 := 0x4000, c1 := 1152, w1c := 0x8000000000000000#64 }  -- R87
  | .TILE_SEQ_FAULT_ADDR => { base := 0x1000120, s1 := 0x4000, c1 := 1152 }  -- R87
  | .TILE_SEQ_DISPATCHED => { base := 0x1000128, s1 := 0x4000, c1 := 1152 }  -- R87
  | .TILE_SEQ_FAULTS => { base := 0x1000130, s1 := 0x4000, c1 := 1152 }  -- R87
  | .TILE_ARR_GROUPS => { base := 0x1000200, s1 := 0x4000, c1 := 1152 }  -- R111
  | .TILE_F_BUSY => { base := 0x1000208, s1 := 0x4000, c1 := 1152 }  -- R111
  | .TILE_GX_BUSY => { base := 0x1000210, s1 := 0x4000, c1 := 1152 }  -- R111
  | .TILE_GW_BUSY => { base := 0x1000218, s1 := 0x4000, c1 := 1152 }  -- R111
  | .TILE_DRAIN_ROWS => { base := 0x1000220, s1 := 0x4000, c1 := 1152 }  -- R111
  | .TILE_DRAIN_HELD => { base := 0x1000228, s1 := 0x4000, c1 := 1152 }  -- R111
  | .TILE_ARR_FAULT => { base := 0x1000230, s1 := 0x4000, c1 := 1152, w1c := 0x8000000000000000#64 }  -- R111
  | .TILE_VEC_BUSY => { base := 0x1000300, s1 := 0x4000, c1 := 1152 }  -- R131
  | .TILE_VEC_FAULT => { base := 0x1000308, s1 := 0x4000, c1 := 1152, w1c := 0x8000000000000000#64 }  -- R131
  | .TSC_SCALE => { base := 0xC0000, s1 := 0x20, c1 := 4096 }  -- R173
  | .TSC_NEXT => { base := 0xC0008, s1 := 0x20, c1 := 4096, rw := 0xFFFFFFFF#64 }  -- R173
  | .TSC_AMAX => { base := 0xC0010, s1 := 0x20, c1 := 4096 }  -- R173
  | .TSC_CTL => { base := 0xC0018, s1 := 0x20, c1 := 4096, rw := 0xFFFFFFFF00003FFF#64 }  -- R173
  | .TSC_MIRROR => { base := 0xE0000, rw := 0xFFFFFFFFC001#64 }  -- R174
  | .TSC_ADV => { base := 0xE0008 }  -- R174
  | .TSC_ADV_EPOCH => { base := 0xE0010 }  -- R174
  | .TSC_ERR => { base := 0xE0018, w1c := 0x3#64 }  -- R174
  | .TILE_FP6_LOW => { base := 0x1000400, s1 := 0x4000, c1 := 1152, rw := 0xFFFFFFFFFC00#64 }  -- R175
  | .TILE_TSC_WAIT => { base := 0x1000408, s1 := 0x4000, c1 := 1152 }  -- R175
  | .TILE_TSC_MISS => { base := 0x1000410, s1 := 0x4000, c1 := 1152 }  -- R175
  | .BLT_ZERO => { base := 0x80000, s1 := 0x40, c1 := 4096 }  -- R195
  | .BLT_SAT => { base := 0x80008, s1 := 0x40, c1 := 4096 }  -- R195
  | .BLT_NONFIN => { base := 0x80010, s1 := 0x40, c1 := 4096 }  -- R195
  | .BLT_TOTAL => { base := 0x80018, s1 := 0x40, c1 := 4096 }  -- R195
  | .BLT_THR => { base := 0x80020, s1 := 0x40, c1 := 4096, rw := 0xFF3FFFFFFFFFFFFF#64 }  -- R195
  | .BLT_SPILL => { base := 0x80028, s1 := 0x40, c1 := 4096, rw := 0xFFFFFFFFFFFFC00#64 }  -- R195
  | .BLT_GUARD => { base := 0x80030, s1 := 0x40, c1 := 4096, rw := 0xFF#64 }  -- R195
  | .BLT_EVT => { base := 0x80038, s1 := 0x40, c1 := 4096 }  -- R195
  | .GUARD_RETRIES => { base := 0xE0100 }  -- R196
  | .GUARD_WIDENS => { base := 0xE0108 }  -- R196
  | .GUARD_SILL_OVF => { base := 0xE0110 }  -- R196
  | .GUARD_STOPS => { base := 0xE0118 }  -- R196
  | .GUARD_ERR => { base := 0xE0120, w1c := 0x7#64 }  -- R196
  | .BLT_LAYER => { base := 0xE1000, s1 := 0x8, c1 := 256, rw := 0x3#64 }  -- R196
  | .TILE_FLOG => { base := 0x1000500, s1 := 0x4000, c1 := 1152, rw := 0xFFFFFFFFF00F#64 }  -- R197
  | .TILE_FLOG_CNT => { base := 0x1000508, s1 := 0x4000, c1 := 1152 }  -- R197
  | .TILE_GUARD_STOP => { base := 0x1000510, s1 := 0x4000, c1 := 1152, w1c := 0x8000000000000000#64 }  -- R197
  | .TILE_ZSKIP => { base := 0x1000518, s1 := 0x4000, c1 := 1152 }  -- R197
  | .TILE_DQ_CFG => { base := 0x1000600, s1 := 0x4000, c1 := 1152, rw := 0xF07#64 }  -- R219
  | .TILE_DQ_STAT => { base := 0x1000608, s1 := 0x4000, c1 := 1152 }  -- R219
  | .TILE_DQ_PUSHED => { base := 0x1000610, s1 := 0x4000, c1 := 1152 }  -- R219
  | .TILE_DQ_REFUSED => { base := 0x1000618, s1 := 0x4000, c1 := 1152 }  -- R219
  | .TILE_STEALS => { base := 0x1000620, s1 := 0x4000, c1 := 1152 }  -- R219
  | .TILE_STOLEN => { base := 0x1000628, s1 := 0x4000, c1 := 1152 }  -- R219
  | .TILE_STEAL_MISS => { base := 0x1000630, s1 := 0x4000, c1 := 1152 }  -- R219
  | .TILE_DQ_ERR => { base := 0x1000638, s1 := 0x4000, c1 := 1152, w1c := 0x3#64 }  -- R219
  | .CG_STATE => { base := 0x18000, s1 := 0x40, c1 := 16 }  -- R220
  | .CG_COUNT => { base := 0x18008, s1 := 0x40, c1 := 16 }  -- R220
  | .CG_PAGES => { base := 0x18010, s1 := 0x40, c1 := 16 }  -- R220
  | .CG_EPOCH => { base := 0x18018, s1 := 0x40, c1 := 16 }  -- R220
  | .SHR_BASE => { base := 0x19000, s1 := 0x20, c1 := 32 }  -- R220
  | .SHR_TWIN => { base := 0x19008, s1 := 0x20, c1 := 32 }  -- R220
  | .SHR_SIZE => { base := 0x19010, s1 := 0x20, c1 := 32 }  -- R220
  | .STK_ID => { base := 0x200000, s1 := 0x10000, c1 := 8 }  -- R242
  | .STK_CLASS => { base := 0x200008, s1 := 0x10000, c1 := 8, rw := 0xFFFF3F#64 }  -- R242
  | .STK_WCB => { base := 0x200010, s1 := 0x10000, c1 := 8, rw := 0x3FFFF#64 }  -- R242
  | .STK_TEMP => { base := 0x200018, s1 := 0x10000, c1 := 8 }  -- R242
  | .STK_T_WARM => { base := 0x200020, s1 := 0x10000, c1 := 8 }  -- R242
  | .STK_T_HOT => { base := 0x200028, s1 := 0x10000, c1 := 8 }  -- R242
  | .STK_T_CRIT => { base := 0x200030, s1 := 0x10000, c1 := 8 }  -- R242
  | .STK_CE => { base := 0x200038, s1 := 0x10000, c1 := 8 }  -- R242
  | .STK_UE => { base := 0x200040, s1 := 0x10000, c1 := 8 }  -- R242
  | .STK_ERR => { base := 0x200048, s1 := 0x10000, c1 := 8, w1c := 0x1F#64 }  -- R242
  | .STK_ERR_ADDR => { base := 0x200050, s1 := 0x10000, c1 := 8 }  -- R242
  | .STK_ROWCE => { base := 0x200058, s1 := 0x10000, c1 := 8, rw := 0xFF#64 }  -- R242
  | .STK_SCRUB => { base := 0x200060, s1 := 0x10000, c1 := 8, rw := 0xFF#64 }  -- R242
  | .STK_REMAPS => { base := 0x200068, s1 := 0x10000, c1 := 8 }  -- R242
  | .STK_SPARE_MIN => { base := 0x200070, s1 := 0x10000, c1 := 8 }  -- R242
  | .STK_PAGES_RET => { base := 0x200078, s1 := 0x10000, c1 := 8 }  -- R242
  | .STK_PC_RET => { base := 0x200080, s1 := 0x10000, c1 := 8 }  -- R242
  | .STK_RD_LINES => { base := 0x200088, s1 := 0x10000, c1 := 8 }  -- R242
  | .STK_WR_LINES => { base := 0x200090, s1 := 0x10000, c1 := 8 }  -- R242
  | .STK_RMW => { base := 0x200098, s1 := 0x10000, c1 := 8 }  -- R242
  | .STK_C0_LATE => { base := 0x2000A0, s1 := 0x10000, c1 := 8 }  -- R242
  | .MEM_LOC_BASE => { base := 0x208000, s1 := 0x10, c1 := 16 }  -- R243
  | .MEM_LOC_SIZE => { base := 0x208008, s1 := 0x10, c1 := 16 }  -- R243
  | .MEM_RESERVE => { base := 0x209000 }  -- R243
  | .STK_BN_STAT => { base := 0x200100, s1 := 0x10000, c1 := 8 }  -- R272
  | .STK_BN_PASSES => { base := 0x200108, s1 := 0x10000, c1 := 8 }  -- R272
  | .STK_BN_ABSENT => { base := 0x200110, s1 := 0x10000, c1 := 8 }  -- R272
  | .STK_BN_BUSY => { base := 0x200118, s1 := 0x10000, c1 := 8 }  -- R272
  | .STK_BN_ERR => { base := 0x200120, s1 := 0x10000, c1 := 8, w1c := 0xF#64 }  -- R272
  | .STK_BN_ERR_ADDR => { base := 0x200128, s1 := 0x10000, c1 := 8 }  -- R272
  | .SCHED_CTL => { base := 0x500000, w1s := 0x2#64 }  -- R273
  | .SCHED_ADV => { base := 0x500008, wo := 0x1#64 }  -- R273
  | .SCHED_PEND => { base := 0x500010 }  -- R273
  | .SCHED_STEP => { base := 0x500018 }  -- R273
  | .SCHED_STEP_NEXT => { base := 0x500020, rw := 0xFFFFFFFFFFFF#64, w1s := 0x8000000000000000#64 }  -- R273
  | .SCHED_ORIGIN => { base := 0x500028, rw := 0xFFFFFFFFFFFF#64 }  -- R273
  | .SCHED_LR => { base := 0x500030 }  -- R273
  | .SCHED_NEXT => { base := 0x500038, rw := 0xFFFFFFFFFFFFFFFF#64 }  -- R273
  | .SCHED_POS => { base := 0x500040 }  -- R273
  | .SCHED_ERR => { base := 0x500048, w1c := 0x1#64 }  -- R273
  | .SCHED_SEG_A => { base := 0x501000, s1 := 0x20, c1 := 16, s2 := 0x8, c2 := 4, rw := 0xFFFFFFFFFFFFFFFF#64 }  -- R273
  | .SCHED_SEG_B => { base := 0x502000, s1 := 0x20, c1 := 16, s2 := 0x8, c2 := 4, rw := 0xFFFFFFFFFFFFFFFF#64 }  -- R273
  | .LNK_CTL => { base := 0x300000, s1 := 0x1000, c1 := 48 }  -- R300
  | .LNK_STAT => { base := 0x300008, s1 := 0x1000, c1 := 48 }  -- R300
  | .LNK_PEER => { base := 0x300010, s1 := 0x1000, c1 := 48 }  -- R300
  | .LNK_TX_FLITS => { base := 0x300018, s1 := 0x1000, c1 := 48 }  -- R300
  | .LNK_RX_FLITS => { base := 0x300020, s1 := 0x1000, c1 := 48 }  -- R300
  | .LNK_CRC_ERR => { base := 0x300028, s1 := 0x1000, c1 := 48 }  -- R300
  | .LNK_REPLAYS => { base := 0x300030, s1 := 0x1000, c1 := 48 }  -- R300
  | .LNK_ACK_LAPSE => { base := 0x300038, s1 := 0x1000, c1 := 48 }  -- R300
  | .LNK_FEC_CORR => { base := 0x300040, s1 := 0x1000, c1 := 48 }  -- R300
  | .LNK_FEC_UNCORR => { base := 0x300048, s1 := 0x1000, c1 := 48 }  -- R300
  | .LNK_LANE_SYM => { base := 0x300050, s1 := 0x1000, c1 := 48 }  -- R300
  | .LNK_DEGRADE_THR => { base := 0x300058, s1 := 0x1000, c1 := 48, rw := 0xFFFF#64 }  -- R300
  | .LNK_PACE_DROP => { base := 0x300060, s1 := 0x1000, c1 := 48 }  -- R300
  | .LNK_ERR => { base := 0x300068, s1 := 0x1000, c1 := 48, w1c := 0x3F#64 }  -- R300
  | .LNK_DOWN_EPOCH => { base := 0x300070, s1 := 0x1000, c1 := 48 }  -- R300
  | .FAB_COORD => { base := 0x380000 }  -- R301
  | .FAB_NOROUTE => { base := 0x380008 }  -- R301
  | .FAB_DUP => { base := 0x380010 }  -- R301
  | .FAB_DETOURS => { base := 0x380018 }  -- R301
  | .FAB_ROUTE => { base := 0x381000, s1 := 0x8, c1 := 48 }  -- R301
  | .COL_STAGE => { base := 0x400000, s1 := 0x40000, c1 := 4 }  -- R321
  | .COL_STAT => { base := 0x400008, s1 := 0x40000, c1 := 4 }  -- R321
  | .COL_SEGS => { base := 0x400010, s1 := 0x40000, c1 := 4 }  -- R321
  | .COL_SAT => { base := 0x400018, s1 := 0x40000, c1 := 4 }  -- R321
  | .COL_SILENT => { base := 0x400020, s1 := 0x40000, c1 := 4 }  -- R321
  | .COL_ERR => { base := 0x400028, s1 := 0x40000, c1 := 4, w1c := 0x7#64 }  -- R321
  | .COL_COMM => { base := 0x401000, s1 := 0x8, c1 := 16 }  -- R322
  | .COL_PACE => { base := 0x402000, rw := 0xFFFFFFF#64 }  -- R322
  | .COL_PACE_AMAX => { base := 0x402008 }  -- R322
  | .COL_PACE_SENT => { base := 0x402010 }  -- R322
  | .COL_PACE_LOST => { base := 0x402018 }  -- R322
  | .EPOCH_NOW => { base := 0x20000 }  -- R333
  | .EPOCH_NEXT_SEC => { base := 0x20008 }  -- R333
  | .EPOCH_STAT => { base := 0x20010 }  -- R333
  | .EPOCH_PPS_LAST => { base := 0x20018 }  -- R333
  | .EPOCH_PPS_ERR => { base := 0x20020 }  -- R333
  | .EPOCH_RATE => { base := 0x20028 }  -- R333
  | .EPOCH_STEPS => { base := 0x20030 }  -- R333
  | .EPOCH_OUTLIERS => { base := 0x20038 }  -- R333
  | .EPOCH_SET => { base := 0x20040, wo := 0xFFFFFFFFFFFFFFFF#64 }  -- R333
  | .EPOCH_FREEZE_AT => { base := 0x20048, rw := 0xFFFFFFFFFFFFFFFF#64 }  -- R333
  | .EPOCH_FREEZE_CTL => { base := 0x20050, w1c := 0x2#64, w1s := 0x1#64 }  -- R333
  | .EPOCH_ERR => { base := 0x20058, w1c := 0xF#64 }  -- R333
  | .CLK_LOCK => { base := 0x30000 }  -- R334
  | .CLK_UNLOCK => { base := 0x30008, w1c := 0x3FFFFFF#64 }  -- R334
  | .GOV_CTL => { base := 0x40000, rw := 0xFF1FFFFFFFFFF#64 }  -- R356
  | .GOV_BUDGET => { base := 0x40008 }  -- R356
  | .GOV_PWR => { base := 0x40010 }  -- R356
  | .GOV_STATE => { base := 0x40018 }  -- R356
  | .GOV_TJ => { base := 0x40020, rw := 0xFF#64 }  -- R356
  | .GOV_RAMP_EXCEED => { base := 0x40028 }  -- R356
  | .GOV_SHED_EVENTS => { base := 0x40030 }  -- R356
  | .GOV_MIRROR => { base := 0x40038, rw := 0xFFFFFFFFFF01#64 }  -- R356
  | .GOV_ERR => { base := 0x40040, w1c := 0x1F#64 }  -- R356
  | .GOV_TAG => { base := 0x40100, s1 := 0x20, c1 := 16 }  -- R356
  | .GOV_TAG_BUDGET => { base := 0x40108, s1 := 0x20, c1 := 16, rw := 0xFFF#64 }  -- R356
  | .GOV_TAG_FIX => { base := 0x40110, s1 := 0x20, c1 := 16, rw := 0x7FF#64 }  -- R356
  | .GOV_FCAST_EPOCH => { base := 0x40FF8 }  -- R356
  | .GOV_FCAST => { base := 0x41000, s1 := 0x8, c1 := 100 }  -- R356
  | .CLK_AVS => { base := 0x30010, rw := 0x1#64 }  -- R357
  | .CLK_DIE_F => { base := 0x30100, s1 := 0x40, c1 := 4 }  -- R357
  | .CLK_DIE_V => { base := 0x30108, s1 := 0x40, c1 := 4 }  -- R357
  | .CLK_DROOP_THR => { base := 0x30110, s1 := 0x40, c1 := 4, rw := 0x1F#64 }  -- R357
  | .CLK_STRETCH_CNT => { base := 0x30118, s1 := 0x40, c1 := 4 }  -- R357
  | .CLK_STRETCH_EVT => { base := 0x30120, s1 := 0x40, c1 := 4 }  -- R357
  | .CLK_DROOP_REGION => { base := 0x30128, s1 := 0x40, c1 := 4, w1c := 0x3FFFFFF#64 }  -- R357
  | .GATE_LOCK => { base := 0x0, gl := 0x1#64 }  -- R361
  | .GATE_WINDOW => { base := 0x8 }  -- R361
  | .GATE_PWR_CEIL => { base := 0x10, gl := 0xFFF0FFF#64 }  -- R361
  | .GATE_SHED => { base := 0x18, gl := 0xFFF#64 }  -- R361
  | .GATE_TRIP => { base := 0x20, gl := 0xFFFF#64 }  -- R361
  | .GATE_LINK_MASK => { base := 0x28, gl := 0xFFFFFFFFFFFF#64 }  -- R361
  | .GATE_LANE_RATE => { base := 0x30, gl := 0x1#64 }  -- R361
  | .GATE_WDOG => { base := 0x38, gl := 0x3FFF#64 }  -- R361
  | .GATE_POLICY => { base := 0x40, gl := 0x7#64 }  -- R361
  | .GATE_CFG_PIN => { base := 0x48, gl := 0xFFFFFFFFFFFFFFFF#64 }  -- R361
  | .GATE_DIGEST => { base := 0x80, s1 := 0x8, c1 := 8, gl := 0xFFFFFFFFFFFFFFFF#64 }  -- R361
  | .GATE_DIGEST_VALID => { base := 0xC0, gl := 0xFF#64 }  -- R361
  | .GATE_STAT => { base := 0x100 }  -- R361
  | .GATE_CFG_DIGEST => { base := 0x108 }  -- R361
  | .GATE_CHECK_ERR => { base := 0x110 }  -- R361
  | .GATE_IMG_DIGEST => { base := 0x118, s1 := 0x8, c1 := 2 }  -- R361
  | .GATE_GL_REFUSED => { base := 0x128 }  -- R361
  | .GATE_LINK_BLOCKED => { base := 0x130 }  -- R361
  | .GATE_PWR_CLAMPS => { base := 0x138 }  -- R361
  | .GATE_TRIPS => { base := 0x140 }  -- R361
  | .GATE_WDOG_MISS => { base := 0x148 }  -- R361
  | .GATE_IMG_REFUSED => { base := 0x150 }  -- R361
  | .GATE_COX_RESTARTS => { base := 0x158 }  -- R361
  | .MBX_CMD_BASE => { base := 0x10000, s1 := 0x40, c1 := 8, rw := 0xFFFFFFFFFFFFF000#64 }  -- R396
  | .MBX_CMD_CFG => { base := 0x10008, s1 := 0x40, c1 := 8, rw := 0x3FF0177#64 }  -- R396
  | .MBX_CMD_HEAD => { base := 0x10010, s1 := 0x40, c1 := 8 }  -- R396
  | .MBX_CMD_STAT => { base := 0x10018, s1 := 0x40, c1 := 8, w1c := 0x1#64 }  -- R396
  | .MBX_CPL_BASE => { base := 0x10200, s1 := 0x40, c1 := 8, rw := 0xFFFFFFFFFFFFF000#64 }  -- R396
  | .MBX_CPL_CFG => { base := 0x10208, s1 := 0x40, c1 := 8, rw := 0x13F07#64 }  -- R396
  | .MBX_CPL_TAIL => { base := 0x10210, s1 := 0x40, c1 := 8 }  -- R396
  | .MBX_CPL_OVF => { base := 0x10218, s1 := 0x40, c1 := 8 }  -- R396
  | .MBX_CMD_DB => { base := 0x10400, s1 := 0x8, c1 := 8, wo := 0xFFF#64 }  -- R396
  | .MBX_CPL_DB => { base := 0x10500, s1 := 0x8, c1 := 8, wo := 0xFFF#64 }  -- R396
  | .MBX_STAT => { base := 0x10600 }  -- R396
  | .MBX_EVT_CFG => { base := 0x10608, rw := 0xFFFFFFFF0000000F#64 }  -- R396
  | .MBX_ASSIST => { base := 0x10610 }  -- R396
  | .MBX_CMDS => { base := 0x10618 }  -- R396
  | .MBX_LATE => { base := 0x10620 }  -- R396
  | .TILE_RES_DP => { base := 0x1000700, s1 := 0x4000, c1 := 1152 }  -- R412
  | .TILE_RES_CHK => { base := 0x1000708, s1 := 0x4000, c1 := 1152 }  -- R412
  | .TILE_RES_ADJ => { base := 0x1000710, s1 := 0x4000, c1 := 1152 }  -- R412
  | .TILE_RES_24H => { base := 0x1000718, s1 := 0x4000, c1 := 1152 }  -- R412
  | .TILE_SCAN_LAST => { base := 0x1000720, s1 := 0x4000, c1 := 1152 }  -- R412
  | .TILE_SCAN_STAT => { base := 0x1000728, s1 := 0x4000, c1 := 1152 }  -- R412
  | .TILE_TAINT_FLAGS => { base := 0x1000730, s1 := 0x4000, c1 := 1152 }  -- R412
  | .TILE_TAINT_LO => { base := 0x1000738, s1 := 0x4000, c1 := 1152 }  -- R412
  | .TILE_TAINT_HI => { base := 0x1000740, s1 := 0x4000, c1 := 1152 }  -- R412
  | .TILE_TAINT => { base := 0x1000800, s1 := 0x4000, c1 := 1152, s2 := 0x8, c2 := 64 }  -- R412
  | .ERR_HEAD => { base := 0x600000 }  -- R413
  | .ERR_COUNT => { base := 0x600008 }  -- R413
  | .ERR_SCAN_CFG => { base := 0x600010, rw := 0xFFF7FFFF#64 }  -- R413
  | .ERR_SCAN_POS => { base := 0x600018 }  -- R413
  | .ERR_QUAR_BASE => { base := 0x600020, rw := 0xFFFFFFF80000#64 }  -- R413
  | .ERR_QUAR_USED => { base := 0x600028 }  -- R413
  | .ERR_DIE_LOST => { base := 0x600030 }  -- R413
  | .ERR_PORT_LOST => { base := 0x600038 }  -- R413
  | .TILE_PMC_SEL => { base := 0x1000A00, s1 := 0x4000, c1 := 1152, rw := 0xFFFFFFFFFFFFFFFF#64 }  -- R423
  | .TILE_PMC_TAGS => { base := 0x1000A08, s1 := 0x4000, c1 := 1152, rw := 0x3FFFF#64 }  -- R423
  | .TILE_PMC_OVF => { base := 0x1000A10, s1 := 0x4000, c1 := 1152, w1c := 0xFF#64 }  -- R423
  | .TILE_PMC_CLR => { base := 0x1000A18, s1 := 0x4000, c1 := 1152, w1s := 0xFF#64 }  -- R423
  | .TILE_PMC_CTR => { base := 0x1003000, s1 := 0x4000, c1 := 1152, s2 := 0x8, c2 := 8 }  -- R423
  | .TILE_PMC_SNAP => { base := 0x1003040, s1 := 0x4000, c1 := 1152, s2 := 0x8, c2 := 16 }  -- R423
  | .PMC_CTL => { base := 0x100000, w1s := 0x1#64 }  -- R424
  | .PMC_FREEZE_SEQ => { base := 0x100008 }  -- R424
  | .PMC_FREEZE_EPOCH => { base := 0x100010 }  -- R424
  | .PMC_FREEZE_NOW => { base := 0x100018, wo := 0x1#64 }  -- R424
  | .PMC_SAMPLE => { base := 0x100020, rw := 0xFFFFFFFF00FFFFFF#64 }  -- R424
  | .PMC_SRING => { base := 0x100028 }  -- R424
  | .PMC_SRING_WR => { base := 0x100030 }  -- R424
  | .PMC_SRING_RD => { base := 0x100038, rw := 0xFFFFFFFF#64 }  -- R424
  | .PMC_SAMPLE_DROP => { base := 0x100040 }  -- R424
  | .PMC_STK_SLOT => { base := 0x110000, s1 := 0x8, c1 := 64 }  -- R424
  | .PMC_LNK_VC => { base := 0x110200, s1 := 0x8, c1 := 384 }  -- R424
  | .PMC_DEV_SNAP => { base := 0x120000, s1 := 0x8, c1 := 512 }  -- R424
  | .PCIE_LINK => { base := 0x10A00 }  -- R440
  | .PCIE_BAR2_BASE => { base := 0x10A08, rw := 0xFFFFC0000000#64 }  -- R440
  | .PCIE_BAR2_SIZE => { base := 0x10A10 }  -- R440
  | .PCIE_ERR => { base := 0x10A18, w1c := 0x7#64 }  -- R440
  | .MGMT_STAT => { base := 0x10A20 }  -- R440
  | .FLASH_STAT => { base := 0x10A28 }  -- R440
  | .FLASH_ERR => { base := 0x10A30, w1c := 0x7#64 }  -- R440

/-- The position of a factory map (R27). -/
def factoryPos (i : Nat) : Nat × Nat :=
  let r := (i % 288) / 24
  (((i / 288) % 2) * 24 + i % 24, (i / 576) * 13 + r + (if 6 ≤ r then 1 else 0))

/-- The spare at a column of a die's spare row (R27). -/
def sparePos (d c : Nat) : Nat × Nat := ((d % 2) * 24 + c, (d / 2) * 13 + 6)

/-- One more entry of the spares that are not free: a column counts once. -/
def useSpare (d : Nat) (l : List (Nat × Option Nat)) (i : Nat) : List (Nat × Option Nat) :=
  match Config.shippedUse d i with
  | some u => if l.any (fun e => e.1 == u.1.val) then l else l ++ [(u.1.val, u.2.map (·.val))]
  | none => l

/-- The spares of a die that are not free as shipped: column, and the tile it serves (R27, R28). -/
def shippedUsed (d : Nat) : List (Nat × Option Nat) := (List.range 8).foldl (useSpare d) []

/-- The shipped position of a logical tile (R27). -/
def shippedPos (i : Nat) : Nat × Nat :=
  match (shippedUsed (i / 288)).find? (fun e => e.2 == some (i % 288)) with
  | some e => sparePos (i / 288) e.1
  | none => factoryPos i

/-- The free spares of a die as shipped, at least 16 (R28). -/
def shippedSpares (d : Nat) : List (Nat × Nat) :=
  ((List.range 24).filter (fun c => !(shippedUsed d).any (fun e => e.1 == c))).map (sparePos d)

/-- The shipped position of a logical tile in the layout of TILE_MAP (R45), bit 16 set where it differs from the factory map (R27). -/
def shippedMapWord (i : Nat) : Word :=
  let p := shippedPos i
  BitVec.ofNat 64 (p.1 % 64 + (p.2 % 32) * 256 + (if p = factoryPos i then 0 else 65536))

/-- Reset values of the tables (R8); where a table gives none, log 4 names the value. -/
def regReset (n : RegName) (i : Nat) : Word :=
  match n with
  | .TILE_ID => BitVec.ofNat 64 (i + (i / 288) * 2 ^ 11 + ((i % 288) / 24) * 2 ^ 13 + (i % 24) * 2 ^ 17)
  | .TILE_MAP => shippedMapWord i
  | .TILE_SCRUB => 0x3C#64
  | .TSC_SCALE => 0x3F800000#64
  | .TSC_NEXT => 0x3F800000#64
  | .TSC_CTL => 0x17#64
  | .BLT_GUARD => 0x40#64
  | .TILE_DQ_CFG => 0x607#64
  | .CG_STATE => 0x4#64
  | .STK_ID => BitVec.ofNat 64 (i + (i / 2) * 8 + (i % 2) * 32)
  | .STK_CLASS => 0x424810#64
  | .STK_WCB => 0x303E8#64
  | .STK_TEMP => 25#64
  | .STK_ROWCE => 0x8#64
  | .STK_SCRUB => 0x18#64
  | .STK_SPARE_MIN => 0x4#64
  | .STK_BN_STAT => 0xFF#64
  | .SCHED_LR => 0x3F80000000000000#64
  | .SCHED_NEXT => 0x3F80000000000000#64
  | .LNK_DEGRADE_THR => 0x1000#64
  | .COL_PACE => 0x2580014#64
  | .EPOCH_NEXT_SEC => 0x3B9ACA00#64
  | .GOV_CTL => 0x3210A1E096096#64
  | .GOV_TJ => 0x64#64
  | .GOV_TAG => 0x344C#64
  | .CLK_DIE_F => 0x812C258#64
  | .CLK_DIE_V => BitVec.ofNat 64 (620 + (550 + (Config.dieTrim i).val) * 2 ^ 10 + (Config.dieTrim i).val * 2 ^ 20)
  | .CLK_DROOP_THR => 0x8#64
  | .GATE_WINDOW => 0x2710#64
  | .GATE_PWR_CEIL => 0x67205DC#64
  | .GATE_SHED => 0x384#64
  | .GATE_TRIP => 0x6E69#64
  | .GATE_LINK_MASK => 0xFFFFFFFFFFFF#64
  | .GATE_WDOG => 0x64#64
  | .GATE_STAT => 0x1#64
  | .MBX_CMD_CFG => BitVec.ofNat 64 (0x3FF0000 + i * 16)
  | .MBX_EVT_CFG => 0xFFFFFFFF00000000#64
  | .TILE_TAINT_LO => 0xFFFFFFFFFFFF#64
  | .ERR_SCAN_CFG => 0x64100F0#64
  | .TILE_PMC_TAGS => 0xFFFF#64
  | .PCIE_BAR2_SIZE => 0x9#64
  | _ => 0#64

/-- A register of the map: its BAR0 offset and its reset value. -/
structure Reg where
  off : Nat
  rst : Word
  deriving DecidableEq, Repr

/-- Register n with its indices. -/
def reg (n : RegName) (i : Nat := 0) (j : Nat := 0) : Reg :=
  ⟨(regInfo n).base + i * (regInfo n).s1 + j * (regInfo n).s2, regReset n i⟩

/-- Registers of the block at 0x0 (R12). -/
def gateRegs : List RegName :=
  [.GATE_LOCK, .GATE_WINDOW, .GATE_PWR_CEIL, .GATE_SHED, .GATE_TRIP, .GATE_LINK_MASK, .GATE_LANE_RATE, .GATE_WDOG, .GATE_POLICY, .GATE_CFG_PIN, .GATE_DIGEST, .GATE_DIGEST_VALID] ++
  [.GATE_STAT, .GATE_CFG_DIGEST, .GATE_CHECK_ERR, .GATE_IMG_DIGEST, .GATE_GL_REFUSED, .GATE_LINK_BLOCKED, .GATE_PWR_CLAMPS, .GATE_TRIPS, .GATE_WDOG_MISS, .GATE_IMG_REFUSED, .GATE_COX_RESTARTS]

/-- Registers of the block at 0x10000 (R12). -/
def mbxRegs : List RegName :=
  [.CG_STATE, .CG_COUNT, .CG_PAGES, .CG_EPOCH, .SHR_BASE, .SHR_TWIN, .SHR_SIZE, .MBX_CMD_BASE, .MBX_CMD_CFG, .MBX_CMD_HEAD, .MBX_CMD_STAT, .MBX_CPL_BASE] ++
  [.MBX_CPL_CFG, .MBX_CPL_TAIL, .MBX_CPL_OVF, .MBX_CMD_DB, .MBX_CPL_DB, .MBX_STAT, .MBX_EVT_CFG, .MBX_ASSIST, .MBX_CMDS, .MBX_LATE, .PCIE_LINK, .PCIE_BAR2_BASE] ++
  [.PCIE_BAR2_SIZE, .PCIE_ERR, .MGMT_STAT, .FLASH_STAT, .FLASH_ERR]

/-- Registers of the block at 0x20000 (R12). -/
def epochRegs : List RegName :=
  [.EPOCH_NOW, .EPOCH_NEXT_SEC, .EPOCH_STAT, .EPOCH_PPS_LAST, .EPOCH_PPS_ERR, .EPOCH_RATE, .EPOCH_STEPS, .EPOCH_OUTLIERS, .EPOCH_SET, .EPOCH_FREEZE_AT, .EPOCH_FREEZE_CTL, .EPOCH_ERR]

/-- Registers of the block at 0x30000 (R12). -/
def clkRegs : List RegName :=
  [.CLK_LOCK, .CLK_UNLOCK, .CLK_AVS, .CLK_DIE_F, .CLK_DIE_V, .CLK_DROOP_THR, .CLK_STRETCH_CNT, .CLK_STRETCH_EVT, .CLK_DROOP_REGION]

/-- Registers of the block at 0x40000 (R12). -/
def govRegs : List RegName :=
  [.GOV_CTL, .GOV_BUDGET, .GOV_PWR, .GOV_STATE, .GOV_TJ, .GOV_RAMP_EXCEED, .GOV_SHED_EVENTS, .GOV_MIRROR, .GOV_ERR, .GOV_TAG, .GOV_TAG_BUDGET, .GOV_TAG_FIX] ++
  [.GOV_FCAST_EPOCH, .GOV_FCAST]

/-- Registers of the block at 0x80000 (R12). -/
def bltRegs : List RegName :=
  [.TSC_SCALE, .TSC_NEXT, .TSC_AMAX, .TSC_CTL, .TSC_MIRROR, .TSC_ADV, .TSC_ADV_EPOCH, .TSC_ERR, .BLT_ZERO, .BLT_SAT, .BLT_NONFIN, .BLT_TOTAL] ++
  [.BLT_THR, .BLT_SPILL, .BLT_GUARD, .BLT_EVT, .GUARD_RETRIES, .GUARD_WIDENS, .GUARD_SILL_OVF, .GUARD_STOPS, .GUARD_ERR, .BLT_LAYER]

/-- Registers of the block at 0x100000 (R12). -/
def pmcRegs : List RegName :=
  [.PMC_CTL, .PMC_FREEZE_SEQ, .PMC_FREEZE_EPOCH, .PMC_FREEZE_NOW, .PMC_SAMPLE, .PMC_SRING, .PMC_SRING_WR, .PMC_SRING_RD, .PMC_SAMPLE_DROP, .PMC_STK_SLOT, .PMC_LNK_VC, .PMC_DEV_SNAP]

/-- Registers of the block at 0x200000 (R12). -/
def stkRegs : List RegName :=
  [.STK_ID, .STK_CLASS, .STK_WCB, .STK_TEMP, .STK_T_WARM, .STK_T_HOT, .STK_T_CRIT, .STK_CE, .STK_UE, .STK_ERR, .STK_ERR_ADDR, .STK_ROWCE] ++
  [.STK_SCRUB, .STK_REMAPS, .STK_SPARE_MIN, .STK_PAGES_RET, .STK_PC_RET, .STK_RD_LINES, .STK_WR_LINES, .STK_RMW, .STK_C0_LATE, .MEM_LOC_BASE, .MEM_LOC_SIZE, .MEM_RESERVE] ++
  [.STK_BN_STAT, .STK_BN_PASSES, .STK_BN_ABSENT, .STK_BN_BUSY, .STK_BN_ERR, .STK_BN_ERR_ADDR]

/-- Registers of the block at 0x300000 (R12). -/
def lnkRegs : List RegName :=
  [.LNK_CTL, .LNK_STAT, .LNK_PEER, .LNK_TX_FLITS, .LNK_RX_FLITS, .LNK_CRC_ERR, .LNK_REPLAYS, .LNK_ACK_LAPSE, .LNK_FEC_CORR, .LNK_FEC_UNCORR, .LNK_LANE_SYM, .LNK_DEGRADE_THR] ++
  [.LNK_PACE_DROP, .LNK_ERR, .LNK_DOWN_EPOCH, .FAB_COORD, .FAB_NOROUTE, .FAB_DUP, .FAB_DETOURS, .FAB_ROUTE]

/-- Registers of the block at 0x400000 (R12). -/
def colRegs : List RegName :=
  [.COL_STAGE, .COL_STAT, .COL_SEGS, .COL_SAT, .COL_SILENT, .COL_ERR, .COL_COMM, .COL_PACE, .COL_PACE_AMAX, .COL_PACE_SENT, .COL_PACE_LOST]

/-- Registers of the block at 0x500000 (R12). -/
def schedRegs : List RegName :=
  [.SCHED_CTL, .SCHED_ADV, .SCHED_PEND, .SCHED_STEP, .SCHED_STEP_NEXT, .SCHED_ORIGIN, .SCHED_LR, .SCHED_NEXT, .SCHED_POS, .SCHED_ERR, .SCHED_SEG_A, .SCHED_SEG_B]

/-- Registers of the block at 0x600000 (R12). -/
def errRegs : List RegName :=
  [.ERR_HEAD, .ERR_COUNT, .ERR_SCAN_CFG, .ERR_SCAN_POS, .ERR_QUAR_BASE, .ERR_QUAR_USED, .ERR_DIE_LOST, .ERR_PORT_LOST]

/-- Registers of the block at 0x1000000 (R12). -/
def tileRegs : List RegName :=
  [.TILE_ID, .TILE_MAP, .TILE_STATE, .TILE_SRAM_CE, .TILE_SRAM_UE, .TILE_SRAM_ERR, .TILE_SRAM_UE_ADDR, .TILE_MESH_CE, .TILE_SCRUB, .TILE_SEQ_CODE, .TILE_SEQ_CODE_TAG, .TILE_SEQ_STATE] ++
  [.TILE_SEQ_FAULT, .TILE_SEQ_FAULT_ADDR, .TILE_SEQ_DISPATCHED, .TILE_SEQ_FAULTS, .TILE_ARR_GROUPS, .TILE_F_BUSY, .TILE_GX_BUSY, .TILE_GW_BUSY, .TILE_DRAIN_ROWS, .TILE_DRAIN_HELD, .TILE_ARR_FAULT, .TILE_VEC_BUSY] ++
  [.TILE_VEC_FAULT, .TILE_FP6_LOW, .TILE_TSC_WAIT, .TILE_TSC_MISS, .TILE_FLOG, .TILE_FLOG_CNT, .TILE_GUARD_STOP, .TILE_ZSKIP, .TILE_DQ_CFG, .TILE_DQ_STAT, .TILE_DQ_PUSHED, .TILE_DQ_REFUSED] ++
  [.TILE_STEALS, .TILE_STOLEN, .TILE_STEAL_MISS, .TILE_DQ_ERR, .TILE_RES_DP, .TILE_RES_CHK, .TILE_RES_ADJ, .TILE_RES_24H, .TILE_SCAN_LAST, .TILE_SCAN_STAT, .TILE_TAINT_FLAGS, .TILE_TAINT_LO] ++
  [.TILE_TAINT_HI, .TILE_TAINT, .TILE_PMC_SEL, .TILE_PMC_TAGS, .TILE_PMC_OVF, .TILE_PMC_CLR, .TILE_PMC_CTR, .TILE_PMC_SNAP]

/-- The indices of a register at an offset, if the offset is one of its places. -/
def regIndex (n : RegName) (off : Nat) : Option (Nat × Nat) :=
  let r := regInfo n
  if off < r.base then none else
  let d := off - r.base
  if r.c2 = 1 then (if d % r.s1 = 0 && d / r.s1 < r.c1 then some (d / r.s1, 0) else none)
  else
    let i := if r.c1 = 1 then 0 else d / r.s1
    let e := d - i * r.s1
    if i < r.c1 && e % r.s2 = 0 && e / r.s2 < r.c2 then some (i, e / r.s2) else none

/-- The register of a list at an offset. -/
def findReg : List RegName → Nat → Option (RegName × Nat × Nat)
  | [], _ => none
  | n :: ns, off => match regIndex n off with
    | some (i, j) => some (n, i, j)
    | none => findReg ns off

/-- The registers of the block that holds an offset (R12). -/
def blockRegs (off : Nat) : List RegName :=
  if off < 0x10000 then gateRegs else
  if off < 0x20000 then mbxRegs else
  if off < 0x30000 then epochRegs else
  if off < 0x40000 then clkRegs else
  if off < 0x80000 then govRegs else
  if off < 0x100000 then bltRegs else
  if off < 0x200000 then pmcRegs else
  if off < 0x300000 then stkRegs else
  if off < 0x400000 then lnkRegs else
  if off < 0x500000 then colRegs else
  if off < 0x600000 then schedRegs else
  if off < 0x1000000 then errRegs else
  if off < 0x2200000 then tileRegs else []

/-- The register at an aligned BAR0 offset, with its indices (R12, R13). -/
def regAt (off : Nat) : Option (RegName × Nat × Nat) := findReg (blockRegs off) off

/-- The value a register holds. -/
def rget (s : State) (r : Reg) : Word := SMap.get r.rst s.regs r.off

/-- Write a register's value. -/
def rset (r : Reg) (v : Word) (s : State) : State := { s with regs := SMap.put r.rst s.regs r.off v }

/-- A field of a register. -/
def rbits (s : State) (r : Reg) (hi lo : Nat) : Nat := bits (rget s r) hi lo

/-- Write a field of a register. -/
def rsetBits (r : Reg) (hi lo : Nat) (v : Nat) (s : State) : State := rset r (setBits (rget s r) hi lo v) s

/-- Set one bit of a register. -/
def rsetBit (r : Reg) (i : Nat) (b : Bool) (s : State) : State := rset r (setBit (rget s r) i b) s

/-- Add to the counter in the low `w` bits of a register, which wraps (R10). -/
def rcount (r : Reg) (w : Nat) (n : Nat) (s : State) : State := rsetBits r (w - 1) 0 (rbits s r (w - 1) 0 + n) s

end Sys2Proof.Machine
end

