-- ==== Sys2Proof/Machine/Ops.lean ====
section
/-! DEFINITION. Named operations over the state: tiles and their registers, counters, event records (R410), completion
frames (R375 to R378), message-signalled interrupts (R428), device state (R366, R368). -/

namespace Sys2Proof.Machine
open Sys2Proof

/-- What a command answers. -/
abbrev Out := Host.Outcome State Fault Refusal

/-! ### Tiles -/

/-- Logical tiles of the device (R14). -/
def numTiles : Nat := 1152

/-- Logical tile t. -/
def tileOf (s : State) (t : Nat) : Tile := SMap.get {} s.tiles t

/-- Replace logical tile t. -/
def setTile (t : Nat) (x : Tile) (s : State) : State := { s with tiles := SMap.put {} s.tiles t x }

/-- Change logical tile t. -/
def modTile (t : Nat) (f : Tile → Tile) (s : State) : State := setTile t (f (tileOf s t)) s

/-- Die of a logical tile (R14). -/
def dieOfTile (t : Nat) : Nat := t / 288

/-- Logical grid position (R204). -/
def gridX (t : Nat) : Nat := ((t / 288) % 2) * 24 + t % 24
def gridY (t : Nat) : Nat := (t / 576) * 12 + (t % 288) / 24

/-- Logical distance (R204). -/
def gridDist (a b : Nat) : Nat :=
  (gridX a - gridX b) + (gridX b - gridX a) + ((gridY a - gridY b) + (gridY b - gridY a))

/-- TILE_STATE[i] [2:0] (R45): 0 IN_SERVICE, 1 DRAINING, 2 MAP_HOLD, 3 SCAN, 4 ABSENT. -/
def tileState (s : State) (t : Nat) : Nat := rbits s (reg .TILE_STATE t) 2 0
/-- A heat-slice member (R45, R218). -/
def isHeat (s : State) (t : Nat) : Bool := bit (rget s (reg .TILE_STATE t)) 3
def setTileState (t v : Nat) (s : State) : State := rsetBits (reg .TILE_STATE t) 2 0 v s

/-- Scalar register: s0 reads 0 (R46). -/
def Tile.sr (x : Tile) (n : Nat) : Word := if n = 0 then 0#64 else SMap.get 0#64 x.s n
/-- Write a scalar register: a write of s0 is discarded (R46). -/
def Tile.setS (x : Tile) (n : Nat) (v : Word) : Tile := if n = 0 then x else { x with s := SMap.put 0#64 x.s n v }
/-- Address register. -/
def Tile.ar (x : Tile) (n : Nat) : Word := SMap.get 0#64 x.a n
def Tile.setA (x : Tile) (n : Nat) (v : Word) : Tile := { x with a := SMap.put 0#64 x.a n v }
/-- The address in an address register: bits [47:0] (R46). -/
def Tile.addr (x : Tile) (n : Nat) : Nat := bits (x.ar n) 47 0
/-- Predicate register: p0 reads 1 (R46). -/
def Tile.pr (x : Tile) (n : Nat) : Bool := if n = 0 then true else SMap.get false x.p n
/-- Write a predicate register: a write of p0 is discarded (R46). -/
def Tile.setP (x : Tile) (n : Nat) (v : Bool) : Tile := if n = 0 then x else { x with p := SMap.put false x.p n v }
/-- Sync counter (R46). -/
def Tile.kr (x : Tile) (n : Nat) : Nat := SMap.get 0 x.k n
def Tile.setK (x : Tile) (n : Nat) (v : Nat) : Tile := { x with k := SMap.put 0 x.k n v }

/-- Vector lane l of register v (R112). -/
def Tile.lane (x : Tile) (v l : Nat) : Half := SMap.get 0#32 x.v (v * 64 + l)

/-! ### The work descriptor (R198) -/
def dEntry (ws : List Word) : Nat := bits (nth 0#64 ws 0) 17 0
def dAffinity (ws : List Word) : Nat := bits (nth 0#64 ws 0) 19 18
def dRadius (ws : List Word) : Nat := bits (nth 0#64 ws 0) 22 20 + 1
def dGroup (ws : List Word) : Nat := bits (nth 0#64 ws 0) 39 24
def dTag (ws : List Word) : Nat := bits (nth 0#64 ws 0) 43 40
def dSeq (ws : List Word) : Nat := bits (nth 0#64 ws 0) 63 48
def dDepOff (ws : List Word) : Nat := bits (nth 0#64 ws 1) 19 0
def dDepEn (ws : List Word) : Bool := bit (nth 0#64 ws 1) 20
def dDepVal (ws : List Word) : Nat := bits (nth 0#64 ws 1) 63 32

/-- A malformed descriptor (R199): the dependency offset is checked where the dependency is enabled, its alignment with it (log 12). -/
def dMalformed (ws : List Word) : Bool :=
  let w0 := nth 0#64 ws 0
  let w1 := nth 0#64 ws 1
  dAffinity ws == 3 || bit w0 23 || bits w0 47 44 != 0 || (dAffinity ws != 1 && bits w0 22 20 != 0) || bits w1 31 21 != 0 ||
  (dDepEn ws && (decide (dDepOff ws < 0x80000) || decide (0xC0000 ≤ dDepOff ws) || dDepOff ws % 8 != 0))

/-! ### Time -/

/-- The epoch counter (R326). -/
def epoch (s : State) : Word := rget s (reg .EPOCH_NOW)

/-- 24 hours in ns. -/
def dayNs : Nat := 86400000000000

/-- What a copy of the counter shows that lags it by 10 ns and between 2 and 3 cycles of `num`/`den` ns of its domain (R327). -/
def epochCopy (s : State) (num den r : Nat) : Word :=
  let lo := 10 + ceilDiv (2 * num) den
  let hi := max lo (10 + 3 * num / den)
  BitVec.ofNat 64 ((epoch s).toNat - (lo + r % (hi + 1 - lo)))

/-- The copy of the cox, 800 MHz, from which records and frames are stamped (R323, R327). -/
def coxEpoch (s : State) : Word := epochCopy s 5 4 0
/-- The copy of a die's link transmitters, 1.328125 GHz (R323, R327). -/
def linkEpoch (s : State) : Word := epochCopy s 64 85 0
/-- The copy of die d's tile domain, its cycle longer in a catch stretch (R323, R327, R353). -/
def dieEpoch (s : State) (d : Nat) : Word :=
  let f := max 1 (rbits s (reg .CLK_DIE_F d) 10 0)
  let k := if (SMap.get {} s.gov.dies d).stretch then 13 else 10
  epochCopy s (100 * k) f (Config.copyLag d (epoch s).toNat)

/-- The step number S, delivered to every tile at each advance (R159, R264). -/
def stepOf (s : State) : Nat := rbits s (reg .SCHED_STEP) 47 0

/-- A deferred register's value in force (R158, R185). -/
def effReg (s : State) (r : Reg) : Word := SMap.get r.rst s.blt.eff r.off

/-- The next free value. -/
def takeFresh (s : State) : Word × State := (Config.freeWord s.fresh, { s with fresh := s.fresh + 1 })

/-! ### Device state (R366, R368) -/

def DevState.code : DevState → Nat
  | .off => 0 | .dry => 1 | .moored => 2 | .rigged => 3 | .underway => 4 | .easy => 5 | .hold => 6

/-- Outputs-enable: valid asserted, check passed, no trip, not in HOLD (R366). -/
def outputsOn (s : State) : Bool := s.gate.coxValid && s.gate.checkOk && !s.gate.trip && s.gate.st != .hold

/-- Tiles, links and jobs make progress: outputs-enable is 1 and no work is frozen (R366, R369). -/
def running (s : State) : Bool := outputsOn s && !s.gate.frozen

/-- The device is powered and its cox serves rings (R388): any state but OFF and DRY. -/
def isUp (s : State) : Bool := s.gate.st != .off && s.gate.st != .dry

/-- Die d is lost (R408). -/
def dieGone (s : State) (d : Nat) : Bool := bit (rget s (reg .ERR_DIE_LOST)) d

/-- ASSIST_MASK bit in force (R384). -/
def assist (s : State) (k : Nat) : Bool := bit (rget s (reg .MBX_ASSIST)) k

/-! ### Message-signalled interrupts (R428) -/

/-- Table word j (0 address, 1 data and vector control) of vector v: BAR0 0x001_1000 + 16 v. Vectors are masked at reset (log 4). -/
def msixReg (v j : Nat) : Reg := ⟨0x11000 + v * 16 + j * 8, if j = 0 then 0#64 else 0x100000000#64⟩

/-- The vector's mask bit. -/
def msixMasked (s : State) (v : Nat) : Bool := bit (rget s (msixReg v 1)) 32

/-- Send or merge the message of a vector: one message per vector per 2 µs (R375), a masked vector turns pending (R428). -/
def msixRaise (v : Nat) (s : State) : State :=
  if msixMasked s v then { s with ports := { s.ports with msixPend := SMap.put false s.ports.msixPend v true } }
  else if SMap.get false s.ports.msixHold v then
    { s with ports := { s.ports with msixMerged := SMap.put false s.ports.msixMerged v true } }
  else { s with ports := { s.ports with
      msixSent := SMap.put 0 s.ports.msixSent v (SMap.get 0 s.ports.msixSent v + 1)
      msixHold := SMap.put false s.ports.msixHold v true } }

/-! ### ERRLOG and event records (R410, R411) -/

/-- Entries of the ERRLOG ring (R411). -/
def errEntries : Nat := 163776

/-- Write one 64-byte entry at ERR_HEAD (R411). -/
def errWrite (ws : List Word) (s : State) : State :=
  let h := rbits s (reg .ERR_HEAD) 17 0
  let s := { s with rec_ := { s.rec_ with log := SMap.set s.rec_.log h ws } }
  rcount (reg .ERR_COUNT) 48 1 (rset (reg .ERR_HEAD) (BitVec.ofNat 64 ((h + 1) % errEntries)) s)

/-- Severity of an event code and its Data A (R410). -/
def severity (code a : Nat) : Nat :=
  let b0 := a % 256
  let b1 := (a / 256) % 256
  if code = 0x0101 then (if b1 = 6 then 1 else 0)
  else if code = 0x0602 then (if b0 = 1 then 1 else 3)
  else if code = 0x0604 then (if b1 = 0 then 0 else 1)
  else if code = 0x0701 then (if b1 = 3 then 0 else 1)
  else if [0x0202, 0x0203, 0x0204, 0x0302, 0x0404, 0x0405, 0x0603, 0x0702, 0x0703, 0x0801, 0x0A01, 0x0B01, 0x0C01, 0x0C02].contains code then 1
  else if [0x0303, 0x0401, 0x0402, 0x0501, 0x0601].contains code then 2
  else if [0x0304, 0x0406, 0x0D01, 0x0D02].contains code then 3
  else 0

/-- Words 0 to 3 of a record (R410). -/
def recordWords (s : State) (code die src : Nat) (a b : Word) : List Word :=
  [BitVec.ofNat 64 (code % 65536 + severity code a.toNat * 2 ^ 16 + (die % 256) * 2 ^ 24 + (src % 2 ^ 32) * 2 ^ 32), coxEpoch s, a, b]

/-- Carry a record to the management port: sent where a receiver is set, else buffered; on overflow the newest stay (R410, R434). -/
def portPush (ws : List Word) (s : State) : State :=
  if bit (rget s (reg .MGMT_STAT)) 16 then { s with rec_ := { s.rec_ with sent := s.rec_.sent ++ [ws] } }
  else if s.rec_.port.length < 256 then { s with rec_ := { s.rec_ with port := s.rec_.port ++ [ws] } }
  else rcount (reg .ERR_PORT_LOST) 48 1 { s with rec_ := { s.rec_ with port := s.rec_.port.drop 1 ++ [ws] } }

/-- An asynchronous record is lost (R396); the count wraps (R10). -/
def lostAsync (ring : Nat) (s : State) : State := rsetBits (reg .MBX_CPL_OVF ring) 63 48 (rbits s (reg .MBX_CPL_OVF ring) 63 48 + 1) s

/-- Queue the two frames of an asynchronous record for a ring: 64 bytes a record, 64 KiB in all (R375, R383). -/
def asyncQueue (ring : Nat) (ws : List Word) (s : State) : State :=
  if s.cox.async.length < 1024 then { s with cox := { s.cox with async := s.cox.async ++ [(ring, ws)] } }
  else lostAsync ring s

/-- An event with the extension of its entry: ERRLOG entry, push on the management port unless it is an access record, frames where MBX_EVT_CFG enables its class (R410, R383). -/
def eventX (code die src : Nat) (a b : Word) (ext : List Word) (s : State) : State :=
  let ws := recordWords s code die src a b
  let idx := rbits s (reg .ERR_HEAD) 17 0
  let e := rget s (reg .MBX_EVT_CFG)
  let ep := coxEpoch s
  let s := errWrite (ws ++ ext) s
  let s := if code / 256 = 0x0F then s else portPush ws s
  if bit e 3 && bit e (32 + (code / 256) % 32) then
    asyncQueue (bits e 2 0)
      [BitVec.ofNat 64 (0x21 * 2 ^ 16 + 2 ^ 25 + 2 ^ 27), BitVec.ofNat 64 ((code % 65536 + severity code a.toNat * 2 ^ 16 + (die % 256) * 2 ^ 24) * 2 ^ 32), a, ep,
       BitVec.ofNat 64 (0x21 * 2 ^ 16 + 2 ^ 25), BitVec.ofNat 64 ((src % 2 ^ 32) * 2 ^ 32), b, BitVec.ofNat 64 idx] s
  else s

/-- An event whose entry has no extension (R410, R411). -/
def event (code die src : Nat) (a b : Word) (s : State) : State := eventX code die src a b [0#64, 0#64, 0#64, 0#64] s

/-- Source code of a requester (R410). -/
def Req.code : Req → Nat
  | .host => 0
  | .cox => 0x1000
  | .tile t => 0x2000 + t % 4096
  | .put d => 0x3000 + d % 4096
  | .mgmt => 0x4000
  | .engine => 0x5000

def w64 (n : Nat) : Word := BitVec.ofNat 64 n

/-- Access records of class 0x0F (R410). -/
def recBadAccess (r : Req) (addr len : Nat) (write : Bool) (s : State) : State :=
  event 0x0F01 0xFF (Req.code r) (w64 (addr % 2 ^ 48)) (w64 (len % 256 + b2n write * 256)) s
def recGlWrite (r : Req) (off : Nat) (v : Word) (s : State) : State :=
  event 0x0F02 0xFF (Req.code r) (w64 (off % 65536)) v s
def recUnmapped (r : Req) (addr : Nat) (write : Bool) (s : State) : State :=
  event 0x0F03 0xFF (Req.code r) (w64 (addr % 2 ^ 48)) (w64 (b2n write * 256)) s
def recDiscarded (r : Req) (addr t : Nat) (s : State) : State :=
  event 0x0F04 (dieOfTile t) (Req.code r) (w64 (addr % 2 ^ 48)) (w64 (t % 2048)) s
def recRegRefused (r : Req) (off : Nat) (v : Word) (s : State) : State :=
  event 0x0F08 0xFF (Req.code r) (w64 (off % 2 ^ 48)) v s
def recOther (r : Req) (rule : Nat) (v : Word) (s : State) : State :=
  event 0x0FFF 0xFF (Req.code r) (w64 rule) v s

/-! ### Device state changes -/

/-- Enter a device state and record the transition with its cause (R368, R410). -/
def setDev (new : DevState) (cause : Nat) (s : State) : State :=
  let old := s.gate.st
  let s := { s with gate := { s.gate with st := new } }
  event 0x0101 0xFF 0 (w64 (old.code + new.code * 256 + cause * 65536)) 0#64 s

/-- RIGGED moves to UNDERWAY when work is accepted (R368), but not while frozen work waits for the run command (R369). -/
def workAccepted (s : State) : State :=
  if s.gate.st = .rigged && !s.gate.frozen then setDev .underway 19 s else s

/-- Entering HOLD from UNDERWAY or EASY freezes the work (R368, R369). -/
def enterHold (cause : Nat) (s : State) : State :=
  let fr := s.gate.frozen || s.gate.st = .underway || s.gate.st = .easy
  let s := setDev .hold cause s
  { s with gate := { s.gate with cause := cause, frozen := fr } }

/-! ### Completion frames (R373 to R378) -/

/-- Frames of a ring whose size field is n (R396); a size value of 7 acts as 6 (log 10). -/
def ringFrames (n : Nat) : Nat := 2 ^ (min n 6 + 6)

def cplFrames (s : State) (c : Nat) : Nat := ringFrames (rbits s (reg .MBX_CPL_CFG c) 2 0)
def cplEnabled (s : State) (c : Nat) : Bool := bit (rget s (reg .MBX_CPL_CFG c)) 16

/-- The completion ring of a command ring (R396). -/
def cplOf (s : State) (ring : Nat) : Nat := rbits s (reg .MBX_CMD_CFG ring) 6 4

/-- The completion ring has a slot that the host has freed (R375). -/
def cplHasSlot (s : State) (c : Nat) : Bool := decide (SMap.get 0 s.cox.cplUsed c < cplFrames s c)

/-- Write one frame at the tail with the phase of this pass, advance, and send the vector's message where due (R375). -/
def cplWrite (c : Nat) (f : CplFrame) (s : State) : State :=
  let tl := rbits s (reg .MBX_CPL_TAIL c) 11 0
  let ph := !(SMap.get false s.cox.phase c)
  let w0 := setBit (nth 0#64 f.words 0) 24 ph
  let nx := (tl + 1) % cplFrames s c
  let vec := rbits s (reg .MBX_CPL_CFG c) 13 8
  let s := { s with cox := { s.cox with
      slots := SMap.set s.cox.slots (c * 4096 + tl) (w0 :: f.words.drop 1)
      phase := if nx = 0 then SMap.put false s.cox.phase c (!(SMap.get false s.cox.phase c)) else s.cox.phase
      cplUsed := SMap.put 0 s.cox.cplUsed c (SMap.get 0 s.cox.cplUsed c + 1) } }
  let s := rset (reg .MBX_CPL_TAIL c) (w64 nx) s
  if f.irq then msixRaise vec s else s

/-- A frame due for a completion ring: held where the ring is full or unregistered by a PCIe reset and while the cox switches, dropped and counted
where the host disabled it, else written (R372, R375, R382). -/
def cplPost (c : Nat) (f : CplFrame) (s : State) : State :=
  let heldL := SMap.get [] s.cox.held c
  if !cplEnabled s c then
    if SMap.get false s.cox.unreg c then { s with cox := { s.cox with held := SMap.put [] s.cox.held c (heldL ++ [f]) } }
    else
      if f.async then lostAsync c s else rcount (reg .MBX_CPL_OVF c) 48 1 s
  else if heldL.isEmpty && cplHasSlot s c && s.gate.switching.isNone then cplWrite c f s
  else { s with cox := { s.cox with held := SMap.put [] s.cox.held c (heldL ++ [f]) } }

/-- Write held frames while there is space and no switch runs (R372, R375), at most n of them. -/
def cplFlush (c : Nat) : Nat → State → State
  | 0, s => s
  | n + 1, s =>
    if s.gate.switching.isSome then s else
    match SMap.get [] s.cox.held c with
    | [] => s
    | f :: fs =>
      if cplEnabled s c && cplHasSlot s c then
        cplFlush c n (cplWrite c f { s with cox := { s.cox with held := SMap.put [] s.cox.held c fs } })
      else s

/-- Status codes (R378). -/
def stOK : Nat := 0x00
def stACCEPTED : Nat := 0x01
def stPARTIAL : Nat := 0x02
def stCHECK : Nat := 0x03
def stPOISON : Nat := 0x04
def stGROUP_ABORTED : Nat := 0x08
def stABORTED : Nat := 0x09
def stUNREACHABLE : Nat := 0x0A
def stSTACK_LOST : Nat := 0x0B
def stUNKNOWN_OPCODE : Nat := 0x10
def stREFUSED_FORM : Nat := 0x11
def stREFUSED_ADDR : Nat := 0x12
def stREFUSED_MODE : Nat := 0x13
def stREFUSED_STATE : Nat := 0x14
def stREFUSED_PERM : Nat := 0x15
def stREFUSED_CHECK : Nat := 0x16
def stREFUSED_GATE : Nat := 0x17
def stQUEUE_FULL : Nat := 0x18
def stIMAGE_REFUSED : Nat := 0x19

/-- The four words of a completion frame, phase left 0 (R377). -/
def frameWords (s : State) (r : CmdRef) (status detail : Nat) (result : Word) : List Word :=
  [w64 (bits r.w0 15 0 + status * 2 ^ 16 + (if status = stACCEPTED then 2 ^ 26 else 0) + bits r.w0 63 32 * 2 ^ 32),
   w64 (r.ring % 16 + (r.slot % 4096) * 16 + (detail % 2 ^ 32) * 2 ^ 32), result, coxEpoch s]

/-- A command that posts its one frame only when an event ends it, STEP_ADV (R264, R393). -/
def CmdRef.isAdv (r : CmdRef) : Bool := bits r.w0 15 0 == 0x0600

/-- Commands of a ring whose frame is outstanding and comes before that of any later command (R379). -/
def framesAhead (s : State) (ring : Nat) : Nat := (s.cox.running.filter (fun q => q.ring == ring && q.isAdv)).length

/-- The frame of a command, formed now (R376, R377). -/
def cmdFrame (s : State) (r : CmdRef) (status detail : Nat) (result : Word) : CplFrame :=
  { words := frameWords s r status detail result, irq := bit r.w0 17 }

/-- A frame waits for its place in the ring order (R379). -/
def orderFrame (r : CmdRef) (behind : Nat) (f : CplFrame) (s : State) : State :=
  { s with cox := { s.cox with order := s.cox.order ++ [{ ref := r, behind := behind, frame := f }] } }

/-- Post the first frame of a command, in the order of its ring (R379): the quiet flag drops a final OK (R376 to R378). -/
def postFrame (r : CmdRef) (status detail : Nat) (result : Word) (s : State) : State :=
  if status = stOK && bit r.w0 18 then s
  else if framesAhead s r.ring = 0 then cplPost (cplOf s r.ring) (cmdFrame s r status detail result) s
  else orderFrame r (framesAhead s r.ring) (cmdFrame s r status detail result) s

/-- ACCEPTED: the command runs on and posts its final frame later (R378). -/
def acceptCmd (r : CmdRef) (result : Word) (s : State) : State :=
  postFrame r stACCEPTED 0 result { s with cox := { s.cox with running := s.cox.running ++ [r] } }

/-- A frame ahead in a ring has been posted: those that waited for it alone follow, in order (R379). -/
def releaseOrder (ring : Nat) (s : State) : State :=
  let l := s.cox.order.map (fun o => if o.ref.ring == ring then { o with behind := o.behind - 1 } else o)
  (l.filter (fun o => o.behind == 0)).foldl (fun s o => cplPost (cplOf s o.ref.ring) o.frame s)
    { s with cox := { s.cox with order := l.filter (fun o => o.behind != 0) } }

/-- Post the later frame of a command: behind its own first frame where that still waits (R379). -/
def postFinal (r : CmdRef) (f : CplFrame) (s : State) : State :=
  match s.cox.order.find? (fun o => o.ref == r) with
  | some o => orderFrame r o.behind f s
  | none => cplPost (cplOf s r.ring) f s

/-- The command no longer runs. -/
def dropRunning (r : CmdRef) (s : State) : State := { s with cox := { s.cox with running := s.cox.running.erase r } }

/-- The final frame of a running command (R378); after that of STEP_ADV the frames behind it follow (R379). -/
def finishCmd (r : CmdRef) (status detail : Nat) (result : Word) (s : State) : State :=
  let s1 := if status = stOK && bit r.w0 18 then dropRunning r s else postFinal r (cmdFrame s r status detail result) (dropRunning r s)
  if r.isAdv then releaseOrder r.ring s1 else s1

/-- The final frame of a command that an event ends, where one waits. -/
def finishOpt (r : Option CmdRef) (status detail : Nat) (result : Word) (s : State) : State :=
  match r with
  | some r => finishCmd r status detail result s
  | none => s

/-! ### Tile counters (R414) -/

/-- The phase tag of the descriptor a tile runs; a tile with none counts as tag 0 (R414). -/
def tagOf (x : Tile) : Nat :=
  match x.run with
  | some r => bits (nth 0#64 r.words 0) 43 40
  | none => 0

/-- Counter k of a tile counts this event now (R414). -/
def pmcSelects (s : State) (t ev k : Nat) : Bool :=
  let sel := rbits s (reg .TILE_PMC_SEL t) (8 * k + 7) (8 * k)
  sel % 64 == ev && sel / 128 == 1 &&
    ((sel / 64) % 2 == 0 || bit (rget s (reg .TILE_PMC_TAGS t)) (tagOf (tileOf s t)))

/-- Add to one tile counter; a wrap sets its overflow bit (R414). -/
def pmcAdd (t k n : Nat) (s : State) : State :=
  let r := reg .TILE_PMC_CTR t k
  let v := rbits s r 47 0 + n
  let s := rset r (w64 (v % 2 ^ 48)) s
  if v ≥ 2 ^ 48 then rsetBit (reg .TILE_PMC_OVF t) k true s else s

/-- Count an event of a tile on every counter that selects it; counters hold in SCAN (R414). -/
def pmcCount (t ev n : Nat) (s : State) : State :=
  if n = 0 || tileState s t = 3 then s
  else (List.range 8).foldl (fun s k => if pmcSelects s t ev k then pmcAdd t k n s else s) s

end Sys2Proof.Machine
end

