-- ==== Sys2Proof/Machine/Mesh.lean ====
section
/-! DEFINITION. The mesh: positions, routes and channels, what routers count, and flits in error (R17, R32 to R40, R293, R454). -/

namespace Sys2Proof.Machine
open Sys2Proof

/-! ### Positions -/

/-- A physical position: px 0 to 47, py 0 to 25. -/
abbrev Pos := Nat × Nat

/-- Key of a physical position. -/
def posKey (px py : Nat) : Nat := py * 64 + px

/-- Die of a physical position. -/
def dieOfPos (px py : Nat) : Nat := (py / 13) * 2 + px / 24

/-- Droop region of a physical position (R17). -/
def droopRegion (p : Pos) : Nat := dieOfPos p.1 p.2 * 26 + p.2 % 13 * 2 + p.1 % 24 / 12

/-- Physical position of a logical tile (R29, R45). -/
def physPos (s : State) (t : Nat) : Pos :=
  let m := rget s (reg .TILE_MAP t)
  (bits m 5 0, bits m 12 8)

/-- The logical tile that a position serves. -/
def tileAt (s : State) (p : Pos) : Option Nat := (List.range numTiles).find? (fun t => physPos s t == p)

/-- The router forwards straight on and makes no turn (R32). -/
def isPass (s : State) (p : Pos) : Bool := SMap.get false s.passThrough (posKey p.1 p.2)

/-- The edge router of a device agent's row on die 0's west edge (R40), or its standby's on die 2's once die 0 is lost (R408). -/
def westPos (s : State) (row : Nat) : Pos := (0, if dieGone s 0 then 13 + row else row)

/-- The endpoint's port goes by address bit 6 (R454). -/
def endpointPos (s : State) (addr : Nat) : Pos := westPos s (4 + (addr / 64) % 2)
def coxPos (s : State) : Pos := westPos s 6

/-- An edge router of link l: the lower of its two columns on the outer edge of its die (R40). -/
def linkPos (l : Nat) : Pos := ((l / 12 % 2) * 24 + 2 * (l % 12), if l / 12 < 2 then 0 else 25)

/-! ### Channels and routes -/

/-- The six virtual channels (R34). -/
inductive Chan where
  | ctl
  | ctlE
  | req
  | reqE
  | rsp
  | rspE
  deriving DecidableEq, Repr

/-- The escape channel of a class (R34). -/
def Chan.escape : Chan → Chan
  | .ctl | .ctlE => .ctlE
  | .req | .reqE => .reqE
  | .rsp | .rspE => .rspE

/-- Coordinates passed from a to b, a left out. -/
def along (a b : Nat) : List Nat :=
  if a ≤ b then (List.range (b - a)).map (fun i => a + 1 + i) else (List.range (a - b)).map (fun i => a - 1 - i)

/-- Routers from p to q, X then Y, both ends included. -/
def xFirst (p q : Pos) : List Pos := p :: ((along p.1 q.1).map (fun x => (x, p.2)) ++ (along p.2 q.2).map (fun y => (q.1, y)))

/-- Routers from p to q, Y then X. -/
def yFirst (p q : Pos) : List Pos := p :: ((along p.2 q.2).map (fun y => (p.1, y)) ++ (along p.1 q.1).map (fun x => (x, q.2)))

/-- The way from p to q turns, and its turn router makes no turns. -/
def turnBlocked (s : State) (p q turn : Pos) : Bool := p.1 != q.1 && p.2 != q.2 && isPass s turn

/-- Channel and routers of a packet: X then Y on its class, else Y then X on the escape channel (R34). -/
def route (s : State) (c : Chan) (p q : Pos) : Chan × List Pos :=
  if turnBlocked s p q (q.1, p.2) then (c.escape, yFirst p q) else (c, xFirst p q)

/-- Channel and routers of link transit on a detour VC: Y then X on the escape channel, X then Y on it where that turn is shut (R293). -/
def detourRoute (s : State) (c : Chan) (p q : Pos) : Chan × List Pos :=
  (c.escape, if turnBlocked s p q (p.1, q.2) then xFirst p q else yFirst p q)

/-- A coordinate moved into an interval of n from lo. -/
def clampTo (x lo n : Nat) : Nat := if x < lo then lo else if lo + n ≤ x then lo + n - 1 else x

/-- The routers of a request to stack n up to the stop where it enters the stack's lane: its own router on the stack's die, else the first router of
that die on its way, or the next one that is not in pass-through (R39). -/
def stackPath (s : State) (p : Pos) (n : Nat) : List Pos :=
  let d := n / 2
  if dieOfPos p.1 p.2 = d then [p] else
  let x0 := (d % 2) * 24
  let y0 := (d / 2) * 13
  let q : Pos := (clampTo p.1 x0 24, clampTo p.2 y0 13)
  let w := (route s .req p q).2
  let upDown := p.2 != q.2 && ((route s .req p q).1 == .req || p.1 == q.1)
  let on : List Pos := if upDown then (along q.2 (if p.2 < q.2 then y0 + 12 else y0)).map (fun y => (q.1, y))
    else (along q.1 (if p.1 < q.1 then x0 + 23 else x0)).map (fun x => (x, q.2))
  if isPass s q then w ++ on.take (findIdx (fun r => !isPass s r) on + 1) else w

/-- Mesh hops of a path. -/
def hopsOf (w : List Pos) : Nat := w.length - 1

/-! ### Packets on their way -/

/-- Flits of a packet of n data bytes, of at most 256 bytes each (R33). -/
def flitsOf (n : Nat) : Nat := max 1 (ceilDiv n 64)

/-- Tiles whose event selection has been written. -/
def pmcTiles (s : State) : List Nat :=
  s.regs.filterMap (fun e => match regIndex .TILE_PMC_SEL e.1 with
    | some (t, _) => some t
    | none => none)

/-- Count an event of the routers at these positions (R414). -/
def routerCount (ev k : Nat) (ps : List Pos) (s : State) : State :=
  (pmcTiles s).foldl (fun s t => if (List.range 8).any (pmcSelects s t ev) && ps.contains (physPos s t) then pmcCount t ev k s else s) s

/-- A flit reaches the input of a router: an error of one bit is corrected and counted, a worse one poisons the flit (R33, R45). -/
def flitIn (p : Pos) (r : Bool × State) : Bool × State :=
  let e := SMap.get 0 r.2.flitErr (posKey p.1 p.2)
  if e = 0 then r else
  let s := { r.2 with flitErr := SMap.put 0 r.2.flitErr (posKey p.1 p.2) 0 }
  match tileAt s p with
  | some t => if e = 1 then (r.1, rcount (reg .TILE_MESH_CE t) 48 1 s) else (true, rsetBit (reg .TILE_SRAM_ERR t) 8 true s)
  | none => (r.1 || e != 1, s)

/-- A packet of n data bytes goes along a way: flits injected and ejected at the local ports of tiles, flits forwarded (R33, R414); whether an
uncorrectable error met it. -/
def meshSend (w : List Pos) (inj ej : Bool) (n : Nat) (s : State) : Bool × State :=
  if (s.flitErr.isEmpty && (pmcTiles s).isEmpty) || w.length ≤ 1 then (false, s) else
  let s := routerCount 21 (flitsOf n) w.dropLast s
  let s := if inj then routerCount 19 (flitsOf n) (w.take 1) s else s
  let s := if ej then routerCount 20 (flitsOf n) (w.drop (w.length - 1)) s else s
  w.foldl (fun r p => flitIn p r) (false, s)

/-- A request of n bytes from a tile or an edge router to a tile, and the m bytes of its response (R34, R454). -/
def tileTrip (p q : Pos) (fromTile : Bool) (n m : Nat) (s : State) : Bool × State :=
  let a := meshSend (route s .req p q).2 fromTile true n s
  let b := meshSend (route a.2 .rsp q p).2 true fromTile m a.2
  (a.1 || b.1, b.2)

/-- A request of n bytes to a stack and the m bytes of its response, by the mesh to and from the lane stop (R39). -/
def stackTrip (p : Pos) (fromTile : Bool) (st n m : Nat) (s : State) : Bool × State :=
  let w := stackPath s p st
  let a := meshSend w fromTile false n s
  let b := meshSend (route a.2 .rsp ((w.getLast?).getD p) p).2 false fromTile m a.2
  (a.1 || b.1, b.2)

/-- A control packet between two tiles (R34). -/
def ctlTrip (p q : Pos) (n : Nat) (s : State) : Bool × State := meshSend (route s .ctl p q).2 true true n s

end Sys2Proof.Machine
end

