-- ==== Sys2Proof/Machine/Place.lean ====
section
/-! DEFINITION. Where a stack address lies: interleave and local regions (R222 to R225), shadowed regions (R210), the channel that now
serves a granule (R237 to R239), the rows that have shown errors (R234, R240), and the line code's outcomes (R230 to R232). -/

namespace Sys2Proof.Machine
open Sys2Proof

/-! ### Where a stack address lies -/

/-- First address beyond stack memory, 384 GiB (R12). -/
def stackTop : Nat := 0x6000000000
/-- First address of the retirement reserve (R225). -/
def reserveBase : Nat := 0x5FF8000000
/-- Bytes of a pseudo-channel, 768 MiB (R221). -/
def chanBytes : Nat := 805306368

/-- Bits of a number. -/
def nbits (n hi lo : Nat) : Nat := (n >>> lo) % 2 ^ (hi + 1 - lo)

/-- Replace bits hi..lo of a number. -/
def nsetBits (n hi lo v : Nat) : Nat := n - (nbits n hi lo) * 2 ^ lo + (v % 2 ^ (hi + 1 - lo)) * 2 ^ lo

/-- Local region r holds address a (R224). -/
def inLocal (s : State) (a r : Nat) : Bool :=
  let b := rget s (reg .MEM_LOC_BASE r)
  let p := rbits s (reg .MEM_LOC_SIZE r) 5 0
  bit b 0 && decide (bits b 38 17 * 2 ^ 17 ≤ a) && decide (a < bits b 38 17 * 2 ^ 17 + 8 * 2 ^ p)

/-- The local region that holds an address. -/
def localOf (s : State) (a : Nat) : Option Nat := (List.range 16).find? (fun r => inLocal s a r)

/-- Stack, pseudo-channel and channel byte address of a DPA in stack memory (R223, R224). -/
def interleave (swap : Option Nat) (a : Nat) : Nat × Nat × Nat :=
  let a' := match swap with
    | some p => nsetBits (nsetBits a 10 8 (nbits a (p + 2) p)) (p + 2) p (nbits a 10 8)
    | none => a
  let sl := nbits a' 38 17
  let f := (nbits sl 5 0 ^^^ nbits sl 11 6) ^^^ (nbits sl 17 12 ^^^ nbits sl 21 18)
  let st := match swap with
    | some _ => nbits a' 10 8
    | none => nbits a' 10 8 ^^^ nbits a' 13 11
  (st, nbits a' 16 11 ^^^ f, sl * 256 + nbits a' 7 0)

/-- The interleave under the local regions in force. -/
def stkPlace (s : State) (a : Nat) : Nat × Nat × Nat :=
  interleave ((localOf s a).map (fun r => rbits s (reg .MEM_LOC_SIZE r) 5 0)) a

/-- Physical byte number: (stack × 64 + channel) × 768 MiB + P. -/
def physOf (s : State) (a : Nat) : Nat :=
  let (st, pc, p) := stkPlace s a
  (st * 64 + pc) * chanBytes + p

/-- Stack that holds a physical byte. -/
def physStack (p : Nat) : Nat := p / chanBytes / 64 % 8

/-- Channel page of a physical byte, numbered over the device (R222). -/
def physPage (p : Nat) : Nat := p / 4096

/-- Channel number over the device of a physical byte. -/
def physChan (p : Nat) : Nat := p / chanBytes

/-- Number of the row that holds a physical byte: channel, bank P[13:10], row P[29:14] (R222). -/
def rowKey (ch bank row : Nat) : Nat := (ch * 16 + bank) * 0x10000 + row
def physRow (p : Nat) : Nat := rowKey (physChan p) (nbits (p % chanBytes) 13 10) (nbits (p % chanBytes) 29 14)
def keyChan (k : Nat) : Nat := k / 0x100000
def keyBank (k : Nat) : Nat := k / 0x10000

/-- A row lies in a channel page (R222). -/
def rowInPage (ch page k : Nat) : Bool := keyChan k == ch && k % 0x10000 == page / 4 && (keyBank k % 16) / 4 == page % 4

/-- The DPA that the interleave places at a physical byte (R223, R224 inverted). -/
def unplace (s : State) (p : Nat) : Nat :=
  let st := physStack p
  let pc := physChan p % 64
  let q := p % chanBytes
  let sl := q / 256
  let f := (nbits sl 5 0 ^^^ nbits sl 11 6) ^^^ (nbits sl 17 12 ^^^ nbits sl 21 18)
  let mid := sl * 2 ^ 17 + (pc ^^^ f) * 2 ^ 11 + q % 256
  let plain := nsetBits mid 10 8 (st ^^^ nbits mid 13 11)
  let local_ := (List.range 16).findSome? (fun r =>
    let b := rbits s (reg .MEM_LOC_SIZE r) 5 0
    let a' := nsetBits mid 10 8 st
    let a := nsetBits (nsetBits a' 10 8 (nbits a' (b + 2) b)) (b + 2) b (nbits a' 10 8)
    if inLocal s a r then some a else none)
  local_.getD plain

/-! ### Redirected granules (R237 to R239, log 26) -/

/-- First granule of a channel that lies in the reserve, and in the window that the i-th channel retirement withdraws (R225, R238). -/
def reserveGran : Nat := 3144704
def windowGran (i : Nat) : Nat := reserveGran - 6144 * (i + 1)

/-- Channel idx of those in service after retirement i. -/
def liveChan (gone : List Nat) (i idx : Nat) : Nat :=
  nth 0 ((List.range 512).filter (fun c => !(gone.take (i + 1)).contains c)) idx

/-- Where granule b of the i-th retired channel lies: it goes to that retirement's window, row b / (511 − i), one granule of a row on
each channel in service. On a channel retired since, as the j-th, it goes on to a place that retirement j freed. -/
def chanMove (gone : List Nat) : Nat → Nat → Nat → Nat × Nat
  | 0, i, b => (liveChan gone i (b % (511 - i)), windowGran i + b / (511 - i))
  | fuel + 1, i, b =>
    let ch := liveChan gone i (b % (511 - i))
    if gone.contains ch then chanMove gone fuel i (windowGran (findIdx (· == ch) gone) + b / (511 - i)) else (ch, windowGran i + b / (511 - i))

/-- The page that now holds a channel page: the last of its replacements (R237). -/
def pageNow (r : SMap Nat) : Nat → Nat → Nat
  | 0, p => p
  | fuel + 1, p => if SMap.get p r p = p then p else pageNow r fuel (SMap.get p r p)

/-- The physical byte that now serves a physical byte (R239). -/
def servePlace (s : State) (p : Nat) : Nat :=
  if s.stk.redirect.isEmpty && s.stk.gone.isEmpty then p else
  let q := if s.stk.gone.contains (physChan p) then
      let c := chanMove s.stk.gone 64 (findIdx (· == physChan p) s.stk.gone) (p % chanBytes / 256)
      c.1 * chanBytes + c.2 * 256 + p % 256
    else p
  pageNow s.stk.redirect 65 (q / 4096) * 4096 + q % 4096

/-- The stack whose controller serves a physical byte. -/
def serveStack (s : State) (p : Nat) : Nat := physStack (servePlace s p)

/-- A stack is lost (R408). -/
def stackLost (s : State) (n : Nat) : Bool := bit (rget s (reg .ERR_DIE_LOST)) (4 + n)

/-- The stack of a physical byte is lost, or the one that it is redirected to (R239, R408). -/
def placeLost (s : State) (p : Nat) : Bool := stackLost s (physStack p) || stackLost s (serveStack s p)

/-- Stack n stands at its critical step (R241). -/
def stackCritical (s : State) (n : Nat) : Bool := rbits s (reg .STK_TEMP n) 9 8 == 3

/-- The stack of a physical byte stands at its critical step, or the one that it is redirected to (R239, R241). -/
def placeCritical (s : State) (p : Nat) : Bool :=
  stackCritical s (physStack p) || stackCritical s (serveStack s p)

/-- The address lies in stack memory and in no withdrawn granule or window (R12, R237, R238). -/
def stkPresent (s : State) (a : Nat) : Bool :=
  decide (a < stackTop) &&
  !(decide (reserveBase ≤ a + s.stk.gone.length * chanBytes) && decide (a < reserveBase)) &&
  !SMap.get false s.stk.withdrawn (physPage (physOf s a))

/-! ### Shadowed regions (R210) -/

def shrBase (s : State) (r : Nat) : Nat := rbits s (reg .SHR_BASE r) 47 12 * 4096
def shrTwin (s : State) (r : Nat) : Nat := rbits s (reg .SHR_TWIN r) 47 12 * 4096
def shrPages (s : State) (r : Nat) : Nat := rbits s (reg .SHR_SIZE r) 31 0
def shrValid (s : State) (r : Nat) : Bool := bit (rget s (reg .SHR_BASE r)) 0

/-- The shadowed region whose visible range holds an address. -/
def shrOf (s : State) (a : Nat) : Option Nat :=
  (List.range 32).find? (fun r => shrValid s r && decide (shrBase s r ≤ a) && decide (a < shrBase s r + shrPages s r * 4096))

/-- The address of the current backing (R210). -/
def backing (s : State) (other : Bool) (a : Nat) : Nat :=
  match shrOf s a with
  | none => a
  | some r => if SMap.get false s.shadow (a / 4096) != other then shrTwin s r + (a - shrBase s r) else a

/-! ### Rows that have shown errors (R234 to R238, R240) -/

/-- Field spare rows of a bank that are in use or bad. -/
def sparesGone (s : State) (bank : Nat) : List Nat :=
  (List.range 4).filter (fun i => SMap.get false s.stk.badSpare (bank * 4 + i) || s.stk.remap.any (fun e => keyBank e.1 == bank && e.2 == i))

/-- The next free field spare row of a bank. -/
def freeSpareRow (s : State) (bank : Nat) : Option Nat := (List.range 4).find? (fun i => !(sparesGone s bank).contains i)

/-- Pages retired in a channel. -/
def pagesOf (s : State) (ch : Nat) : Nat := SMap.get 0 s.stk.pages ch

/-- A channel is retired (R238). -/
def chanRetired (s : State) (ch : Nat) : Bool := bit (rget s (reg .STK_PC_RET (ch / 64))) (ch % 64)

/-- The page of a channel that replaces its next failing page: counted down from the top, pages that themselves failed left out (R237). -/
def sparePage (s : State) (ch : Nat) : Option Nat :=
  ((List.range 64).map (fun i => 196607 - i)).find? (fun p =>
    !SMap.get false s.stk.withdrawn (ch * 196608 + p) && SMap.get 0 s.stk.redirect (ch * 196608 + p) == 0)

/-- The repair that a failing row calls for (R235, R237, R238): 1 row, 2 page, 3 channel, 0 none left. -/
def repairKind (s : State) (k : Nat) : Nat :=
  if chanRetired s (keyChan k) then 0
  else if (freeSpareRow s (keyBank k)).isSome then 1
  else if pagesOf s (keyChan k) < 64 && (sparePage s (keyChan k)).isSome then 2
  else if s.stk.gone.length < 8 then 3 else 0

/-- Propose the repair of a row in host-assisted mode (R240). -/
def proposeRepair (k : Nat) (s : State) : State :=
  let kind := repairKind s k
  if kind = 0 then s else
  let n := s.cox.propNo + 1
  let st := keyChan k / 64
  let p : Proposal := { num := n, kind := kind, a := st, b := keyChan k % 64, c := keyBank k % 16, d := k % 0x10000 }
  event 0x0603 (st / 2) st (w64 n) (w64 kind) { s with cox := { s.cox with propNo := n, proposals := s.cox.proposals ++ [p] } }

/-- Pseudo-channel and P of a physical byte, as STK_ERR_ADDR shows them (R242). -/
def errAddr (p : Nat) : Nat := physChan p % 64 + (p % chanBytes) * 64

/-- The row of line q, entry `old` of the table, after a read that found `errs` symbols in error in it (R234): a correction of one symbol
counts once a line, from its latest time; a line corrected in two symbols is confirmed by a read that still finds an error, and
dropped by one that finds none. -/
def rowSeen (thr now line errs : Nat) (old : RowErr) : RowErr :=
  let ces := old.ces.filter (fun c => decide (now < c.2 + dayNs) && (errs != 1 || c.1 != line))
  let ces := if errs = 1 then ces ++ [(line, now)] else ces
  let twos := if errs = 0 then old.twos.filter (· != line) else if errs = 2 && !old.twos.contains line then old.twos ++ [line] else old.twos
  { old with
    ces := ces
    twos := twos
    failing := old.failing || decide (3 ≤ errs) || (decide (0 < errs) && old.twos.contains line) || decide (thr < ces.length) }

/-- Feed the row-failure rules with a read of the line that physical byte q serves: the table keeps 32 rows a channel, and the entry
seen least recently gives way (R234). A failing row is proposed in host-assisted mode (R240), and reported as uncorrectable where
no repair is left (R238). -/
def noteRow (q errs : Nat) (s : State) : State :=
  let k := physRow q
  let hit := fun (r : RowErr) => r.row == k
  if errs = 0 then
    if s.stk.rows.any hit then
      { s with stk := { s.stk with rows := s.stk.rows.map (fun r => if hit r then rowSeen 255 (epoch s).toNat (q / 64 % 16) 0 r else r) } }
    else s
  else
    let old : RowErr := (s.stk.rows.find? hit).getD { row := k }
    let r := rowSeen (max 2 (rbits s (reg .STK_ROWCE (keyChan k / 64)) 7 0)) (epoch s).toNat (q / 64 % 16) errs old
    let propose := r.failing && !old.proposed && assist s 8
    let rest := s.stk.rows.filter (fun r => !hit r)
    let full := (rest.filter (fun r => keyChan r.row == keyChan k)).length ≥ 32
    let rest := if full then dropNth rest (findIdx (fun r => keyChan r.row == keyChan k) rest) else rest
    let s := { s with stk := { s.stk with rows := rest ++ [{ r with proposed := old.proposed || propose }] } }
    let s := if propose then proposeRepair k s else s
    if r.failing && !old.failing && repairKind s k == 0 then
      event 0x0601 (keyChan k / 128) (keyChan k / 64) (w64 (errAddr q)) (w64 (unplace s q)) s
    else s

/-! ### The line code at work (R230 to R232) -/

/-- The data bytes of physical line l that the controllers hold for their readers. -/
def lineData (s : State) (l : Nat) : List Byte := (List.range 64).map (fun i => SMap.get 0#8 s.stk.mem (l * 64 + i))

/-- The 72 symbols that stand in the cells of a line with no open combining entry: the codeword of its data with the errors that its
cells have taken (R230). -/
def lineCells (s : State) (l : Nat) : List Byte :=
  (List.range 72).map (fun i => nth 0#8 (codeword (lineData s l)) i ^^^ SMap.get 0#8 s.stk.flips (l * 72 + i))

/-- Symbols in error of a line. -/
def lineErrs (s : State) (l : Nat) : Nat := (s.stk.flips.filter (fun e => e.1 / 72 == l)).length

/-- The cells of a line take errors in the given beats of a data or check line (R230). -/
def hitLine (l wire beats : Nat) (s : State) : State :=
  { s with stk := { s.stk with flips := (List.range 72).foldl (fun m i =>
      SMap.put 0#8 m (l * 72 + i) (SMap.get 0#8 m (l * 72 + i) ^^^ symbolHit wire beats i)) s.stk.flips } }

/-- A line is written back with right symbols. -/
def clearFlips (l : Nat) (s : State) : State :=
  { s with stk := { s.stk with flips := s.stk.flips.filter (fun e => e.1 / 72 != l) } }

/-- The open combining entry of a line (R229). -/
def combOf (s : State) (l : Nat) : Option Comb := s.stk.wcb.find? (fun e => e.line == l)

/-- What a decoder without guarantee leaves: another line, the bytes of an open entry kept (R231). -/
def freeLine (l n : Nat) (s : State) : State :=
  let mask := match combOf s l with | some e => e.mask | none => 0#64
  clearFlips l { s with stk := { s.stk with mem := (List.range 64).foldl (fun m i =>
    if bit mask i then m else SMap.put 0#8 m (l * 64 + i) (Config.freeByte n i)) s.stk.mem } }

/-- Decode line l (R231): true where it is uncorrectable. One or two symbols are corrected, written back and counted; three or four are
detected; of five or more the answer and the data are free values. -/
def lineDecode (l : Nat) (s : State) : Bool × State :=
  let q := servePlace s (l * 64)
  let k := lineErrs s l
  let fixed := fun (k : Nat) (s : State) => noteRow q k (rcount (reg .STK_CE (physStack q)) 48 1 (clearFlips l s))
  if k = 0 then (false, noteRow q 0 s)
  else if k ≤ 2 then (false, fixed k s)
  else if k ≤ 4 then (true, noteRow q k s)
  else
    let (w, s) := takeFresh s
    if w.toNat % 3 = 0 then (false, freeLine l (s.fresh - 1) s)
    else if w.toNat % 3 = 1 then (false, fixed (1 + w.toNat / 4 % 2) (freeLine l (s.fresh - 1) s))
    else (true, noteRow q k s)

end Sys2Proof.Machine
end

