-- ==== Sys2Proof/Machine/Mem.lean ====
section
/-! DEFINITION. The address space (R12, R13): reads and writes of stack memory, the combining buffer, start words (R211, R226 to R232, R252), and the tile SRAM windows (R18, R24, R42, R43, R69). -/

namespace Sys2Proof.Machine
open Sys2Proof

/-- Bytes that travel with their poison marks (R25). -/
abbrev PBytes := List (Byte × Bool)

def cleanBytes (bs : List Byte) : PBytes := bs.map (fun b => (b, false))
def rawBytes (bs : PBytes) : List Byte := bs.map (·.1)
def anyPoison (bs : PBytes) : Bool := bs.any (·.2)

/-- Line-aligned addresses of a range. -/
def linesOf (a n : Nat) : List Nat :=
  if n = 0 then [] else (List.range ((a + n - 1) / 64 - a / 64 + 1)).map (fun i => (a / 64 + i) * 64)

/-- The bits of a data byte that an uncorrectable line delivers in error: the line comes as its cells hold it, with the bytes of an open
entry over them (R229, R231, log 72). -/
def rawFlip (s : State) (p : Nat) : Byte :=
  if s.stk.flips.isEmpty || decide (lineErrs s (p / 64) < 3) then 0#8
  else if (match combOf s (p / 64) with | some e => bit e.mask (p % 64) | none => false) then 0#8
  else SMap.get 0#8 s.stk.flips (p / 64 * 72 + p % 64)

/-- A byte of stack memory as every reader sees it. -/
def stkByte (s : State) (a : Nat) : Byte :=
  let p := physOf s (backing s false a)
  SMap.get 0#8 s.stk.mem p ^^^ rawFlip s p

/-- Physical line l is delivered poisoned: its stack is lost, its poison bit is set, it cannot be corrected, or poisoned bytes wait for
it in the combining buffer (R25, R232, R408). -/
def lineBad (s : State) (l : Nat) : Bool :=
  placeLost s (l * 64) || SMap.get false s.stk.poison l || decide (3 ≤ lineErrs s l) ||
  (match combOf s l with | some e => e.pois != 0#64 | none => false)

/-- The line of an address is poisoned. -/
def linePoisoned (s : State) (a : Nat) : Bool := lineBad s (physOf s (backing s false a) / 64)

/-- Bytes of stack memory, without the controllers' counts. -/
def stkPeek (s : State) (a n : Nat) : PBytes :=
  (List.range n).map (fun i => (stkByte s (a + i), linePoisoned s (a + i)))

/-! ### What the controllers do at a line (R229, R232, R242) -/

/-- Count a slot of a stack by use (R416). -/
def slotCount (n use k : Nat) (s : State) : State := rcount (reg .PMC_STK_SLOT (n * 8 + use)) 64 k s

/-- Entries open in the combining buffer of a stack. -/
def wcbOpen (s : State) (n : Nat) : Nat := (s.stk.wcb.filter (fun e => serveStack s (e.line * 64) == n)).length

/-- Record an uncorrectable or poisoned read of physical line l, asked for at address a (R232). -/
def stkUe (a l : Nat) (s : State) : State :=
  let q := servePlace s (l * 64)
  let n := physStack q
  let s := rcount (reg .STK_UE n) 48 1 s
  let s := rset (reg .STK_ERR_ADDR n) (w64 (errAddr q)) s
  let s := rsetBit (reg .STK_ERR n) 0 true s
  event 0x0601 (n / 2) n (w64 (errAddr q)) (w64 a) s

/-- A full line is written: any open entry of it goes, its symbols are right, its poison is that of its bytes (R229, R232). -/
def lineFilled (l use : Nat) (pois : Bool) (s : State) : State :=
  let n := serveStack s (l * 64)
  let s := clearFlips l { s with stk := { s.stk with wcb := s.stk.wcb.filter (fun e => e.line != l), poison := SMap.put false s.stk.poison l pois } }
  slotCount n use 1 (rcount (reg .STK_WR_LINES n) 48 1 s)

/-- A reader meets line l (R229, R231, R232): it is decoded, merged with an open entry and then written back whole; poisoned or
uncorrectable, it is delivered poisoned and recorded. -/
def lineMeet (a l : Nat) (s : State) : State :=
  let bad := SMap.get false s.stk.poison l || (match combOf s l with | some e => e.pois != 0#64 | none => false)
  let r := lineDecode l s
  let s := match combOf r.2 l with
    | some e => lineFilled l e.use (bad || r.1) r.2
    | none => r.2
  if bad || r.1 then stkUe a l s else s

/-- One line read by class (R227, R242). A lost stack answers without its controller (R408). -/
def lineRead (cls : Nat) (a : Nat) (s : State) : State :=
  let l := physOf s (backing s false a) / 64
  if placeLost s (l * 64) then s else
  let n := serveStack s (l * 64)
  lineMeet a l (slotCount n cls 1 (rcount (reg .STK_RD_LINES n) 48 1 s))

/-- Read bytes of stack memory at a priority class (R226, R227): every line is decoded before it is delivered. -/
def stkRead (cls a n : Nat) (s : State) : PBytes × State :=
  let s := (linesOf a n).foldl (fun s l => lineRead cls l s) s
  (stkPeek s a n, s)

/-- Read-modify-write the oldest open entry of a stack (R229): its line is read and decoded, and written merged; poisoned where the line
was, where it cannot be corrected, or where a byte of the entry is. -/
def wcbRmw (n : Nat) (s : State) : State :=
  match s.stk.wcb.find? (fun e => serveStack s (e.line * 64) == n) with
  | none => s
  | some e =>
    let r := lineDecode e.line s
    let bad := SMap.get false s.stk.poison e.line || r.1
    let s := slotCount n e.use 1 (rcount (reg .STK_RD_LINES n) 48 1 (rcount (reg .STK_RMW n) 48 1 r.2))
    let s := if bad then stkUe (unplace s (e.line * 64)) e.line s else s
    lineFilled e.line e.use (bad || e.pois != 0#64) s

/-- The pressure threshold in force, 64 to 240 (R229, R242). -/
def wcbThreshold (s : State) (n : Nat) : Nat := max 64 (min 240 (rbits s (reg .STK_WCB n) 17 10))

/-- Account a write to physical line l of the bytes of a mask, `pois` those that are poisoned (R229). -/
def lineWritten (use l : Nat) (mask pois : Word) (s : State) : State :=
  let n := serveStack s (l * 64)
  let old := (combOf s l).getD { line := l, use := use }
  let e : Comb := { old with mask := old.mask ||| mask, pois := (old.pois &&& ~~~mask) ||| pois }
  if e.mask = BitVec.allOnes 64 then lineFilled l use (e.pois != 0#64) s
  else
    let wcb := if (combOf s l).isSome then s.stk.wcb.map (fun x => if x.line == l then e else x) else s.stk.wcb ++ [e]
    let s := { s with stk := { s.stk with wcb := wcb } }
    if wcbOpen s n > wcbThreshold s n then wcbRmw n s else s

/-- The byte mask of a line that a range covers. -/
def lineMask (line a n : Nat) : Word :=
  (List.range 64).foldl (fun (m : Word) i => if a ≤ line + i && line + i < a + n then setBit m i true else m) 0#64

/-- The mask of a line's poisoned bytes in data that goes to address a. -/
def poisMask (line a : Nat) (d : PBytes) : Word :=
  (List.range 64).foldl (fun (m : Word) i => if a ≤ line + i && (nth (0#8, false) d (line + i - a)).2 then setBit m i true else m) 0#64

/-- The canonical form of a memory: addresses strictly rising, no entry equal to the 0 that an unlisted address reads as (R24, log 3). -/
def Memory.wf (m : List Host.Cell) : Bool := SMap.wf 0#8 m

/-- Some line of a range lies in a stack at its critical step: requests wait (R241). -/
def stkWaits (s : State) (a n : Nat) : Bool :=
  (linesOf a n).any (fun l => decide (l < stackTop) && placeCritical s (physOf s (backing s false l)))

/-! ### Tile windows (R18, R42) -/

/-- First unmapped window offset (R42). -/
def winTop : Nat := 0xF7000

/-- Store of a window offset, in the order of R18. -/
def storeOf (o : Nat) : Nat :=
  if o < 0x80000 then 0 else if o < 0xC0000 then 1 else if o < 0xF0000 then 2 else if o < 0xF4000 then 3 else if o < 0xF6000 then 4 else 5

/-- A byte of a tile's window: the deque store is held in words (R42). -/
def Tile.byte (x : Tile) (o : Nat) : Byte :=
  if o < 0xF6000 then SMap.get 0#8 x.mem o
  else if o < winTop then BitVec.ofNat 8 ((SMap.get 0#64 x.dqMem ((o - 0xF6000) / 8)).toNat >>> (8 * ((o - 0xF6000) % 8)))
  else 0#8

/-- The word of an offset is delivered poisoned: it is marked, or it holds an uncorrectable error (R24, R25). -/
def Tile.wordPoison (x : Tile) (o : Nat) : Bool := SMap.get false x.poison (o / 8) || decide (1 < SMap.get 0 x.soft (o / 8))

/-- Bytes of a tile's window with their poison. -/
def Tile.read (x : Tile) (o n : Nat) : PBytes := (List.range n).map (fun i => (x.byte (o + i), x.wordPoison (o + i)))

/-- A word of a tile's window. -/
def Tile.word (x : Tile) (o : Nat) : Word := leWord (rawBytes (x.read o 8))

/-- Aligned word offsets of a range. -/
def wordsOf (o n : Nat) : List Nat :=
  if n = 0 then [] else (List.range ((o + n - 1) / 8 - o / 8 + 1)).map (fun i => (o / 8 + i) * 8)

/-! ### Dependency words (R201, R206) -/

/-- An entry is eligible: no dependency, or its word has reached the value and is not poisoned (R201, log 13). -/
def Tile.eligible (x : Tile) (e : DqEntry) : Bool :=
  !dDepEn e.words ||
    (decide (dDepVal e.words ≤ leNat (rawBytes (x.read (dDepOff e.words) 4))) && !x.wordPoison (dDepOff e.words))

/-- The steal summary of a deque: an eligible free entry, and the greatest radius of an eligible regional one (R206). -/
def Tile.summarize (x : Tile) : Tile :=
  let el := x.dq.filter x.eligible
  { x with summary := (el.any (fun e => dAffinity e.words == 2),
      (el.filter (fun e => dAffinity e.words == 1)).foldl (fun m e => max m (dRadius e.words)) 0) }

/-- A write of a range re-evaluates the entries whose dependency word it touches, and the steal summary with them (R201, R206). -/
def Tile.reevaluate (x : Tile) (o n : Nat) : Tile :=
  if x.dq.any (fun e => dDepEn e.words && decide (o < dDepOff e.words + 8) && decide (dDepOff e.words < o + n)) then x.summarize else x

/-- Store bytes: whole words take the poison of their data, parts keep a word's poison (R24). -/
def Tile.write (x : Tile) (o : Nat) (d : PBytes) : Tile :=
  let mem := (List.range d.length).foldl (fun m i => SMap.put 0#8 m (o + i) (nth (0#8, false) d i).1) x.mem
  let pz := (wordsOf o d.length).foldl (fun p w =>
    let part := (d.drop (w - o)).take (w + 8 - max w o)
    let whole := o ≤ w && w + 8 ≤ o + d.length
    SMap.put false p (w / 8) (anyPoison part || (!whole && (SMap.get false p (w / 8) || decide (1 < SMap.get 0 x.soft (w / 8)))))) x.poison
  { x with mem := mem, poison := pz, soft := x.soft.filter (fun e => !(decide (o ≤ e.1 * 8 + 7) && decide (e.1 * 8 < o + d.length))) }.reevaluate o d.length

/-! ### Store words in error (R24, R26) -/

/-- A word found in error: kind 1 corrected, else uncorrectable: counted, recorded, delivered poisoned until it is written. -/
def wordErr (t o kind : Nat) (s : State) : State :=
  if kind = 1 then rcount (reg .TILE_SRAM_CE t) 48 1 s else
  let s := rcount (reg .TILE_SRAM_UE t) 48 1 s
  let s := rset (reg .TILE_SRAM_UE_ADDR t) (w64 (o / 8 * 8)) (rsetBit (reg .TILE_SRAM_ERR t) (storeOf o) true s)
  let s := modTile t (fun x => { x with poison := SMap.put false x.poison (o / 8) true }) s
  event 0x0501 (dieOfTile t) t (w64 (o / 8 * 8 + storeOf o * 2 ^ 32)) 0#64 s

/-- A reader meets the words of a window range: the errors that they hold are found (R24). -/
def meetWords (t o n : Nat) (s : State) : State :=
  let hit := fun (e : Nat × Nat) => decide (o ≤ e.1 * 8 + 7) && decide (e.1 * 8 < o + n)
  let es := (tileOf s t).soft.filter hit
  if es.isEmpty then s else
  es.foldl (fun s e => wordErr t (e.1 * 8) e.2 s) (modTile t (fun x => { x with soft := x.soft.filter (fun e => !hit e) }) s)

/-- A reader meets the words of several ranges. -/
def meetRanges (t : Nat) (rs : List (Nat × Nat)) (s : State) : State :=
  if (tileOf s t).soft.isEmpty then s else rs.foldl (fun s r => meetWords t r.1 r.2 s) s

/-- A write of a range meets the words that it covers in part, at its ends (R24: a read-modify-write inside the store). -/
def meetEnds (t o n : Nat) (s : State) : State :=
  let s := if o % 8 = 0 then s else meetWords t o 1 s
  if (o + n) % 8 = 0 then s else meetWords t (o + n - 1) 1 s

/-- Tile positions of a group or drain: indices from first, cnt of them. -/
def holdsIdx (first cnt idx : Nat) : Bool := decide (first ≤ idx) && decide (idx < first + cnt)

/-- A protected accumulator tile: an output tile of an open group, or one that a drain still holds (R42, R106). -/
def accProtected (x : Tile) (arr idx : Nat) : Bool :=
  x.groups.any (fun g => g.arr == arr && holdsIdx g.first g.cnt idx) ||
  x.drains.any (fun d => d.f.arr == arr && holdsIdx (d.first + d.tile) (d.cnt - d.tile) idx)

/-- Array and index of an accumulator offset. -/
def accOf (o : Nat) : Nat × Nat := ((o - 0xC0000) / 0x10000, ((o - 0xC0000) % 0x10000) / 0x1000)

/-- Accumulator offset of output tile idx of an array (R18, R42). -/
def accBase (arr idx : Nat) : Nat := 0xC0000 + arr * 0x10000 + idx * 0x1000

/-- The poison of output tiles ends when their group closes (R101). -/
def Tile.clearPoison (x : Tile) (arr first cnt : Nat) : Tile :=
  { x with poison := x.poison.filter (fun e => !(decide (accBase arr first ≤ e.1 * 8) && decide (e.1 * 8 < accBase arr (first + cnt)))) }

/-- The window write rules of R42 for one offset. -/
def winWritable (x : Tile) (o : Nat) : Bool :=
  match storeOf o with
  | 2 => !accProtected x (accOf o).1 (accOf o).2
  | 4 => false
  | 5 => false
  | _ => true

/-- The tile's code region (R50), as latched at its last dispatch or as registered while it is idle. -/
def Tile.inCode (x : Tile) (o : Nat) : Bool :=
  decide (0x80000 + x.codeLo ≤ o) && decide (o < 0x80000 + x.codeLo + x.codeLen)

/-- Window region of the DPA space (R12). -/
def winBase : Nat := 0x10000000000

/-! ### Start words (R252, R253, R306) -/

def Job.word (j : Job) (o : Nat) : Word := leWord ((j.rec_.drop o).take 8)
/-- Start word and start value of a job (R249). -/
def Job.startWord (j : Job) : Nat := bits (j.word 0x70) 47 0
def Job.startVal (j : Job) : Nat := (j.word 0x78).toNat
def Coll.word (c : Coll) (o : Nat) : Word := leWord ((c.rec_.drop o).take 8)
def Coll.comm (c : Coll) : Nat := bits (c.word 0) 7 4
def Coll.seqNo (c : Coll) : Nat := bits (c.word 0) 63 36
/-- The collective id (R304). -/
def Coll.id (c : Coll) : Nat := c.comm * 2 ^ 28 + c.seqNo
/-- Start word and start value of a collective (R304). -/
def Coll.startWord (c : Coll) : Nat := bits (c.word 0x40) 47 0
def Coll.startVal (c : Coll) : Nat := (c.word 0x48).toNat

/-- The value at a start word, none where it is delivered poisoned (R253). -/
def flagWord (s : State) (a : Nat) : Option Word :=
  if a < stackTop then
    let d := stkPeek s a 8
    if anyPoison d then none else some (leWord (rawBytes d))
  else
    let x := tileOf s ((a - winBase) / 0x100000)
    let o := (a - winBase) % 0x100000
    if x.wordPoison o then none else some (x.word o)

/-- Low 32 bits of the start word are no less than the start value (R252). -/
def startMet (s : State) (a v : Nat) : Bool :=
  a == 0 || (match flagWord s a with | some w => decide (v ≤ bits w 31 0) | none => false)

/-- Keys of the waiting jobs and collectives whose start word lies where `hit` says and is met (R252, R306). -/
def startsMet (hit : Nat → Bool) (s : State) : List (Nat × Nat) :=
  let see := fun (a v : Nat) => a != 0 && hit a && startMet s a v
  s.bn.flatMap (fun e => (e.2.jobs.filter (fun j => !j.started && see j.startWord j.startVal)).map (fun j => (e.1, j.no))) ++
  (s.fab.colls.filter (fun c => !c.started && see c.startWord c.startVal)).map (fun c => (8, c.id))

/-- The values of a waiting collective's start word from which its rate over the last 100 µs is drawn (R317): the latest at or before their
beginning, and those since, each with its epoch. -/
def startHist (now v : Nat) (h : List (Nat × Nat)) : List (Nat × Nat) :=
  let old := h.filter (fun e => decide (e.1 + 100000 ≤ now))
  old.getLast?.toList ++ h.filter (fun e => !decide (e.1 + 100000 ≤ now)) ++ [(now, v)]

/-- The start words at `hit` are evaluated: one seen met stays met (R252, R306), and what a waiting collective's holds is noted (R317). -/
def noteStarts (hit : Nat → Bool) (s : State) : State :=
  let new := (startsMet hit s).filter (fun k => !s.watch.met.contains k)
  let seen := (s.fab.colls.filter (fun c => !c.started && c.startWord != 0 && hit c.startWord)).filterMap (fun c =>
    (flagWord s c.startWord).map (fun w => (c.id, bits w 31 0)))
  let now := (rget s (reg .EPOCH_NOW)).toNat
  if new.isEmpty && seen.isEmpty then s else
  { s with watch := { met := s.watch.met ++ new, hist := seen.foldl (fun m e => SMap.put [] m e.1 (startHist now e.2 (SMap.get [] m e.1))) s.watch.hist } }

/-- A start word is waited for no longer. -/
def dropMet (k : Nat × Nat) (s : State) : State := { s with watch := { s.watch with met := s.watch.met.filter (· != k) } }

/-- A write to bytes of a tile's window evaluates the start words there (R252). -/
def noteTileStarts (t o n : Nat) (s : State) : State :=
  noteStarts (fun a => decide (winBase ≤ a) && (a - winBase) / 0x100000 == t && decide (o < (a - winBase) % 0x100000 + 8) && decide ((a - winBase) % 0x100000 < o + n)) s

/-! ### Writes (R210, R211, R229) -/

/-- Write bytes of a tile's window: words covered in part are read first, then the start words that lie there are evaluated (R24, R252). -/
def winPoke (t o : Nat) (d : PBytes) (s : State) : State :=
  noteTileStarts t o d.length (modTile t (fun x => x.write o d) (meetEnds t o d.length s))

/-- Write bytes at a backing address: memory, the account of each line, the start words that lie there. -/
def stkPoke (use a : Nat) (d : PBytes) (s : State) : State :=
  let ls := (linesOf a d.length).map (fun l => (physOf s l / 64, lineMask l a d.length, poisMask l a d))
  let mem := (List.range d.length).foldl (fun m i => SMap.put 0#8 m (physOf s (a + i)) (nth (0#8, false) d i).1) s.stk.mem
  let s := ls.foldl (fun s l => lineWritten use l.1 l.2.1 l.2.2 s) { s with stk := { s.stk with mem := mem } }
  noteStarts (fun w => decide (w < stackTop) && ls.any (fun l => l.1 == physOf s (backing s false w) / 64)) s

/-- A write to stack memory from outside a commit group: to the current backing (R210); discarded and recorded in a lost stack (R408).
The pieces are cut at 64-byte lines. Base-note engines write at use 2, all others at use 4 (R227, R416). -/
def stkWriteAs (use : Nat) (r : Req) (a : Nat) (d : PBytes) (s : State) : State :=
  (linesOf a d.length).foldl (fun s l =>
    let lo := max l a
    let piece := (d.drop (lo - a)).take (l + 64 - lo)
    let b := backing s false lo
    if placeLost s (physOf s b) then recOther r 408 (w64 lo) s
    else if stkPresent s lo then stkPoke use b piece s else recUnmapped r lo true s) s

/-- A write by any other requester than a base-note engine. -/
def stkWrite (r : Req) (a : Nat) (d : PBytes) (s : State) : State := stkWriteAs 4 r a d s

/-- A line of stack memory copied from its current backing into the other one, read at a class (R211, R215, R227). -/
def copyLine (cls use a : Nat) (s : State) : State :=
  let r := stkRead cls a 64 s
  stkPoke use (backing r.2 true a) r.1 r.2

/-- The page of an address is dirty for another group than that of slot g (R211). -/
def dirtyElsewhere (s : State) (g a : Nat) : Bool :=
  (List.range 16).any (fun h => h != g && ((SMap.get {} s.groups h).pages.any (fun e => e.1 == a / 4096)))

/-- A write by a member of commit group slot g: to the non-current backing, the page becoming dirty; the first write to a
line copies it first (R211). -/
def stkGroupWrite (use g a : Nat) (d : PBytes) (s : State) : State :=
  (linesOf a d.length).foldl (fun s l =>
    let lo := max l a
    let piece := (d.drop (lo - a)).take (l + 64 - lo)
    let first := fun (s : State) => !bit (SMap.get 0#64 (SMap.get {} s.groups g).pages (l / 4096)) ((l / 64) % 64)
    let s := if first s then copyLine (if use = 2 then 2 else 1) use l s else s
    let s := stkPoke use (backing s true lo) piece s
    let cg := SMap.get {} s.groups g
    let mask := SMap.get 0#64 cg.pages (l / 4096)
    let cg := { cg with pages := SMap.set cg.pages (l / 4096) (setBit mask ((l / 64) % 64) true) }
    { s with groups := SMap.put {} s.groups g cg }) s

/-! ### A tile's view of an address (R68, R69) -/

/-- Where an access lands. -/
inductive Loc where
  | win (t off : Nat)
  | stk (a : Nat)
  deriving DecidableEq, Repr

/-- Fault codes of R86. -/
def fILLEGAL : Nat := 0x01
def fRESERVED : Nat := 0x02
def fCODE_RANGE : Nat := 0x03
def fMISALIGNED : Nat := 0x04
def fADDRESS : Nat := 0x05
def fPROTECTED : Nat := 0x06
def fPOISON : Nat := 0x07
def fCOUNTER : Nat := 0x08
def fLOOP_DEPTH : Nat := 0x09
def fABSENT : Nat := 0x0A
def fHEAT : Nat := 0x0B
def fOPEN_GROUP : Nat := 0x0C
def fSOFTWARE : Nat := 0x0D
def fDISCARDED : Nat := 0x0E
def fQUARANTINE : Nat := 0x10
def fOVERFLOW_STOP : Nat := 0x11

/-- Resolve an address of space sp (false LOCAL, true DPA) for tile t, or the fault it raises (R68, R69). -/
def resolve (s : State) (t : Nat) (sp : Bool) (a : Nat) : Except Nat Loc :=
  if !sp then (if a < winTop then .ok (.win t a) else .error fADDRESS)
  else if a < stackTop then (if stkPresent s a then .ok (.stk a) else .error fADDRESS)
  else if winBase ≤ a && a < winBase + 0x48000000 then
    let i := (a - winBase) / 0x100000
    let o := (a - winBase) % 0x100000
    if o ≥ winTop then .error fADDRESS
    else if tileState s i = 4 then .error fABSENT
    else .ok (.win i o)
  else .error fADDRESS

/-- The commit-group slot and id of the descriptor a tile runs, where it names one (R198). -/
def groupIdOf (x : Tile) : Option Nat :=
  match x.run with
  | some r => let g := bits (nth 0#64 r.words 0) 39 24
    if g = 0xFFFF then none else some g
  | none => none

/-- A write of tile t at a resolved place is allowed, or the fault it raises (R69, R211). -/
def writeFault (s : State) (t : Nat) (l : Loc) : Option Nat :=
  let x := tileOf s t
  match l with
  | .win i o =>
    if !winWritable (tileOf s i) o then some fPROTECTED
    else if i = t && x.inCode o then some fPROTECTED
    else if i ≠ t && (groupIdOf x).isSome then some fPROTECTED
    else none
  | .stk a =>
    match groupIdOf x with
    | none => none
    | some g =>
      let slot := g % 16
      let cg := SMap.get {} s.groups slot
      match shrOf s a with
      | none => some fPROTECTED
      | some r =>
        if (cg.regions >>> r) % 2 = 0 then some fPROTECTED
        else if dirtyElsewhere s slot a then some fPROTECTED
        else none

/-- The first fault in a range of a tile's access, with its address: every 8-byte piece is checked. -/
def rangeFault (s : State) (t : Nat) (sp : Bool) (a n : Nat) (write : Bool) : Option (Nat × Nat) :=
  (wordsOf a n).findSome? (fun w =>
    let w := max w a
    match resolve s t sp w with
    | .error c => some (c, w)
    | .ok l => if write then (writeFault s t l).map (fun c => (c, w)) else none)

/-- An uncorrectable flit error poisons the data of its flit, the first of the transfer (R33). -/
def poisonFlit (hit : Bool) (d : PBytes) : PBytes := if hit then (d.take 64).map (fun b => (b.1, true)) ++ d.drop 64 else d

/-- A tile's request of n bytes and the m bytes of its response cross the mesh where the place is not in the tile itself (R39, R68). -/
def meshTrip (t : Nat) (l : Loc) (n m : Nat) (s : State) : Bool × State :=
  match l with
  | .win i _ => if i = t then (false, s) else tileTrip (physPos s t) (physPos s i) true n m s
  | .stk a => stackTrip (physPos s t) true (physStack (physOf s (backing s (decide (0 < n) && (groupIdOf (tileOf s t)).isSome) a))) n m s

/-- Read bytes as a tile reads them: stack reads carry a class (R71, R227). -/
def tileRead (t : Nat) (sp : Bool) (a n cls : Nat) (s : State) : PBytes × State :=
  match resolve s t sp a with
  | .ok l =>
    let r := meshTrip t l 0 n s
    let q : PBytes × State := match l with
      | .win i o => ((tileOf r.2 i).read o n, meetWords i o n r.2)
      | .stk b => stkRead cls b n r.2
    (poisonFlit r.1 q.1, q.2)
  | .error _ => ([], s)

/-- The group of a tile's descriptor is open, so its shadow writes still land; later ones are discarded (R216). -/
def groupOpen (s : State) (g : Nat) : Bool :=
  rbits s (reg .CG_STATE (g % 16)) 2 0 == 0 && rbits s (reg .CG_STATE (g % 16)) 27 16 == g / 16

/-- Mark the taint log for an untagged write (R404). -/
def taintUntagged (t : Nat) (l : Loc) (n : Nat) (s : State) : State :=
  let s := rsetBit (reg .TILE_TAINT_FLAGS t) 0 true s
  match l with
  | .stk a =>
    let s := rset (reg .TILE_TAINT_LO t) (w64 (min (rbits s (reg .TILE_TAINT_LO t) 47 0) a)) s
    rset (reg .TILE_TAINT_HI t) (w64 (max (rbits s (reg .TILE_TAINT_HI t) 47 0) (a + n - 1))) s
  | .win _ _ => s

/-- Write bytes as a tile writes them, after its checks: group members write shadow backings (R211), an aborted group's
writes are discarded (R216). -/
def tileWrite (t : Nat) (sp : Bool) (a : Nat) (d : PBytes) (s : State) : State :=
  match resolve s t sp a with
  | .ok l =>
    let r := meshTrip t l d.length 0 s
    let d := poisonFlit r.1 d
    match l with
    | .win i o => winPoke i o d r.2
    | .stk b =>
      match groupIdOf (tileOf r.2 t) with
      | none => stkWrite (.tile t) b d r.2
      | some g => if groupOpen r.2 g then stkGroupWrite 4 (g % 16) b d r.2 else r.2
  | .error _ => s

/-- An untagged write of a tile (R404). -/
def tileWriteU (t : Nat) (sp : Bool) (a : Nat) (d : PBytes) (s : State) : State :=
  match resolve s t sp a with
  | .ok l => tileWrite t sp a d (taintUntagged t l d.length s)
  | .error _ => s

end Sys2Proof.Machine
end

