-- ==== Sys2Proof/Machine/Issue.lean ====
section
/-! DEFINITION. The sequencer: faults (R86), posts (R74), program counter and loops (R65, R66), interlocks (R82), sampling
(R419), and the one issue operation that every tile instruction goes through (R56 to R58, R81). -/

namespace Sys2Proof.Machine
open Sys2Proof

/-! ### Faults and posts -/

/-- A tile that stops or faults while its slot request is under way: the slot is used all the same, with no header (R182, R185). -/
def slotInFlight (d : Drain) (s : State) : State :=
  let g := reg .BLT_GUARD d.f.tid
  let used := rbits s g 19 8
  if d.slot ≠ 1 then s
  else if used < bits (effReg s (reg .BLT_SPILL d.f.tid)) 59 48 then rsetBits g 19 8 (used + 1) s
  else rsetBit (reg .GUARD_ERR) 0 true s

/-- The drain's tile is in passes: one was rejected, or the accepted one waits for its slot. -/
def Drain.inPasses (d : Drain) : Bool := d.started && (d.passes != 0 || d.slot != 0 || d.pend)

/-- A descriptor fault discards the tiles that are in passes, with what their drains have still to do (R185). -/
def discardPasses (t : Nat) (s : State) : State :=
  match (tileOf s t).drains.filter Drain.inPasses with
  | [] => s
  | ds =>
    modTile t (fun x => { ds.foldl (fun x d => if d.f.keep then x else x.clearPoison d.f.arr (d.first + d.tile) (d.cnt - d.tile)) x with
      drains := x.drains.filter (fun d => !d.inPasses) }) (ds.foldl (fun s d => slotInFlight d s) s)

/-- Stop issue with a fault; the first fault of a descriptor stands (R86, R185). -/
def raiseFault (t : Nat) (f : FaultInfo) (s : State) : State :=
  match (tileOf s t).seq with
  | .idle => s
  | .faulted _ => s
  | _ => modTile t (fun x => { x with seq := .faulted f }) (discardPasses t s)

/-- A move that has begun: its request was performed at the target. -/
def MoveOp.begun (m : MoveOp) : Bool :=
  match m.kind with
  | .atomic _ _ _ _ _ _ res => res.isSome
  | .push _ _ _ res => res.isSome
  | _ => false

/-- Mark the sample of a discarded instruction: flag bit 3, timing fields all ones (R419). -/
def Sample.discard (p : Sample) : Sample :=
  { p with bytes := (setNth p.bytes 14 (nth 0#8 p.bytes 14 ||| 8#8)).take 24 ++ List.replicate 16 0xFF#8 ++ p.bytes.drop 40 }

/-- Discard the instructions issued after sn that have not begun (R86). -/
def Tile.discardLater (x : Tile) (sn : Nat) : Tile :=
  let keepA := fun (o : ArrOp) => decide (o.hdr.sn ≤ sn)
  let dropped := fun (n : Nat) => decide (sn < n) &&
    ((x.move.any fun m => m.hdr.sn == n && !m.begun) || ((x.qF ++ x.qGX ++ x.qGW).any fun o => o.hdr.sn == n) ||
     ((if x.vAdj.isSome then x.vec.drop 1 else x.vec).any fun v => v.hdr.sn == n) || (x.drains.any fun d => d.hdr.sn == n && !d.started))
  { x with
    move := x.move.filter (fun m => decide (m.hdr.sn ≤ sn) || m.begun)
    qF := x.qF.filter keepA
    qGX := x.qGX.filter keepA
    qGW := x.qGW.filter keepA
    vec := match x.vec with
      | [] => []
      | v :: vs => (if decide (v.hdr.sn ≤ sn) || x.vAdj.isSome then [v] else []) ++ vs.filter (fun v => decide (v.hdr.sn ≤ sn))
    drains := x.drains.filter (fun d => decide (d.hdr.sn ≤ sn) || d.started)
    samples := x.samples.map (fun p => if dropped p.sn then p.discard else p) }

/-- A fault detected in a unit: later instructions not begun are discarded, issue stops (R86). -/
def unitFault (t : Nat) (h : Hdr) (f : FaultInfo) (s : State) : State :=
  raiseFault t { f with pc := h.pc } (modTile t (fun x => x.discardLater h.sn) s)

/-- Add to a sync counter, or fault with COUNTER_OVERFLOW at the PC given (R74). -/
def addCounter (t k n : Nat) (h : Hdr) (s : State) : State :=
  let v := (tileOf s t).kr k + n
  if v > 65535 then unitFault t h { code := fCOUNTER } s else modTile t (fun x => x.setK k v) s

/-- The result of sampled instruction sn is poisoned where b holds: flag bit 4 of its record (R419). -/
def notePoisoned (t sn : Nat) (b : Bool) (s : State) : State :=
  if b && (tileOf s t).samples.any (fun p => p.sn == sn) then
    modTile t (fun x => { x with samples := x.samples.map (fun p =>
      if p.sn == sn then { p with bytes := setNth p.bytes 14 (nth 0#8 p.bytes 14 ||| 0x10#8) } else p) }) s
  else s

/-- The post of a completing instruction (R74). -/
def post (t : Nat) (h : Hdr) (s : State) : State :=
  match h.post with
  | some k => addCounter t k 1 h s
  | none => s

/-! ### Program counter (R65, R66) -/

/-- Sequential advance to an offset: the innermost loop that ends there repeats or ends. -/
def Tile.advance (x : Tile) (next : Nat) : Tile :=
  match x.loops with
  | [] => { x with pc := next }
  | [l] =>
    if next = l.stop then
      if l.left = 0 then { x with loops := [], pc := next }
      else { x with loops := [{ l with left := l.left - 1 }], pc := l.start }
    else { x with pc := next }
  | i :: o :: r =>
    if next = i.stop && i.left ≠ 0 then { x with loops := { i with left := i.left - 1 } :: o :: r, pc := i.start }
    else
      let rest := if next = i.stop then o :: r else i :: o :: r
      if next = o.stop then
        if o.left = 0 then { x with loops := r, pc := next }
        else { x with loops := { o with left := o.left - 1 } :: r, pc := o.start }
      else { x with loops := rest, pc := next }

/-- A taken branch: loops whose body does not hold the target end, with the loops nested in them (R66). -/
def Tile.jump (x : Tile) (target : Nat) : Tile :=
  let inside := fun (l : Loop) => decide (l.start ≤ target) && decide (target < l.stop)
  let ls := match x.loops with
    | [] => []
    | [l] => if inside l then [l] else []
    | i :: o :: r => if !inside o then r else if inside i then i :: o :: r else o :: r
  { x with loops := ls, pc := target }

/-- LC0 and LC1 (R46, R66). -/
def Tile.lc (x : Tile) (inner : Bool) : Nat :=
  match x.loops, inner with
  | [l], false => l.left
  | _ :: o :: _, false => o.left
  | i :: _ :: _, true => i.left
  | _, _ => 0

/-- A program counter outside the code region (R65). -/
def Tile.pcOutside (x : Tile) (pc : Nat) : Bool :=
  !(pc % 8 == 0 && decide (x.codeLo ≤ pc) && decide (pc + 8 ≤ x.codeLo + x.codeLen))

/-! ### Prefetch (R51, R455) -/

/-- Words that the prefetch queue holds at most (R51). -/
def prefetchWords : Nat := 32

/-- The word at an offset of the data store with its mark. -/
def Tile.codeWord (x : Tile) (pc : Nat) : Word × Bool := (x.word (0x80000 + pc), x.wordPoison (0x80000 + pc))

/-- Word k from the PC on: as the queue holds it, else as the store delivers it now. -/
def Tile.fetched (x : Tile) (k : Nat) : Word × Bool := nth (x.codeWord (x.pc + 8 * k)) x.pre k

/-- The queue after issue has moved: a sequential advance takes the words that left, a taken branch those before its target where the
target is in the queue, and any other change of the PC all of them (R455). -/
def Tile.keepPre (x : Tile) (old : Nat) (pre : List (Word × Bool)) : List (Word × Bool) :=
  if old ≤ x.pc && x.pc % 8 = old % 8 && x.pc < old + 8 * pre.length then pre.drop ((x.pc - old) / 8) else []

/-- Offsets that fetch reads to fill the queue: from behind its last word on, to the end of the code region (R50, R51; DESIGN CHOICE,
log 80). -/
def Tile.fetchFrom (x : Tile) : List Nat :=
  ((List.range (prefetchWords - x.pre.length)).map (fun k => x.pc + 8 * (x.pre.length + k))).filter (fun o =>
    decide (x.codeLo ≤ o) && decide (o + 8 ≤ x.codeLo + x.codeLen))

/-- Fetch fills the prefetch queue of a tile; words in error are met (R24, R51). -/
def fetchTile (t : Nat) (s : State) : State :=
  let os := (tileOf s t).fetchFrom
  let s := match os with
    | [] => s
    | o :: _ => meetWords t (0x80000 + o) (8 * os.length) s
  modTile t (fun x => { x with pre := x.pre ++ os.map x.codeWord }) s

/-- Issue has moved a tile's PC: the queue follows, and fetch goes on. -/
def moveIssue (t : Nat) (f : Tile → Tile) (s : State) : State :=
  fetchTile t (modTile t (fun x => let y := f x; { y with pre := y.keepPre x.pc x.pre }) s)

/-- Opcodes of two-word instructions (R60). -/
def isTwoWord (op : Nat) : Bool := [0x40, 0x41, 0x42, 0x43, 0x60, 0x61, 0xE0, 0xE1].contains op

/-- Walking n words from an offset ends inside a two-word instruction (R66). -/
def Tile.endsInside (x : Tile) : Nat → Nat → Bool
  | 0, _ => false
  | n + 1, o =>
    if isTwoWord (bits (x.word (0x80000 + o)) 63 56) then
      match n with
      | 0 => true
      | m + 1 => x.endsInside m (o + 16)
    else x.endsInside n (o + 8)

/-! ### Interlocks (R82) -/

/-- An earlier instruction still has to write scalar register n. -/
def Tile.pendS (x : Tile) (n : Nat) : Bool :=
  n != 0 && (x.loads.any (fun l => l.st == n) ||
    x.move.any (fun m => match m.kind with | .atomic _ sd _ _ _ _ _ => sd == n | _ => false) ||
    x.vec.any (fun v => (v.opc == 0x83 && bits v.w 25 21 == n)))

/-- An earlier instruction still has to write predicate register n. -/
def Tile.pendP (x : Tile) (n : Nat) : Bool :=
  n != 0 && x.move.any (fun m => match m.kind with | .push pd _ _ _ => pd == n | _ => false)

/-- Everything the descriptor has issued has completed (R54, R75). -/
def Tile.drained (x : Tile) : Bool :=
  x.loads.isEmpty && x.stores.isEmpty && x.move.isEmpty && x.qF.isEmpty && x.qGX.isEmpty && x.qGW.isEmpty &&
  x.vec.isEmpty && x.drains.isEmpty && x.inits.isEmpty

/-! ### Sampling (R419) -/

/-- Mesh hops of a request from a tile to the place of an access: to a tile, or to the stop where it enters the stack's lane (R34, R36, R39). -/
def meshHops (s : State) (t : Nat) (l : Loc) : Nat :=
  match l with
  | .win i _ => hopsOf (route s .req (physPos s t) (physPos s i)).2
  | .stk a => hopsOf (stackPath s (physPos s t) (physStack (physOf s (backing s false a))))

/-- The next state of a tile's sampling count (R419). -/
def Tile.nextCount (x : Tile) (p : Nat) : Tile :=
  { x with sampLeft := p / 2 + x.lfsr.toNat % p, lfsr := Config.lfsrNext x.lfsr }

/-- What sampling records of one instruction. -/
structure SampInfo where
  opc : Nat
  unit : Nat
  guardOff : Bool := false
  opnd : Option (Bool × Nat) := none
  deriving DecidableEq, Repr

/-- The sample record of an issuing instruction (R419); its timing fields are free values. -/
def sampleBytes (s : State) (t : Nat) (i : SampInfo) (pc : Nat) : List Byte :=
  let x := tileOf s t
  let r := x.run.getD (Run.mk [] t 0 false)
  let w0 := nth 0#64 r.words 0
  let g := bits w0 39 24
  let loc := match i.opnd with
    | some (sp, a) => (match resolve s t sp a with | .ok l => some l | .error _ => none)
    | none => none
  let flags := b2n i.guardOff + 2 * b2n r.stolen + 4 * b2n (g != 0xFFFF)
  leBytes 8 (dieEpoch s (dieOfTile t)).toNat ++ leBytes 2 t ++ leBytes 2 r.home ++ leBytes 1 i.opc ++ leBytes 1 i.unit ++ leBytes 1 flags ++
  leBytes 1 (bits w0 43 40) ++ leBytes 4 pc ++ leBytes 2 (bits w0 63 48) ++ leBytes 2 g ++
  leBytes 8 (Config.freeWord s.fresh).toNat ++ leBytes 8 (Config.freeWord (s.fresh + 1)).toNat ++
  leBytes 8 ((i.opnd.map (·.2)).getD 0) ++ leBytes 2 (rbits s (reg .CLK_DIE_F (dieOfTile t)) 10 0) ++
  leBytes 2 ((loc.map (meshHops s t)).getD 0) ++ leBytes 4 0 ++ leBytes 8 (SMap.get 0 s.ep.cyc (dieOfTile t))

/-- Advance the sampling count by an instruction's words, tagging it where the count has run out (R419). -/
def sampleIssue (t words sn pc : Nat) (i : SampInfo) (s : State) : State :=
  let p := rbits s (reg .PMC_SAMPLE) 23 0
  let tg := rget s (reg .TILE_PMC_TAGS t)
  let x := tileOf s t
  if p < 256 || !bit tg 16 then s
  else if bit tg 17 && !bit tg (tagOf x) then s
  else if x.sampLeft = 0 then
    let y : Tile := { x with samples := x.samples ++ [Sample.mk sn (sampleBytes s t i pc)] }
    { setTile t (y.nextCount p) s with fresh := s.fresh + 2 }
  else setTile t { x with sampLeft := x.sampLeft - words } s

/-! ### Issue (R56 to R58, R81) -/

/-- What an instruction does when it takes effect. -/
inductive Issued where
  /-- Completed or queued; issue goes on behind it. -/
  | done (s : State)
  /-- Completed; issue goes on after this many words (a LOOP that skips its body, R66). -/
  | skip (words : Nat) (s : State)
  /-- A taken branch. -/
  | jump (target : Nat) (s : State)
  /-- A precise fault: code, address, software code (R86). -/
  | fault (code addr sw : Nat) (s : State)
  /-- Not issued yet: its queue is full. -/
  | stall
  /-- Issued; issue waits behind it. -/
  | wait (w : Wait) (s : State)
  /-- END: the descriptor issues nothing more. -/
  | ends (s : State)

/-- What issue must know of an instruction: words, reserved-field violation, registers read or written, post, sampling. -/
structure Form where
  words : Nat := 1
  bad : Bool := false
  rs : List Nat := []
  rp : List Nat := []
  post : Option Nat := none
  opc : Nat := 0
  unit : Nat := 0
  opnd : Option (Bool × Nat) := none
  deriving DecidableEq, Repr

/-- The guard of a first word (R56). -/
def guardOf (x : Tile) (w : BitVec 56) : Bool := x.pr (bits w 54 52) != bit w 55

/-- Account an issued instruction: word counter, sampling, program-order number (R414, R419). -/
def accountIssue (t : Nat) (f : Form) (guardOff : Bool) (s : State) : State :=
  let x := tileOf s t
  let s := pmcCount t 3 f.words s
  let s := sampleIssue t f.words x.sn x.pc { opc := f.opc, unit := f.unit, guardOff := guardOff, opnd := f.opnd } s
  modTile t (fun x => { x with sn := x.sn + 1 }) s

/-- Move issue behind the instruction at the PC. -/
def advanceTile (t words : Nat) (s : State) : State :=
  moveIssue t (fun x => x.advance (x.pc + 8 * words)) s

/-- Issue one instruction of tile t. `second` is false when a second word lacks its 0xFF (R56). A command for a tile that is
not issuing does not occur: the state stands (log 2). -/
def issue (t : Nat) (w : BitVec 56) (second : Bool) (f : Form) (eff : Hdr → State → Issued) (s : State) : State :=
  let x := tileOf s t
  if !(running s && x.seq = .running) then s
  else
    let flt := fun c => raiseFault t { code := c, pc := x.pc } s
    if x.pcOutside x.pc || (f.words = 2 && x.pcOutside (x.pc + 8)) then flt fCODE_RANGE
    else if (x.fetched 0).2 || (f.words = 2 && (x.fetched 1).2) then flt fPOISON
    else if f.words = 2 && !second then flt fILLEGAL
    else if f.bad then flt fRESERVED
    else if f.rs.any x.pendS || f.rp.any x.pendP || x.pendP (bits w 54 52) then s
    else
      let h : Hdr := { sn := x.sn, pc := x.pc, post := f.post }
      if !guardOf x w then advanceTile t f.words (post t h (accountIssue t f true s))
      else match eff h (accountIssue t f false s) with
        | .done s' => advanceTile t f.words s'
        | .skip n s' => advanceTile t n s'
        | .jump tg s' => moveIssue t (fun x => x.jump tg) s'
        | .fault c a sw s' => raiseFault t { code := c, pc := x.pc, addr := a, sw := sw } s'
        | .stall => s
        | .wait q s' => modTile t (fun x => { x with seq := .waiting q }) (advanceTile t f.words s')
        | .ends s' => modTile t (fun x => { x with seq := .ending }) s'

end Sys2Proof.Machine
end

