-- ==== Sys2Proof/Machine/Operands.lean ====
section
/-! DEFINITION. The operand formats of the instruction words (R59, R62, R73) and their reserved-field checks (R58). -/

namespace Sys2Proof.Machine
open Sys2Proof

/-! ### Format S -/
def fSd (w : BitVec 56) : Nat := bits w 51 47
def fSa (w : BitVec 56) : Nat := bits w 46 42
def fSb (w : BitVec 56) : Nat := bits w 41 37
def fIm (w : BitVec 56) : Bool := bit w 36
def fImm (w : BitVec 56) : Nat := bits w 31 0

/-- The second operand: s[sb], or imm32 sign-extended (R59). -/
def op2 (x : Tile) (w : BitVec 56) : Word := if fIm w then sext32 (fImm w) else x.sr (fSb w)

/-- Reserved violations of format S (R59). -/
def badS (w : BitVec 56) : Bool := bits w 35 32 != 0 || (fIm w && fSb w != 0)

/-- Issue form of a format-S instruction. -/
def formS (opc : Nat) (w : BitVec 56) (bad : Bool := false) : Form :=
  { bad := badS w || bad, rs := [fSd w, fSa w] ++ (if fIm w then [] else [fSb w]), opc := opc }

/-! ### Format Q -/
def qPd (w : BitVec 56) : Nat := bits w 51 49
def qCc (w : BitVec 56) : Nat := bits w 48 45
def qSa (w : BitVec 56) : Nat := bits w 44 40
def qSb (w : BitVec 56) : Nat := bits w 39 35
def qIm (w : BitVec 56) : Bool := bit w 34

/-! ### Format J -/
def badJ (w : BitVec 56) : Bool := bits w 51 47 != 0 || bits w 41 32 != 0
def formJ (opc : Nat) (w : BitVec 56) (bad : Bool := false) (rs : List Nat := []) : Form :=
  { bad := badJ w || bad, rs := rs, opc := opc }

/-! ### Format A -/
def aAd (w : BitVec 56) : Nat := bits w 51 48
def aAs (w : BitVec 56) : Nat := bits w 47 44
def aSs (w : BitVec 56) : Nat := bits w 43 39
def aSh (w : BitVec 56) : Nat := bits w 38 36
def aDir (w : BitVec 56) : Bool := bit w 35

/-! ### Format L -/
def lSt (w : BitVec 56) : Nat := bits w 51 47
def lAb (w : BitVec 56) : Nat := bits w 46 43
def lSize (w : BitVec 56) : Nat := 2 ^ bits w 42 41
def lSx (w : BitVec 56) : Bool := bit w 40
def lSp (w : BitVec 56) : Bool := bit w 39
/-- Effective address: base plus signed byte offset, 48 bits. -/
def lAddr (x : Tile) (w : BitVec 56) : Nat := bits (x.ar (lAb w) + sext32 (fImm w)) 47 0

/-! ### Format M -/
def mAd (w : BitVec 56) : Nat := bits w 51 48
def mAs (w : BitVec 56) : Nat := bits w 47 44
def mSl (w : BitVec 56) : Nat := bits w 43 39
def mDsp (w : BitVec 56) : Bool := bit w 38
def mSsp (w : BitVec 56) : Bool := bit w 37
def mPri (w : BitVec 56) : Nat := bits w 36 35
def mPost (w : BitVec 56) : Option Nat := if bit w 34 then some (bits w 33 30) else none
def mLen (w : BitVec 56) : Nat := bits w 19 0

/-! ### Format V -/
def vVd (w : BitVec 56) : Nat := bits w 51 49
def vVa (w : BitVec 56) : Nat := bits w 48 46
def vVb (w : BitVec 56) : Nat := bits w 45 43
def vVc (w : BitVec 56) : Nat := bits w 42 40
def vMk (w : BitVec 56) : Nat := bits w 39 38
def vMu (w : BitVec 56) : Bool := bit w 37
def vTy (w : BitVec 56) : Nat := bits w 36 35
def vFn (w : BitVec 56) : Nat := bits w 34 31
def vAb (w : BitVec 56) : Nat := bits w 30 27
def vAx (w : BitVec 56) : Bool := bit w 26
def vSs (w : BitVec 56) : Nat := bits w 25 21
def vPost (w : BitVec 56) : Option Nat := if bit w 20 then some (bits w 19 16) else none

/-! ### Format X -/
def xArr (w : BitVec 56) : Nat := bits w 51 50
def xG (w : BitVec 56) : Nat := bits w 49 48
def xPost (w : BitVec 56) : Option Nat := if bit w 22 then some (bits w 21 18) else none

/-- The fields of MMA, MMA2 and LMMA with their address registers read (R62). -/
def mmaFields (x : Tile) (w : BitVec 56) (w1 : Word) (two lin : Bool) : MmaF :=
  { arr := xArr w, g := xG w, ai := x.addr (bits w 47 44), aw := x.addr (bits w 43 40), asc := x.addr (bits w 39 36),
    fa := bits w 35 32, fw := bits w 31 28, warr := bits w 27 26, larr := bits w 25 24, wm := bit w 23,
    rows := bits w1 55 51 + 1, kb := bits w1 50 43 + 1, oi := bits w1 42 39, asa := x.addr (bits w1 38 35),
    asl := x.addr (bits w1 34 31), sle := bit w1 30, two := two, lin := lin }

/-! ### Format D -/
def dPost (w : BitVec 56) : Option Nat := if bit w 24 then some (bits w 23 20) else none

/-- The fields of DCLOSE, DKEEP and LCLOSE with their address registers read (R62). -/
def drainFields (x : Tile) (w : BitVec 56) (w1 : Word) (keep lin : Bool) : DrainF :=
  { arr := xArr w, g := xG w, ad := x.addr (bits w 47 44), dsp := bit w 43, fo := bits w 42 39, arro := bits w 38 37,
    stoch := bit w 36, act := bits w 35 32, scm := bits w 31 30, be := bit w 29, dv := bit w 28, mm := bits w 27 25,
    asV := x.addr (bits w1 55 52), abV := x.addr (bits w1 51 48), axV := x.addr (bits w1 47 44), tid := bits w1 43 32,
    keep := keep, lin := lin }

/-- The second word of a two-word instruction carries 0xFF in [63:56] (R56). -/
def isSecond (w1 : Word) : Bool := bits w1 63 56 == 0xFF

end Sys2Proof.Machine
end

