-- ==== Sys2Proof/Machine/GroupOps.lean ====
section
/-! DEFINITION. Commit groups: identity, life cycle, commit and abort (R210 to R217, R220). -/

namespace Sys2Proof.Machine
open Sys2Proof

/-- State of a group slot: 0 open, 1 committing, 2 committed, 3 aborted, 4 free (R213, R220). -/
def cgState (s : State) (g : Nat) : Nat := rbits s (reg .CG_STATE g) 2 0
def cgGen (s : State) (g : Nat) : Nat := rbits s (reg .CG_STATE g) 27 16
def cgExpected (s : State) (g : Nat) : Nat := rbits s (reg .CG_STATE g) 40 32
def cgDispatched (s : State) (g : Nat) : Nat := rbits s (reg .CG_COUNT g) 8 0
def cgCompleted (s : State) (g : Nat) : Nat := rbits s (reg .CG_COUNT g) 24 16
def cgFailed (s : State) (g : Nat) : Nat := rbits s (reg .CG_COUNT g) 40 32

/-- The group id of a slot's present group (R212). -/
def cgId (s : State) (g : Nat) : Nat := cgGen s g * 16 + g

def cgOf (s : State) (g : Nat) : CGroup := SMap.get {} s.groups g
def setCg (g : Nat) (c : CGroup) (s : State) : State := { s with groups := SMap.put {} s.groups g c }

/-- Change a group's state and its epoch (R220). -/
def setCgState (g v : Nat) (s : State) : State :=
  rset (reg .CG_EPOCH g) (coxEpoch s) (rsetBits (reg .CG_STATE g) 2 0 v s)

/-- The group that an id names, in the state a member reads: a free slot or a later generation reads 4 (R79). -/
def cgStat (s : State) (gid : Nat) : Nat := if cgGen s (gid % 16) = gid / 16 then cgState s (gid % 16) else 4

/-- The lowest free slot (R212). -/
def freeSlot (s : State) : Option Nat := (List.range 16).find? (fun g => cgState s g == 4)

/-- Take a free slot: the generation advances when the slot is reused and wraps at 0xFFE (R212). -/
def openSlot (g expected regions : Nat) (internal : Bool) (cmd : Option CmdRef) (s : State) : State :=
  let old := cgOf s g
  let gen := if old.used then (if cgGen s g = 0xFFE then 0 else cgGen s g + 1) else cgGen s g
  let s := rset (reg .CG_STATE g) (w64 (gen * 2 ^ 16 + expected * 2 ^ 32)) s
  let s := rsetBits (reg .CG_COUNT g) 40 0 0 s
  let s := setCg g { regions := regions, internal := internal, cmd := cmd, used := true } s
  setCgState g 0 s

/-- Free a slot (R213). -/
def freeGroup (g : Nat) (s : State) : State := setCgState g 4 (setCg g { used := true } s)

/-- The completion of an aborted group is posted when its last running member has ended (R213, R390). -/
def groupSettle (g : Nat) (s : State) : State :=
  let c := cgOf s g
  if cgState s g = 3 && c.running.isEmpty && c.jobs = 0 then
    match c.cmd with
    | some r =>
      let cause := rbits s (reg .CG_STATE g) 51 48
      finishCmd r stABORTED cause (w64 (cgId s g + (c.failTile % 2048) * 2 ^ 16 + (c.failSeq % 65536) * 2 ^ 48))
        (setCg g { c with cmd := none } s)
    | none => s
  else s

/-- Abort a group that has not flipped: dirty marks dropped, backings unchanged; the first cause stands (R216). -/
def abortGroup (g cause t seq : Nat) (s : State) : State :=
  if cgState s g = 0 || (cgState s g = 1 && cause = 5) then
    let s := rsetBits (reg .CG_STATE g) 51 48 cause s
    let s := setCg g { cgOf s g with pages := [], failTile := t, failSeq := seq } s
    groupSettle g (setCgState g 3 s)
  else s

/-- Whether a member may start: 0 yes, 1 stale, 2 beyond the expected count (R214). -/
def memberCheck (s : State) (gid : Nat) : Nat :=
  if cgStat s gid ≠ 0 then 1 else if cgDispatched s (gid % 16) ≥ cgExpected s (gid % 16) then 2 else 0

/-- A member starts on tile t (R213). -/
def memberStart (g t : Nat) (s : State) : State :=
  let s := rsetBits (reg .CG_COUNT g) 8 0 (cgDispatched s g + 1) s
  setCg g { cgOf s g with running := (cgOf s g).running ++ [t] } s

/-- All expected members have completed with no failure: the group enters committing (R213). -/
def groupAdvance (g : Nat) (s : State) : State :=
  if cgState s g = 0 && cgCompleted s g = cgExpected s g && cgFailed s g = 0 then setCgState g 1 s else s

/-- A member ends without failure (R54, R213). -/
def memberDone (g t : Nat) (s : State) : State :=
  let s := setCg g { cgOf s g with running := (cgOf s g).running.erase t } s
  let s := rsetBits (reg .CG_COUNT g) 24 16 (cgCompleted s g + 1) s
  groupSettle g (groupAdvance g s)

/-- A member fails: the group aborts (R209, R216). -/
def memberFail (g t seq : Nat) (s : State) : State :=
  let s := setCg g { cgOf s g with running := (cgOf s g).running.erase t } s
  let s := rsetBits (reg .CG_COUNT g) 40 32 (cgFailed s g + 1) s
  groupSettle g (abortGroup g 1 t seq s)

/-- Discard a member at dispatch or steal on tile t: stale count, TILE_DQ_ERR, record (R214). An excess member aborts its group. -/
def memberDiscard (t gid kind : Nat) (ws : List Word) (s : State) : State :=
  let g := gid % 16
  let s := if kind = 2 then abortGroup g 4 t (dSeq ws) s else s
  let s := rsetBits (reg .CG_COUNT g) 63 48 (min 0xFFFF (rbits s (reg .CG_COUNT g) 63 48 + 1)) s
  let s := rsetBit (reg .TILE_DQ_ERR t) 1 true s
  event 0x0F06 (dieOfTile t) t (nth 0#64 ws 0) (w64 (gid + (if kind = 2 then 65536 else 0))) s

/-- Lines of a page that a group has not written (R215). -/
def unwritten (mask : Word) : List Nat := (List.range 64).filter (fun i => !bit mask i)

/-- CG_PAGES: dirty pages and lines left to fill (R220). -/
def cgPagesView (s : State) (g : Nat) : Word :=
  let ps := (cgOf s g).pages
  w64 (ps.length % 2 ^ 32 + (sumNat (ps.map (fun e => (unwritten e.2).length)) % 2 ^ 32) * 2 ^ 32)

/-- Fill one line of a dirty page: copy it from the current backing into the other at class 1 (R215, R227). -/
def fillLine (a : Nat) (s : State) : State := copyLine 1 4 a s

/-- Fill and flip one dirty page (R215). -/
def flipPage (e : Nat × Word) (s : State) : State :=
  let s := (unwritten e.2).foldl (fun s i => fillLine (e.1 * 4096 + i * 64) s) s
  { s with shadow := SMap.put false s.shadow e.1 (!SMap.get false s.shadow e.1) }

/-- A dirty page waits for a stack at its critical step (R215). -/
def groupWaits (s : State) (g : Nat) : Bool :=
  (cgOf s g).pages.any (fun e => (List.range 64).any (fun i =>
    stkWaits s (e.1 * 4096 + i * 64) 64 || placeCritical s (physOf s (backing s true (e.1 * 4096 + i * 64)))))

/-- Every dirty page of a committing group is filled and switches; the completion is posted, with the number of pages that a stack's loss
took (R215, R217, log 83). -/
def flipGroup (lost g : Nat) (s : State) : State :=
  let c := cgOf s g
  let s := c.pages.foldl (fun s e => flipPage e s) s
  let s := setCgState g 2 (setCg g { c with pages := [], cmd := none } s)
  finishOpt c.cmd stOK lost (w64 (cgId s g)) s

/-- Fill and flip of a committing group (R215). -/
def commitFlip (g : Nat) (s : State) : State :=
  if cgState s g ≠ 1 || (cgOf s g).internal || groupWaits s g then s else flipGroup 0 g s

end Sys2Proof.Machine
end

