-- ==== Sys2Proof/Machine/Deque.lean ====
section
/-! DEFINITION. Work deques, dispatch and stealing (R47, R198 to R207, R214, R218). The deque's list runs from the far end
to the near end. -/

namespace Sys2Proof.Machine
open Sys2Proof

/-! ### The deque store (R200, R219) -/

/-- Write one entry into ring position p of the deque store (R42). -/
def dqStore (m : SMap Word) (p : Nat) (ws : List Word) : SMap Word :=
  (List.range 8).foldl (fun m j => SMap.put 0#64 m (p * 8 + j) (nth 0#64 ws j)) m

/-- Replace the deque's entries, the far end at the ring index given; the store follows. -/
def Tile.setDq (x : Tile) (far : Nat) (l : List DqEntry) : Tile :=
  { x with
    dq := l
    dqFar := far % 64
    dqMem := (List.range l.length).foldl (fun m k => dqStore m ((far + k) % 64) (nth {words := []} l k).words) x.dqMem }

/-- Word j of ring position p of the deque store, as a word of the window (R42). -/
def dqWord (p j : Nat) : Nat := 0xF6000 / 8 + p * 8 + j

/-- Entries from place k on move one place down, with the marks of their words. -/
def Tile.dqShift (x : Tile) (k n : Nat) : Tile :=
  let from_ := fun (m : SMap Bool) i j => SMap.get false m (dqWord ((x.dqFar + i + 1) % 64) j)
  { x with
    poison := (List.range (n - 1 - k)).foldl (fun m i => (List.range 8).foldl (fun m j => SMap.put false m (dqWord ((x.dqFar + k + i) % 64) j) (from_ x.poison (k + i) j)) m) x.poison }

/-- Enter a descriptor at the near end (R200): its words are written whole (R24). -/
def Tile.push (x : Tile) (e : DqEntry) : Tile :=
  let p := (x.dqFar + x.dq.length) % 64
  let y := x.setDq x.dqFar (x.dq ++ [e])
  let mine := fun (w : Nat) => decide (dqWord p 0 ≤ w) && decide (w < dqWord p 8)
  { y with poison := y.poison.filter (fun m => !mine m.1), soft := y.soft.filter (fun m => !mine m.1) }.summarize

/-- Take out entry k: the far end moves for entry 0 of a steal, else the near side closes up (R200, log 14). -/
def Tile.take (x : Tile) (k : Nat) (steal : Bool) : Tile :=
  if steal && k = 0 then (x.setDq (x.dqFar + 1) (dropNth x.dq k)).summarize
  else ((x.dqShift k x.dq.length).setDq x.dqFar (dropNth x.dq k)).summarize

/-- What the receiving deque answers a push. -/
inductive PushRes where
  | accepted
  | refused
  | malformed
  | absent
  | waits
  deriving DecidableEq, Repr

/-- A push arrives at the deque of tile t (R199, R200, R202). -/
def pushTo (r : Req) (t : Nat) (e : DqEntry) (s : State) : PushRes × State :=
  let st := tileState s t
  if st = 4 then (.absent, recUnmapped r (winBase + t * 0x100000 + 0xF6000) true s)
  else if st = 2 then (.waits, s)
  else if dMalformed e.words then
    (.malformed, event 0x0F05 (dieOfTile t) t (nth 0#64 e.words 0) (nth 0#64 e.words 1) (rsetBit (reg .TILE_DQ_ERR t) 0 true s))
  else if st = 1 || (tileOf s t).dq.length ≥ 64 then (.refused, rcount (reg .TILE_DQ_REFUSED t) 48 1 s)
  else
    let s := modTile t (fun x => { x.push e with steal := { x.steal with waiting := false } }) s
    (.accepted, rcount (reg .TILE_DQ_PUSHED t) 48 1 s)

/-! ### Dispatch (R47, R54) -/

/-- Set the sequencer up for a descriptor (R47); the code region and the low-plane distance are latched (R87, R175). -/
def startRun (t : Nat) (e : DqEntry) (home : Nat) (stolen : Bool) (s : State) : State :=
  let code := rget s (reg .TILE_SEQ_CODE t)
  let d := toSigned 38 (rbits s (reg .TILE_FP6_LOW t) 47 10) * 1024
  let s := modTile t (fun x => { x with
    seq := .running
    run := some { words := e.words, home := home, ring := e.ring, stolen := stolen }
    runNo := x.runNo + 1
    pc := dEntry e.words
    codeLo := bits code 5 0 * 4096
    codeLen := (bits code 11 8 + 1) * 4096
    fp6D := d
    s := (List.range 8).foldl (fun m j => SMap.put 0#64 m (24 + j) (nth 0#64 e.words j)) []
    a := []
    p := []
    k := []
    v := []
    vpois := []
    vAdj := none
    m := []
    loops := []
    pre := []
    steal := {} }) s
  let s := fetchTile t s
  pmcCount t 7 1 (rcount (reg .TILE_SEQ_DISPATCHED t) 48 1 s)

/-- Start a descriptor taken from a deque, or discard it as a stale or excess member (R214). -/
def beginEntry (t : Nat) (e : DqEntry) (home : Nat) (stolen : Bool) (s : State) : State :=
  let gid := dGroup e.words
  if gid = 0xFFFF then startRun t e home stolen s
  else match memberCheck s gid with
    | 0 => startRun t e home stolen (memberStart (gid % 16) t s)
    | k => memberDiscard t gid k e.words s

/-- Index of the eligible entry nearest the near end (R201). -/
def Tile.ownPick (x : Tile) : Option Nat := (List.range x.dq.length).reverse.find? (fun k => x.eligible (nth {words := []} x.dq k))

/-- DISPATCH (R47, R201, R202): an idle sequencer takes its own nearest eligible entry. -/
def execDispatch (t : Nat) (s : State) : Out :=
  .next (
    let x := tileOf s t
    if !(running s && x.seq = .idle && (tileState s t = 0 || tileState s t = 1) && x.steal.answer.isNone) then s else
    match x.ownPick with
    | none => s
    | some k => beginEntry t (nth {words := []} x.dq k) t false (modTile t (fun x => x.take k false) s))

/-- DEQUE_REEVALUATION (R201, R206): every entry is evaluated again and the steal summary follows. -/
def execDequeReevaluation (t : Nat) (s : State) : Out := .next (modTile t (fun x => x.summarize) s)

/-! ### Stealing (R203 to R207) -/

/-- A tile may steal (R203). -/
def maySteal (s : State) (t : Nat) : Bool :=
  let x := tileOf s t
  running s && x.seq = .idle && x.ownPick.isNone && bit (rget s (reg .TILE_DQ_CFG t)) 0 && tileState s t = 0 && !isHeat s t && !assist s 11

/-- Probe position of the round: distance 1, 2, 4, 8, each north, east, south, west (R205); none off the grid. -/
def probeTile (t pos : Nat) : Option Nat :=
  let d := 2 ^ (pos / 4)
  let x := gridX t
  let y := gridY t
  let p := match pos % 4 with
    | 0 => if y + d < 24 then some (x, y + d) else none
    | 1 => if x + d < 48 then some (x + d, y) else none
    | 2 => if d ≤ y then some (x, y - d) else none
    | _ => if d ≤ x then some (x - d, y) else none
  p.map (fun q => ((q.2 / 12) * 2 + q.1 / 24) * 288 + (q.2 % 12) * 24 + q.1 % 24)

/-- The first probe position from pos on that names a tile to probe, within the probe reach (R205); n bounds the search. -/
def nextProbe (s : State) (t : Nat) : Nat → Nat → Option (Nat × Nat)
  | 0, _ => none
  | n + 1, pos =>
    if pos ≥ 4 * (rbits s (reg .TILE_DQ_CFG t) 2 1 + 1) then none
    else match probeTile t pos with
      | some v => if tileState s v = 4 then nextProbe s t n (pos + 1) else some (pos, v)
      | none => nextProbe s t n (pos + 1)

/-- The longest wait of a tile (R205, R219). -/
def backoffLimit (s : State) (t : Nat) : Nat := 64 * 2 ^ min 10 (rbits s (reg .TILE_DQ_CFG t) 11 8)

/-- A round that ended with no descriptor: the tile waits, and the next wait doubles up to its limit (R205). -/
def emptyRound (t : Nat) (s : State) : State :=
  let lim := backoffLimit s t
  modTile t (fun x => { x with steal := { x.steal with
    active := false, pos := 0, victim := none, answer := none, waiting := true, wait := min lim (x.steal.wait * 2) } }) s

/-- STEAL_ROUND (R203, R205): an idle tile without eligible work starts a round of probes. -/
def execStealRound (t : Nat) (s : State) : Out :=
  .next (
    let x := tileOf s t
    if maySteal s t && !x.steal.active && !x.steal.waiting then
      modTile t (fun x => { x with steal := { x.steal with active := true, pos := 0, victim := none, answer := none } }) s
    else s)

/-- The victim may hand entry e to the thief (R204). -/
def handsOver (s : State) (thief victim : Nat) (e : DqEntry) : Bool :=
  (dAffinity e.words == 2 || (dAffinity e.words == 1 && decide (gridDist thief victim ≤ dRadius e.words))) &&
  (tileOf s victim).eligible e

/-- The pair of tiles allows a steal: tags, heat slice, victim state (R53, R204, R218). -/
def stealPair (s : State) (thief victim : Nat) : Bool :=
  rget s (reg .TILE_SEQ_CODE_TAG thief) == rget s (reg .TILE_SEQ_CODE_TAG victim) && !isHeat s thief && !isHeat s victim &&
  decide (tileState s victim ≤ 1)

/-- The victim's steal summary admits the thief (R206). -/
def summaryAdmits (s : State) (thief victim : Nat) : Bool :=
  let m := (tileOf s victim).summary
  m.1 || decide (gridDist thief victim ≤ m.2)

/-- STEAL_PROBE (R204 to R206): the next victim of the round is probed and answers with its far-end entry or "none". -/
def execStealProbe (t : Nat) (s : State) : Out :=
  .next (
    let x := tileOf s t
    if !(maySteal s t && x.steal.active && x.steal.answer.isNone) then s else
    match nextProbe s t 17 x.steal.pos with
    | none => emptyRound t s
    | some (pos, v) =>
      let s := pmcCount t 25 1 s
      let y := tileOf s v
      let pick := if stealPair s t v && summaryAdmits s t v then
          (List.range y.dq.length).find? (fun k => handsOver s t v (nth {words := []} y.dq k)) else none
      let ans := pick.map (fun k => nth {words := []} y.dq k)
      let s := match pick with
        | some k => rcount (reg .TILE_STOLEN v) 48 1 (modTile v (fun y => y.take k true) s)
        | none => s
      modTile t (fun x => { x with steal := { x.steal with pos := pos + 1, victim := some v, answer := some ans } }) s)

/-- STEAL_ANSWER (R205 to R207, R214): the stolen descriptor runs on the thief, or the round goes on or ends empty. -/
def execStealAnswer (t : Nat) (s : State) : Out :=
  .next (
    let x := tileOf s t
    if !running s || 1 < tileState s t then s else
    match x.steal.answer, x.steal.victim with
    | some (some e), some v =>
      let s := pmcCount t 26 1 (rcount (reg .TILE_STEALS t) 48 1 s)
      beginEntry t e v true (modTile t (fun x => { x with steal := {} }) s)
    | some none, _ =>
      let s := rcount (reg .TILE_STEAL_MISS t) 48 1 s
      if (nextProbe s t 17 x.steal.pos).isSome then
        modTile t (fun x => { x with steal := { x.steal with victim := none, answer := none } }) s
      else emptyRound t s
    | _, _ => s)

/-- STEAL_BACKOFF_EXPIRY (R205): the wait after an empty round ends. -/
def execStealBackoffExpiry (t : Nat) (s : State) : Out :=
  .next (if (tileOf s t).steal.waiting then modTile t (fun x => { x with steal := { x.steal with waiting := false } }) s else s)

end Sys2Proof.Machine
end

