-- ==== Sys2Proof/Machine/Scalar.lean ====
section
/-! DEFINITION. Control and scalar instructions (R48, R54 to R58, R60, R63 to R67) and the end of a descriptor (R54, R55, R86). -/

namespace Sys2Proof.Machine
open Sys2Proof

/-! ### Control -/

/-- Every opcode of the opcode map (R60). -/
def definedOps : List Nat :=
  [0x00, 0x01, 0x02, 0x03, 0x04, 0x05, 0x06, 0x08, 0x09, 0x0A, 0x0B, 0x0C, 0x0D, 0x0E, 0x0F, 0x10, 0x12, 0x13, 0x15, 0x16, 0x17,
   0x18, 0x19, 0x1A, 0x1B, 0x1C, 0x1D] ++ [0x20, 0x21, 0x22, 0x23, 0x24, 0x40, 0x41, 0x42, 0x43, 0x60, 0x61] ++
  [0x80, 0x81, 0x82, 0x83, 0x84, 0x85, 0x88, 0x89, 0x8A, 0x8B, 0x8C, 0x8D, 0x8E, 0x90, 0x94, 0x98, 0x99, 0xA0, 0xA8, 0xA9] ++
  [0xC0, 0xC1, 0xC2, 0xC3, 0xC4, 0xC5, 0xC6, 0xC7, 0xD0, 0xD1, 0xD8, 0xD9, 0xE0, 0xE1]

/-- ILLEGAL_OPCODE (R56, R60): an undefined opcode, a second word reached as a first word, or a missing second word.
Words that spell a defined instruction are no such event. -/
def execIllegalOpcode (t : Nat) (w0 w1 : Word) (s : State) : Out :=
  let op := bits w0 63 56
  .next (if definedOps.contains op && !(isTwoWord op && !isSecond w1) then s
    else if isTwoWord op then issue t (w0.truncate 56) false { words := 2, opc := op } (fun _ s => .done s) s
    else
      let x := tileOf s t
      if !(running s && x.seq = .running) then s
      else if x.pcOutside x.pc then raiseFault t { code := fCODE_RANGE, pc := x.pc } s
      else if (x.fetched 0).2 then raiseFault t { code := fPOISON, pc := x.pc } s
      else raiseFault t { code := fILLEGAL, pc := x.pc } s)

/-- NOP (R60). -/
def execNop (t : Nat) (w : BitVec 56) (s : State) : Out :=
  .next (issue t w true (formJ 0x00 w) (fun _ s => .done s) s)

/-- END (R54): the descriptor issues nothing more. -/
def execEndProg (t : Nat) (w : BitVec 56) (s : State) : Out :=
  .next (issue t w true (formJ 0x01 w) (fun _ s => .ends s) s)

/-- The byte offset B + 8 × sext(imm) as a 64-bit value (R60). -/
def brTarget (pc imm : Nat) : Nat := (w64 pc + sext32 imm * 8#64).toNat

/-- BR (R60, R65). -/
def execBr (t : Nat) (w : BitVec 56) (s : State) : Out :=
  .next (issue t w true (formJ 0x02 w) (fun h s => .jump (brTarget h.pc (fImm w)) s) s)

/-- JR (R60, R65). -/
def execJr (t : Nat) (w : BitVec 56) (s : State) : Out :=
  .next (issue t w true (formJ 0x03 w false [fSa w]) (fun _ s => .jump ((tileOf s t).sr (fSa w)).toNat s) s)

/-- LOOP (R66). A count of 0 skips the body also where both levels are active (DESIGN CHOICE, log 84). -/
def execLoop (t : Nat) (w : BitVec 56) (s : State) : Out :=
  .next (issue t w true (formJ 0x04 w (bits w 31 8 != 0) [fSa w]) (fun h s =>
    let x := tileOf s t
    let n := bits w 7 0 + 1
    let c := (x.sr (fSa w)).toNat
    if x.endsInside n (h.pc + 8) then .fault fRESERVED 0 0 s
    else if c > 65535 then .fault fRESERVED 0 0 s
    else if c = 0 then .skip (1 + n) s
    else if x.loops.length ≥ 2 then .fault fLOOP_DEPTH 0 0 s
    else .done (modTile t (fun x => { x with loops := { start := h.pc + 8, stop := h.pc + 8 + 8 * n, left := c - 1 } :: x.loops }) s)) s)

/-- FAULT (R67). -/
def execSwFault (t : Nat) (w : BitVec 56) (s : State) : Out :=
  .next (issue t w true (formJ 0x05 w (bits w 31 16 != 0)) (fun _ s => .fault fSOFTWARE 0 (bits w 15 0) s) s)

/-- A special register (R48); EPOCH is the die's copy of the counter (R327). -/
def specialReg (t i : Nat) (s : State) : Option Word :=
  let x := tileOf s t
  let r := x.run.getD (Run.mk [] t 0 false)
  match i with
  | 0 => some (w64 r.home)
  | 1 => some (w64 t)
  | 2 => some (w64 (SMap.get 0 s.ep.cyc (dieOfTile t)))
  | 3 => some (dieEpoch s (dieOfTile t))
  | 4 => some (w64 (dGroup r.words))
  | 5 => some (w64 (dAffinity r.words))
  | 6 => some (w64 (b2n (isHeat s t)))
  | 16 => some (w64 (x.lc false))
  | 17 => some (w64 (x.lc true))
  | _ => none

/-- The indices of R48. -/
def specialIdx : List Nat := [0, 1, 2, 3, 4, 5, 6, 16, 17]

/-- MFS (R48): an index not in the table is a reserved-field fault. -/
def execMfs (t : Nat) (w : BitVec 56) (s : State) : Out :=
  .next (issue t w true { formS 0x06 w (!specialIdx.contains (bits w 5 0)) with rs := [fSd w] } (fun _ s =>
    match specialReg t (bits w 5 0) s with
    | some v => .done (modTile t (fun x => x.setS (fSd w) v) s)
    | none => .done s) s)

/-! ### Arithmetic and logic -/

/-- A format-S instruction whose result is a function of s[sa], op2 and s[sd]. -/
def scalarOp (t opc : Nat) (w : BitVec 56) (bad : Bool) (f : Word → Word → Word → Word) (s : State) : State :=
  issue t w true (formS opc w bad) (fun _ s =>
    let x := tileOf s t
    .done (modTile t (fun x' => x'.setS (fSd w) (f (x.sr (fSa w)) (op2 x w) (x.sr (fSd w)))) s)) s

/-- ADD (R60, R63). -/
def execAdd (t : Nat) (w : BitVec 56) (s : State) : Out := .next (scalarOp t 0x08 w false (fun a b _ => a + b) s)
/-- SUB (R60, R63). -/
def execSub (t : Nat) (w : BitVec 56) (s : State) : Out := .next (scalarOp t 0x09 w false (fun a b _ => a - b) s)
/-- AND (R60). -/
def execAndd (t : Nat) (w : BitVec 56) (s : State) : Out := .next (scalarOp t 0x0A w false (fun a b _ => a &&& b) s)
/-- OR (R60). -/
def execOrr (t : Nat) (w : BitVec 56) (s : State) : Out := .next (scalarOp t 0x0B w false (fun a b _ => a ||| b) s)
/-- XOR (R60). -/
def execXorr (t : Nat) (w : BitVec 56) (s : State) : Out := .next (scalarOp t 0x0C w false (fun a b _ => a ^^^ b) s)
/-- SHL (R60): by op2[5:0]. -/
def execShl (t : Nat) (w : BitVec 56) (s : State) : Out := .next (scalarOp t 0x0D w false (fun a b _ => a <<< bits b 5 0) s)
/-- SHR (R60). -/
def execShr (t : Nat) (w : BitVec 56) (s : State) : Out := .next (scalarOp t 0x0E w false (fun a b _ => a >>> bits b 5 0) s)
/-- SRA (R60). -/
def execSra (t : Nat) (w : BitVec 56) (s : State) : Out := .next (scalarOp t 0x0F w false (fun a b _ => a.sshiftRight (bits b 5 0)) s)
/-- MUL (R60): low 64 bits of the product. -/
def execMul (t : Nat) (w : BitVec 56) (s : State) : Out := .next (scalarOp t 0x10 w false (fun a b _ => a * b) s)
/-- MIN, signed (R60). -/
def execMinS (t : Nat) (w : BitVec 56) (s : State) : Out := .next (scalarOp t 0x12 w false (fun a b _ => if a.slt b then a else b) s)
/-- MAX, signed (R60). -/
def execMaxS (t : Nat) (w : BitVec 56) (s : State) : Out := .next (scalarOp t 0x13 w false (fun a b _ => if a.slt b then b else a) s)
/-- LIH (R60): im must be 1. -/
def execLih (t : Nat) (w : BitVec 56) (s : State) : Out :=
  .next (scalarOp t 0x15 w (!fIm w) (fun a _ _ => (a &&& 0xFFFFFFFF#64) ||| (w64 (fImm w) <<< 32)) s)

/-- CMP (R64). -/
def execCmp (t : Nat) (w : BitVec 56) (s : State) : Out :=
  .next (issue t w true { bad := badCond (qCc w) || bits w 33 32 != 0, rs := qSa w :: (if qIm w then [] else [qSb w]), rp := [qPd w], opc := 0x16 } (fun _ s =>
    let x := tileOf s t
    let b := if qIm w then sext32 (fImm w) else x.sr (qSb w)
    .done (modTile t (fun x' => x'.setP (qPd w) (condWord (qCc w) (x.sr (qSa w)) b)) s)) s)

/-- PLOG (R64). -/
def execPlog (t : Nat) (w : BitVec 56) (s : State) : Out :=
  .next (issue t w true { bad := bits w 42 40 == 7 || bits w 39 0 != 0, rp := [qPd w, bits w 48 46, bits w 45 43], opc := 0x17 } (fun _ s =>
    let x := tileOf s t
    .done (modTile t (fun x' => x'.setP (qPd w) (logicFn (bits w 42 40) (x.pr (bits w 48 46)) (x.pr (bits w 45 43)))) s)) s)

/-- The FP32 value in bits [31:0], and a result with bits [63:32] zero (R63). -/
def lo32 (a : Word) : Half := a.truncate 32
def zx32 (h : Half) : Word := h.zeroExtend 64

/-- FADD (R63). -/
def execFadd (t : Nat) (w : BitVec 56) (s : State) : Out := .next (scalarOp t 0x18 w false (fun a b _ => zx32 (fadd (lo32 a) (lo32 b))) s)
/-- FMUL (R63). -/
def execFmul (t : Nat) (w : BitVec 56) (s : State) : Out := .next (scalarOp t 0x19 w false (fun a b _ => zx32 (fmul (lo32 a) (lo32 b))) s)
/-- FMA (R60, R63): im must be 0. -/
def execFma (t : Nat) (w : BitVec 56) (s : State) : Out :=
  .next (scalarOp t 0x1A w (fIm w) (fun a b d => zx32 (ffma (lo32 a) (lo32 b) (lo32 d))) s)

/-- FCVT's two directions (R63). -/
def fcvt (dir : Nat) (a : Word) : Word :=
  if dir = 0 then zx32 (toF32 .even (Num.ofInt a.toInt))
  else BitVec.ofInt 64 (toIntClamp .even (-(2 ^ 63 : Nat)) ((2 ^ 63 : Nat) - 1) (f32 (lo32 a)))

/-- FCVT (R60, R63): the sb field is a direction code, 2 to 31 reserved; im must be 0. -/
def execFcvt (t : Nat) (w : BitVec 56) (s : State) : Out :=
  .next (issue t w true { formS 0x1B w (fIm w || decide (1 < fSb w)) with rs := [fSd w, fSa w] } (fun _ s =>
    let x := tileOf s t
    .done (modTile t (fun x' => x'.setS (fSd w) (fcvt (fSb w) (x.sr (fSa w)))) s)) s)

/-- AADDR (R60). -/
def execAaddr (t : Nat) (w : BitVec 56) (s : State) : Out :=
  .next (issue t w true { bad := bits w 34 32 != 0 || aDir w, rs := [aSs w], opc := 0x1C } (fun _ s =>
    let x := tileOf s t
    .done (modTile t (fun x' => x'.setA (aAd w) (x.ar (aAs w) + (x.sr (aSs w) <<< aSh w) + sext32 (fImm w))) s)) s)

/-- MOVA (R60). -/
def execMova (t : Nat) (w : BitVec 56) (s : State) : Out :=
  .next (issue t w true { bad := bits w 34 32 != 0, rs := [aSs w], opc := 0x1D } (fun _ s =>
    let x := tileOf s t
    .done (modTile t (fun x' => if aDir w then x'.setS (aSs w) (x.ar (aAs w)) else x'.setA (aAd w) (x.sr (aSs w))) s)) s)

/-! ### The end of a descriptor -/

/-- The run of a tile is over: its sequencer is idle (R54, R86). -/
def endRun (t : Nat) (s : State) : State := modTile t (fun x => { x with seq := .idle, run := none, loops := [] }) s

/-- END_RETIREMENT (R54, R55, R213): with everything complete the descriptor ends; a regional or free one with an open
group faults. -/
def execEndRetirement (t : Nat) (s : State) : Out :=
  .next (
    let x := tileOf s t
    if !(running s && x.seq = .ending && x.drained) then s else
    let ws := (x.run.getD (Run.mk [] t 0 false)).words
    if dAffinity ws ≠ 0 && x.groups.any (fun g => g.owner == x.runNo) then raiseFault t { code := fOPEN_GROUP, pc := x.pc } s
    else
      let s := endRun t s
      let gid := dGroup ws
      if gid = 0xFFFF then s else memberDone (gid % 16) t s)

/-- The failure record of a descriptor (R209, R411) and its asynchronous frames (R383). -/
def failureRecord (exec home ring : Nat) (ws : List Word) (f : FaultInfo) (s : State) : State :=
  let idx := rbits s (reg .ERR_HEAD) 17 0
  let ep := coxEpoch s
  let w0 := nth 0#64 ws 0
  let w1 := nth 0#64 ws 1
  let hasAddr := f.code == fMISALIGNED || f.code == fADDRESS || f.code == fPROTECTED
  let s := errWrite [w64 (0x0E01 + 2 * 2 ^ 16 + dieOfTile exec * 2 ^ 24 + exec * 2 ^ 32), ep, w64 (f.code % 256 + (f.pc % 2 ^ 18) * 2 ^ 8),
    w64 (home % 2048 + (exec % 2048) * 2 ^ 16 + (ring % 8) * 2 ^ 32), w0, w1, if hasAddr then w64 (f.addr % 2 ^ 48) else 0#64, 0#64] s
  asyncQueue (cplOf s ring)
    [w64 (0x20 * 2 ^ 16 + 2 ^ 25 + 2 ^ 27), w64 ((f.code % 256 + (f.pc % 2 ^ 18) * 2 ^ 8) * 2 ^ 32), w0, ep,
     w64 (0x20 * 2 ^ 16 + 2 ^ 25), w64 ((home % 2048 + (exec % 2048) * 2 ^ 16) * 2 ^ 32), w1, w64 idx] s

/-- Record a fault in the sequencer's registers (R86, R87). A code other than SOFTWARE leaves 0 in bits 47:32
(DESIGN CHOICE, log 81). -/
def recordFault (t : Nat) (f : FaultInfo) (s : State) : State :=
  let s := rset (reg .TILE_SEQ_FAULT t) (w64 (f.code % 256 + (f.pc % 2 ^ 18) * 2 ^ 8 + (if f.code = fSOFTWARE then (f.sw % 65536) * 2 ^ 32 else 0) + 2 ^ 63)) s
  let s := if f.code = fMISALIGNED || f.code = fADDRESS || f.code = fPROTECTED then rset (reg .TILE_SEQ_FAULT_ADDR t) (w64 (f.addr % 2 ^ 48)) s else s
  rcount (reg .TILE_SEQ_FAULTS t) 48 1 s

/-- Report a failed descriptor: record, frames, abort of its commit group (R86, R209). `started` tells a member that ran. -/
def failDescriptor (t home ring : Nat) (ws : List Word) (started : Bool) (f : FaultInfo) (s : State) : State :=
  let s := failureRecord t home ring ws f s
  let gid := dGroup ws
  if gid = 0xFFFF || cgGen s (gid % 16) ≠ gid / 16 || cgState s (gid % 16) = 4 then s
  else if started then memberFail (gid % 16) t (dSeq ws) s
  else abortGroup (gid % 16) 1 t (dSeq ws) s

/-- With the begun instructions of a faulted descriptor complete, its groups are discarded, the fault recorded, the descriptor failed
(R86). -/
def descriptorFailure (t : Nat) (s : State) : State :=
  let x := tileOf s t
  match x.seq with
  | .faulted f =>
    if !x.drained then s else
    let r := x.run.getD (Run.mk [] t 0 false)
    let s := modTile t (fun x => { (x.groups.filter (fun g => g.owner == x.runNo)).foldl (fun x g => x.clearPoison g.arr g.first g.cnt) x with
      groups := x.groups.filter (fun g => g.owner != x.runNo) }) s
    let s := recordFault t f s
    failDescriptor t r.home r.ring r.words true f (endRun t s)
  | _ => s

/-- DESCRIPTOR_FAILURE (R86). -/
def execDescriptorFailure (t : Nat) (s : State) : Out := .next (descriptorFailure t s)

end Sys2Proof.Machine
end

