-- ==== Sys2Proof/Machine/Move.lean ====
section
/-! DEFINITION. Scalar loads and stores and block moves (R68 to R72). -/

namespace Sys2Proof.Machine
open Sys2Proof

/-- A refused access into another tile is recorded there (R43, R69). -/
def recRefusal (t : Nat) (sp : Bool) (code a : Nat) (write : Bool) (s : State) : State :=
  if sp && winBase ≤ a && code = fPROTECTED && (a - winBase) / 0x100000 ≠ t then recDiscarded (.tile t) a ((a - winBase) / 0x100000) s
  else if code = fABSENT then recUnmapped (.tile t) a write s
  else s

/-- Count a tile's stack read request by class (R414). -/
def countStackRead (t : Nat) (sp : Bool) (a cls : Nat) (s : State) : State :=
  match resolve s t sp a with
  | .ok (.stk _) => pmcCount t (if cls = 0 then 23 else 24) 1 s
  | _ => s

/-- The access waits: for a stack at its critical step (R241), or for a tile in MAP_HOLD (R30). -/
def accessWaits (s : State) (t : Nat) (sp : Bool) (a n : Nat) : Bool :=
  match resolve s t sp a with
  | .ok (.stk b) => stkWaits s b n
  | .ok (.win i _) => tileState s i == 2
  | .error _ => false

/-- The value of loaded bytes, zero- or sign-extended (R59). -/
def extend (n : Nat) (sx : Bool) (bs : List Byte) : Word :=
  if sx then BitVec.ofInt 64 (toSigned (8 * n) (leNat bs)) else leWord bs

/-- LDS (R68, R70): checked and read in program order; the register is written when the data arrives. Its stack reads are class 0 (log 15). -/
def execLds (t : Nat) (w : BitVec 56) (s : State) : Out :=
  .next (issue t w true { bad := bits w 38 32 != 0, rs := [lSt w], opc := 0x20, opnd := some (lSp w, lAddr (tileOf s t) w) } (fun h s =>
    let x := tileOf s t
    let a := lAddr x w
    let n := lSize w
    if a % n ≠ 0 then .fault fMISALIGNED a 0 s
    else match rangeFault s t (lSp w) a n false with
      | some (c, b) => .fault c b 0 (recRefusal t (lSp w) c b false s)
      | none =>
        if accessWaits s t (lSp w) a n then .stall else
        let (d, s) := tileRead t (lSp w) a n 0 (countStackRead t (lSp w) a 0 s)
        .done (modTile t (fun x => { x with loads := x.loads ++ [{ hdr := h, st := lSt w, v := extend n (lSx w) (rawBytes d), poisoned := anyPoison d }] }) s)) s)

/-- LDS_DATA_ARRIVAL (R70): the oldest load writes its register, or faults on poison. -/
def execLdsDataArrival (t : Nat) (s : State) : Out :=
  .next (
    match (tileOf s t).loads with
    | [] => s
    | l :: ls =>
      let s := modTile t (fun x => { x with loads := ls }) s
      if l.poisoned then unitFault t l.hdr { code := fPOISON } s
      else modTile t (fun x => x.setS l.st l.v) s)

/-- STS (R69, R70): the low bytes of s[st] are written; the acknowledgement completes it. -/
def execSts (t : Nat) (w : BitVec 56) (s : State) : Out :=
  .next (issue t w true { bad := bits w 38 32 != 0 || lSx w, rs := [lSt w], opc := 0x21, opnd := some (lSp w, lAddr (tileOf s t) w) } (fun h s =>
    let x := tileOf s t
    let a := lAddr x w
    let n := lSize w
    if a % n ≠ 0 then .fault fMISALIGNED a 0 s
    else match rangeFault s t (lSp w) a n true with
      | some (c, b) => .fault c b 0 (recRefusal t (lSp w) c b true s)
      | none =>
        if accessWaits s t (lSp w) a n then .stall else
        let s := tileWriteU t (lSp w) a (cleanBytes (leBytes n (x.sr (lSt w)).toNat)) s
        .done (modTile t (fun x => { x with stores := x.stores ++ [h] }) s)) s)

/-! ### Block moves (R71, R72) -/

/-- Depth of a unit queue (R81). -/
def queueDepth : Nat := 8

/-- Queue a move, or stall on a full queue (R81). -/
def queueMove (t : Nat) (h : Hdr) (k : MoveKind) (s : State) : Issued :=
  if (tileOf s t).move.length ≥ queueDepth then .stall
  else .done (modTile t (fun x => { x with move := x.move ++ [{ hdr := h, kind := k }] }) s)

/-- A length outside the rules of R71. -/
def badLen (n : Nat) : Bool := n % 8 != 0 || decide (0xFFFF8 < n)

/-- COPY (R71). -/
def execCopy (t : Nat) (w : BitVec 56) (s : State) : Out :=
  .next (issue t w true
    { bad := bits w 29 20 != 0 || (if mSl w = 0 then mLen w == 0 || badLen (mLen w) else mLen w != 0), rs := [mSl w], post := mPost w, opc := 0x22, unit := 1,
      opnd := some (mSsp w, (tileOf s t).addr (mAs w)) } (fun h s =>
    let x := tileOf s t
    let n := if mSl w = 0 then mLen w else (x.sr (mSl w)).toNat
    if badLen n then .fault fRESERVED 0 0 s
    else if n = 0 then .done (post t h s)
    else queueMove t h (.block (mDsp w) (x.addr (mAd w)) (mSsp w) (x.addr (mAs w)) n 1 0 0 (mPri w)) s) s)

/-- COPY2D (R71): sl names four registers, 4, 8, …, 28, and len is 0. A value that is no multiple of 8 faults also where the row length or row
count is 0 (DESIGN CHOICE, log 85). -/
def execCopy2d (t : Nat) (w : BitVec 56) (s : State) : Out :=
  .next (issue t w true
    { bad := bits w 29 20 != 0 || mLen w != 0 || mSl w % 4 != 0 || mSl w == 0, rs := [mSl w, mSl w + 1, mSl w + 2, mSl w + 3], post := mPost w,
      opc := 0x23, unit := 1, opnd := some (mSsp w, (tileOf s t).addr (mAs w)) } (fun h s =>
    let x := tileOf s t
    let n := (x.sr (mSl w)).toNat
    let rows := (x.sr (mSl w + 1)).toNat
    let ss := (x.sr (mSl w + 2)).toNat
    let ds := (x.sr (mSl w + 3)).toNat
    if n % 8 ≠ 0 || rows % 8 ≠ 0 || ss % 8 ≠ 0 || ds % 8 ≠ 0 || n * rows > 0xFFFF8 then .fault fRESERVED 0 0 s
    else if n * rows = 0 then .done (post t h s)
    else queueMove t h (.block (mDsp w) (x.addr (mAd w)) (mSsp w) (x.addr (mAs w)) n rows ss ds (mPri w)) s) s)

/-- FILL (R71): as and ssp 0; len gives the length. -/
def execFill (t : Nat) (w : BitVec 56) (s : State) : Out :=
  .next (issue t w true
    { bad := bits w 29 20 != 0 || mAs w != 0 || mSsp w || mLen w == 0 || badLen (mLen w), rs := [mSl w], post := mPost w, opc := 0x24, unit := 1,
      opnd := some (mDsp w, (tileOf s t).addr (mAd w)) } (fun h s =>
    let x := tileOf s t
    queueMove t h (.fill (mDsp w) (x.addr (mAd w)) (mLen w) (x.sr (mSl w))) s) s)

/-- Row addresses of a move: 48-bit (R46). -/
def rowAddrs (base rows stride : Nat) : List Nat := (List.range rows).map (fun i => (base + i * stride) % 2 ^ 48)

/-- The alignment and address faults of one row of a move. -/
def rowFault (s : State) (t : Nat) (sp : Bool) (a n : Nat) (write : Bool) : Option (Nat × Nat) :=
  if a % 8 ≠ 0 then some (fMISALIGNED, a) else rangeFault s t sp a n write

/-- Destination bytes that overlap a source byte hold free values (R71). -/
def overlapBytes (s : State) (t : Nat) (ssp : Bool) (srcs : List Nat) (dsp : Bool) (d n : Nat) (data : PBytes) : PBytes :=
  let hits := fun (l : Loc) => srcs.any (fun a => match resolve s t ssp a, l with
    | .ok (.win i o), .win j p => i == j && decide (o ≤ p) && decide (p < o + n)
    | .ok (.stk b), .stk c => decide (b ≤ c) && decide (c < b + n)
    | _, _ => false)
  (List.range n).map (fun i =>
    let old := nth (0#8, false) data i
    match resolve s t dsp d with
    | .ok (.win j p) => if hits (.win j (p + i)) then (Config.freeByte s.fresh i, old.2) else old
    | .ok (.stk c) => if hits (.stk (c + i)) then (Config.freeByte s.fresh i, old.2) else old
    | .error _ => old)

/-- Move the rows of a block in increasing order (R71). -/
def moveRows (t sn : Nat) (dsp ssp : Bool) (n pri : Nat) (srcs : List Nat) : List (Nat × Nat) → State → State
  | [], s => s
  | (a, d) :: rs, s =>
    let (data, s) := tileRead t ssp a n pri (countStackRead t ssp a pri s)
    let data := overlapBytes s t ssp srcs dsp d n data
    moveRows t sn dsp ssp n pri srcs rs (notePoisoned t sn (anyPoison data) { tileWriteU t dsp d data s with fresh := s.fresh + 1 })

/-- How many rows of a move come before the first that faults (R71; log 21). -/
def goodRows (s : State) (t : Nat) (dsp ssp : Bool) (n : Nat) : List (Nat × Nat) → Nat
  | [] => 0
  | (a, d) :: ps => if (rowFault s t ssp a n false).isSome || (rowFault s t dsp d n true).isSome then 0 else goodRows s t dsp ssp n ps + 1

/-- BLOCK_MOVE_COMPLETION (R71, R72): the oldest store is acknowledged, or the oldest block move has written every byte,
completes and posts; an address fault of a row is found in the unit, with the rows before it written (DEDUCED, log 21). -/
def execBlockMoveCompletion (t : Nat) (store : Bool) (s : State) : Out :=
  .next (
    let x := tileOf s t
    if store then
      match x.stores with
      | [] => s
      | h :: hs => post t h (setTile t { x with stores := hs } s)
    else match x.move with
      | { hdr := h, kind := .block dsp dst ssp src n rows sStr dStr pri } :: ms =>
        let srcs := rowAddrs src rows sStr
        let dsts := rowAddrs dst rows dStr
        let pop := modTile t (fun x => { x with move := ms })
        let k := goodRows s t dsp ssp n (srcs.zip dsts)
        if ((srcs.zip dsts).take k).any (fun p => accessWaits s t ssp p.1 n || accessWaits s t dsp p.2 n) then s else
        let s := moveRows t h.sn dsp ssp n pri srcs ((srcs.zip dsts).take k) (pop s)
        match (srcs.zip dsts).drop k with
        | [] => post t h s
        | (a, d) :: _ =>
          match rowFault s t ssp a n false, rowFault s t dsp d n true with
          | some (c, b), _ => unitFault t h { code := c, addr := b } (recRefusal t ssp c b false s)
          | none, some (c, b) => unitFault t h { code := c, addr := b } (recRefusal t dsp c b true s)
          | none, none => post t h s
      | { hdr := h, kind := .fill dsp dst n pat } :: ms =>
        let pop := modTile t (fun x => { x with move := ms })
        match rowFault s t dsp dst n true with
        | some (c, a) => unitFault t h { code := c, addr := a } (recRefusal t dsp c a true (pop s))
        | none =>
          if accessWaits s t dsp dst n then s
          else post t h (tileWriteU t dsp dst (cleanBytes ((List.replicate (n / 8) (leBytes 8 pat.toNat)).flatten)) (pop s))
      | _ => s)

end Sys2Proof.Machine
end

