-- ==== Sys2Proof/Machine/Sync.lean ====
section
/-! DEFINITION. Sync, atomic, steal and commit instructions (R73 to R79) and the events that complete them. -/

namespace Sys2Proof.Machine
open Sys2Proof

/-- FENCE (R75). -/
def execFence (t : Nat) (w : BitVec 56) (s : State) : Out :=
  .next (issue t w true { bad := bits w 51 0 != 0, opc := 0xC0 } (fun _ s =>
    if (tileOf s t).drained then .done s else .wait .fence s) s)

/-- FENCE_RELEASE (R75): every earlier instruction has completed. -/
def execFenceRelease (t : Nat) (s : State) : Out :=
  .next (
    let x := tileOf s t
    if running s && x.seq = .waiting .fence && x.drained then setTile t { x with seq := .running } s else s)

/-- WAITK (R73, R74); n = 0 faults with RESERVED_FIELD (DESIGN CHOICE, log 86). -/
def execWaitk (t : Nat) (w : BitVec 56) (s : State) : Out :=
  .next (issue t w true { bad := bits w 31 0 != 0 || bits w 47 32 == 0, opc := 0xC1 } (fun _ s =>
    let x := tileOf s t
    let k := bits w 51 48
    let n := bits w 47 32
    if n ≤ x.kr k then .done (modTile t (fun x => x.setK k (x.kr k - n)) s) else .wait (.counter k n) s) s)

/-- WAITK_RELEASE (R74): the counter has reached n, which is subtracted. -/
def execWaitkRelease (t : Nat) (s : State) : Out :=
  .next (
    let x := tileOf s t
    match x.seq with
    | .waiting (.counter k n) =>
      if running s && n ≤ x.kr k then setTile t { x.setK k (x.kr k - n) with seq := .running } s else s
    | _ => s)

/-- POSTK (R73, R74); n = 0 faults with RESERVED_FIELD (DESIGN CHOICE, log 86). -/
def execPostk (t : Nat) (w : BitVec 56) (s : State) : Out :=
  .next (issue t w true { bad := bits w 31 0 != 0 || bits w 47 32 == 0, opc := 0xC2 } (fun _ s =>
    let k := bits w 51 48
    let v := (tileOf s t).kr k + bits w 47 32
    if v > 65535 then .fault fCOUNTER 0 0 s else .done (modTile t (fun x => x.setK k v) s)) s)

/-- RDK (R73, R74). -/
def execRdk (t : Nat) (w : BitVec 56) (s : State) : Out :=
  .next (issue t w true { bad := bits w 42 0 != 0, rs := [fSd w], opc := 0xC7 } (fun _ s =>
    .done (modTile t (fun x => x.setS (fSd w) (w64 (x.kr (bits w 46 43)))) s)) s)

/-- The data store of a tile holds the 8-byte word at a window offset. -/
def inDataStore (a : Nat) : Bool := decide (0x80000 ≤ a) && decide (a < 0xC0000)

/-- WAITW (R73, R76). -/
def execWaitw (t : Nat) (w : BitVec 56) (s : State) : Out :=
  .next (issue t w true { bad := bits w 30 0 != 0 || !([0, 1, 6, 9].contains (bits w 48 45)), rs := [bits w 40 36, bits w 35 31], rp := [bits w 51 49], opc := 0xC3 } (fun h s =>
    let x := tileOf s t
    let a := x.addr (bits w 44 41)
    let v := x.sr (bits w 40 36)
    if a % 8 ≠ 0 then .fault fMISALIGNED a 0 s
    else if !inDataStore a then .fault fADDRESS a 0 s
    else if x.wordPoison a then .fault fPOISON 0 0 (meetWords t a 8 s)
    else if intCond (bits w 48 45) (x.word a) v then .done (modTile t (fun x => x.setP (bits w 51 49) true) s)
    else .wait (.word (bits w 51 49) (bits w 48 45) a v (x.sr (bits w 35 31)) h.pc) s) s)

/-- WAITW_SATISFIED (R76): after a write the condition holds, or the word is delivered poisoned. -/
def execWaitwSatisfied (t : Nat) (s : State) : Out :=
  .next (
    let x := tileOf s t
    match x.seq with
    | .waiting (.word pd cc a v _ pc) =>
      if !running s then s
      else if x.wordPoison a then raiseFault t { code := fPOISON, pc := pc } (meetWords t a 8 s)
      else if intCond cc (x.word a) v then setTile t { x.setP pd true with seq := .running } s
      else s
    | _ => s)

/-- WAITW_TIMEOUT (R76): the timeout of a WAITW that has one passes. -/
def execWaitwTimeout (t : Nat) (s : State) : Out :=
  .next (
    let x := tileOf s t
    match x.seq with
    | .waiting (.word pd _ _ _ tmo _) => if running s && tmo ≠ 0#64 then setTile t { x.setP pd false with seq := .running } s else s
    | _ => s)

/-! ### Atomics (R77) -/

/-- Issue of an atomic: op 0 AADD, 1 ASWAP, 2 ACAS. The word must lie in a data store; the own code region is protected (log 16). -/
def issueAtomic (t opc op : Nat) (w : BitVec 56) (s : State) : State :=
  issue t w true { bad := bits w 31 0 != 0 || (op != 2 && bits w 37 33 != 0), rs := [fSd w, bits w 42 38] ++ (if op = 2 then [bits w 37 33] else []), opc := opc, unit := 1, opnd := some (bit w 32, (tileOf s t).addr (bits w 46 43)) } (fun h s =>
    let x := tileOf s t
    let a := x.addr (bits w 46 43)
    if a % 8 ≠ 0 then .fault fADDRESS a 0 s
    else match resolve s t (bit w 32) a with
      | .error c => .fault c a 0 (recRefusal t (bit w 32) c a true s)
      | .ok (.stk _) => .fault fADDRESS a 0 s
      | .ok (.win i o) =>
        if !inDataStore o then .fault fADDRESS a 0 s
        else if i = t && x.inCode o then .fault fPROTECTED a 0 s
        else queueMove t h (.atomic op (fSd w) i o (x.sr (bits w 42 38)) (x.sr (bits w 37 33)) none) s) s

/-- AADD (R77). -/
def execAadd (t : Nat) (w : BitVec 56) (s : State) : Out := .next (issueAtomic t 0xC4 0 w s)
/-- ASWAP (R77). -/
def execAswap (t : Nat) (w : BitVec 56) (s : State) : Out := .next (issueAtomic t 0xC5 1 w s)
/-- ACAS (R77). -/
def execAcas (t : Nat) (w : BitVec 56) (s : State) : Out := .next (issueAtomic t 0xC6 2 w s)

/-- The new value of an atomic's word (R77). -/
def atomicValue (op : Nat) (old sv sc : Word) : Word :=
  if op = 0 then old + sv else if op = 1 then sv else if old = sc then sv else old

/-- ATOMIC_REQUEST (R77): the oldest move, an atomic, acts on its word at the target. -/
def execAtomicRequest (t : Nat) (s : State) : Out :=
  .next (
    match (tileOf s t).move with
    | { hdr := h, kind := .atomic op sd i o sv sc none } :: ms =>
      let pop := modTile t (fun x => { x with move := ms })
      if tileState s i = 4 then unitFault t h { code := fABSENT } (recUnmapped (.tile t) (winBase + i * 0x100000 + o) true (pop s))
      else if tileState s i = 2 then s
      else
      let bad := (tileOf s i).wordPoison o
      let r := meshTrip t (.win i o) 8 8 (meetWords i o 8 s)
      let s := r.2
      if bad || r.1 then unitFault t h { code := fPOISON } (pop s)
      else
        let old := (tileOf s i).word o
        let s := modTile t (fun x => { x with move := { hdr := h, kind := .atomic op sd i o sv sc (some (old, true)) } :: ms }) s
        winPoke i o (cleanBytes (leBytes 8 (atomicValue op old sv sc).toNat)) (taintUntagged t (.win i o) 8 s)
    | _ => s)

/-- ATOMIC_RESULT_ARRIVAL (R77): the old value is written into s[sd]. -/
def execAtomicResultArrival (t : Nat) (s : State) : Out :=
  .next (
    match (tileOf s t).move with
    | { hdr := h, kind := .atomic _ sd _ _ _ _ (some (old, _)) } :: ms =>
      post t h (modTile t (fun x => { x.setS sd old with move := ms }) s)
    | _ => s)

/-! ### Pushes and the deque's length (R78) -/

/-- DQPUSH (R78): a source that is not 64-byte aligned faults with MISALIGNED, one outside the data store with ADDRESS_RANGE (DESIGN CHOICE,
log 88); a target above 1151 stands in TILE_SEQ_FAULT_ADDR (DESIGN CHOICE, log 81). -/
def execDqpush (t : Nat) (w : BitVec 56) (s : State) : Out :=
  .next (issue t w true { bad := bits w 39 0 != 0, rs := [bits w 44 40], rp := [bits w 51 49], opc := 0xD0, unit := 1, opnd := some (false, (tileOf s t).addr (bits w 48 45)) } (fun h s =>
    let x := tileOf s t
    let a := x.addr (bits w 48 45)
    let tg := (x.sr (bits w 44 40)).toNat
    if a % 64 ≠ 0 then .fault fMISALIGNED a 0 s
    else if !inDataStore a then .fault fADDRESS a 0 s
    else if tg > 1151 then .fault fADDRESS tg 0 s
    else if tileState s tg = 4 then .fault fABSENT 0 0 (recUnmapped (.tile t) (winBase + tg * 0x100000 + 0xF6000) true s)
    else if isHeat s t != isHeat s tg then .fault fHEAT 0 0 s
    else queueMove t h (.push (bits w 51 49) tg a none) s) s)

/-- PUSH (R78, R199, R200, R202): the oldest move of the pushing tile, a push, reaches the target deque. -/
def execPush (t : Nat) (s : State) : Out :=
  .next (
    match (tileOf s t).move with
    | { hdr := h, kind := .push pd i o none } :: ms =>
      let x := tileOf s t
      let pop := modTile t (fun x => { x with move := ms })
      let d := x.read o 64
      let s := meetWords t o 64 s
      if anyPoison d then unitFault t h { code := fPOISON } (pop s)
      else
        let s := if i = t || tileState s i = 2 || tileState s i = 4 then s else (ctlTrip (physPos s t) (physPos s i) 64 s).2
        let e : DqEntry := { words := (chunks 8 (rawBytes d)).map leWord, ring := (x.run.getD (Run.mk [] t 0 false)).ring }
        match pushTo (.tile t) i e s with
        | (.accepted, s) => modTile t (fun x => { x with move := { hdr := h, kind := .push pd i o (some 1) } :: ms }) s
        | (.refused, s) => modTile t (fun x => { x with move := { hdr := h, kind := .push pd i o (some 0) } :: ms }) s
        | (.malformed, s) => unitFault t h { code := fRESERVED } (pop s)
        | (.absent, s) => unitFault t h { code := fABSENT } (pop s)
        | (.waits, s) => s
    | _ => s)

/-- DQPUSH_ACKNOWLEDGEMENT (R78): p[pd] is written. -/
def execDqpushAcknowledgement (t : Nat) (s : State) : Out :=
  .next (
    match (tileOf s t).move with
    | { hdr := h, kind := .push pd _ _ (some r) } :: ms =>
      post t h (modTile t (fun x => { x.setP pd (r == 1) with move := ms }) s)
    | _ => s)

/-- DQLEN (R78). -/
def execDqlen (t : Nat) (w : BitVec 56) (s : State) : Out :=
  .next (issue t w true { bad := bits w 46 0 != 0, rs := [fSd w], opc := 0xD1 } (fun _ s =>
    .done (modTile t (fun x => x.setS (fSd w) (w64 x.dq.length)) s)) s)

/-! ### Own commit group (R79) -/

/-- CGABORT (R79, R216). -/
def execCgabort (t : Nat) (w : BitVec 56) (s : State) : Out :=
  .next (issue t w true { bad := bits w 51 0 != 0, opc := 0xD8 } (fun _ s =>
    let x := tileOf s t
    match groupIdOf x with
    | none => .fault fRESERVED 0 0 s
    | some g =>
      if cgStat s g = 0 then .done (abortGroup (g % 16) 2 t (dSeq (x.run.getD (Run.mk [] t 0 false)).words) s) else .done s) s)

/-- CGSTAT (R79). -/
def execCgstat (t : Nat) (w : BitVec 56) (s : State) : Out :=
  .next (issue t w true { bad := bits w 46 0 != 0, rs := [fSd w], opc := 0xD9 } (fun _ s =>
    let v := match groupIdOf (tileOf s t) with
      | none => 0xFF
      | some g => cgStat s g
    .done (modTile t (fun x => x.setS (fSd w) (w64 v)) s)) s)

end Sys2Proof.Machine
end

