-- ==== Sys2Proof/Machine/Arrays.lean ====
section
/-! DEFINITION. The matrix arrays (R88 to R101, R132 to R135, R148 to R152, R168, R169, R188, R192): operands, K steps,
accumulation groups, and the instructions MOPEN, MMA, MMA2, LMMA and MABORT with their array queues. -/

namespace Sys2Proof.Machine
open Sys2Proof

/-! ### Fault codes of R110 -/
def fGROUP_STATE : Nat := 0x20
def fGROUP_RANGE : Nat := 0x21
def fGROUP_OVERLAP : Nat := 0x22
def fTILE_NOT_IN_GROUP : Nat := 0x23
def fGROUP_TYPE : Nat := 0x24
def fFORMAT : Nat := 0x25
def fOPERAND_RANGE : Nat := 0x26
def fOPERAND_ALIGN : Nat := 0x27
def fMMA2_FORM : Nat := 0x28
def fZ_UNAVAILABLE : Nat := 0x29
def fINDEX_CONFLICT : Nat := 0x2A
def fLINEAGE_ARRAY : Nat := 0x2B

/-! ### Elements and block scales -/

/-- Address of the low plane of the FP6 block at e (R148), modulo 2^48 as every address is (R46): one below 0 lies in no store. -/
def Tile.lowPlane (x : Tile) (e : Nat) : Nat := (((e : Int) + x.fp6D) % 2 ^ 48).toNat

/-- Byte o of a tile's window with its poison. -/
def Tile.pbyte (x : Tile) (o : Nat) : Nat × Bool := ((x.byte o).toNat, x.wordPoison o)

/-- Element e of block row `row` of the block at `blk` in format c: its code, and whether its word is poisoned (R88, R147, R148). -/
def elemCode (x : Tile) (c blk row e : Nat) : Nat × Bool :=
  let o := blk + 32 * row
  if packBits c = 4 then
    let b := x.pbyte (o + e / 2)
    let hi := (b.1 >>> (4 * (e % 2))) % 16
    if isFP6 c then
      let l := x.pbyte (x.lowPlane blk + 16 * row + e / 4)
      (hi * 4 + (l.1 >>> (2 * (e % 4))) % 4, b.2 || l.2)
    else (hi, b.2)
  else if packBits c = 8 then x.pbyte (o + e)
  else
    let b := x.pbyte (o + 2 * e)
    (b.1 + 256 * (x.pbyte (o + 2 * e + 1)).1, b.2)

/-- An operand: format, arrangement, block base, scale base, sillage base where lists are attached (R61, R92, R168). -/
structure Opnd where
  c : Nat
  arr : Nat
  base : Nat
  sc : Nat
  asl : Option Nat := none
  deriving DecidableEq, Repr

/-- Offset of the scale byte of an element (R92, R150). -/
def Opnd.scaleOff (o : Opnd) (blk row e : Nat) : Nat := o.sc + blk * 0x80 + row * 4 + (if o.arr = 1 then e / 16 else e / 32)

/-- The block scale of an element; plain elements have none (R150, R151). -/
def Opnd.scale (x : Tile) (o : Opnd) (blk row e : Nat) : Num × Bool :=
  if o.arr = 0 then (.fin false 1 0, false)
  else
    let b := x.pbyte (o.scaleOff blk row e)
    (decodeNum (if o.arr = 1 then UE4M3 else E8M0) b.1, b.2)

/-- The sillage entries that name a position of a list (R169). -/
def sillAt (x : Tile) (list pos : Nat) : List Nat :=
  ((List.range 32).map (fun i => leNat (rawBytes (x.read (list + 4 * i) 4)))).filter (fun v => v != 0 && (v >>> 8) % 1024 == pos)

/-- The exact value of an element at the array edge: code value and outliers times the block scale (R151, R152, R169). -/
def Opnd.value (x : Tile) (o : Opnd) (blk row e : Nat) : Num × Bool :=
  let v := elemCode x o.c (o.base + blk * 1024) row e
  if o.arr = 0 then (decodeNum o.c v.1, v.2)
  else
    let s := o.scale x blk row e
    let main := Num.mul (decodeNum o.c v.1) s.1
    match o.asl with
    | none => (main, v.2 || s.2)
    | some a =>
      let list := a + (2 * blk + e / 32) * 0x80
      ((sillAt x list (row * 32 + e % 32)).foldl (fun n w => Num.add n (Num.mul (decodeNum E4M3 (w % 256)) s.1)) main,
        v.2 || s.2 || anyPoison (x.read list 0x80))

/-! ### K steps (R88, R89, R91, R96, R99) -/

/-- The operands of one K step: the left rows with their output rows, the 32 stationary columns, poison, skipped (R188), cycles (R94). -/
structure KStep where
  rows : List (Nat × List Num)
  cols : List (List Num)
  pois : Bool
  skip : Bool
  cycles : Nat

/-- An element half of a 4-bit or FP6 block, chosen by address bit 4 (R89, R91). -/
def halfOf (c a : Nat) : Nat := if packBits c = 4 && (a / 16) % 2 = 1 then 32 else 0

/-- Block and element of column j of step i read by columns (R89). -/
def colPlace (c half i j : Nat) : Nat × Nat := if packBits c = 16 then (2 * i + j / 16, j % 16) else (i, half + j)

/-- MACs per tile cycle: by the wider operand (R93), 64 for lineage (R192). -/
def macRate (f : MmaF) : Nat :=
  if f.lin then 64 else
  let b := max (packBits f.fa) (packBits f.fw)
  if b = 4 then 2048 else if b = 8 then 1024 else 256

/-- K extent of one step (R88). -/
def kExtent (wm : Bool) (fw : Nat) : Nat := if wm then 32 else elemsPerRow fw

/-- The stationary operand of step i: columns, poison, and whether every scale byte that serves it is 0 (R89, R188). -/
def stationary (x : Tile) (o : Opnd) (wm : Bool) (half kRows i : Nat) : List (List Num) × Bool × Bool :=
  let cell := fun j k => if wm then let p := colPlace o.c half i j; (p.1, k, p.2) else (i, j, k)
  let kw := if wm then kRows else elemsPerRow o.c
  let vals := (List.range 32).map (fun j => (List.range kw).map (fun k => let p := cell j k; o.value x p.1 p.2.1 p.2.2))
  let zero := o.arr == 1 && (List.range 32).all (fun j => (List.range kw).all (fun k => let p := cell j k; (x.pbyte (o.scaleOff p.1 p.2.1 p.2.2)).1 == 0))
  (vals.map (fun c => c.map (·.1)), vals.any (fun c => c.any (·.2)), zero)

/-- The left rows of step i in the forward or column form: K elements k0 to k0 + kw - 1 of each row (R88). -/
def leftRows (x : Tile) (o : Opnd) (rows kw i : Nat) : List (Nat × List Num) × Bool :=
  let el := elemsPerRow o.c
  let vals := (List.range rows).map (fun r => (r, (List.range kw).map (fun k => o.value x ((i * kw + k) / el) r ((i * kw + k) % el))))
  (vals.map (fun r => (r.1, r.2.map (·.1))), vals.any (fun r => r.2.any (·.2)))

/-- The left rows of gradient form: output row r is element r of every block row (R91). -/
def leftGrad (x : Tile) (o : Opnd) (half kRows i : Nat) : List (Nat × List Num) × Bool :=
  let vals := (List.range 32).map (fun r => let p := colPlace o.c half i r; (r, (List.range kRows).map (fun k => o.value x p.1 k p.2)))
  (vals.map (fun r => (r.1, r.2.map (·.1))), vals.any (fun r => r.2.any (·.2)))

/-- Step i of an MMA or LMMA on its array (R88 to R94). -/
def mmaStep (x : Tile) (f : MmaF) (i : Nat) : KStep :=
  let grad := f.wm && f.arr == 2
  let kRows := if grad then f.rows else 32
  let lo : Opnd := { c := f.fa, arr := f.larr, base := f.ai / 1024 * 1024, sc := f.asa, asl := if f.sle then some f.asl else none }
  let wo : Opnd := { c := f.fw, arr := f.warr, base := f.aw / 1024 * 1024, sc := f.asc }
  let w := stationary x wo f.wm (halfOf f.fw f.aw) kRows i
  let l := if grad then leftGrad x lo (halfOf f.fa f.ai) kRows i else leftRows x lo f.rows (kExtent f.wm f.fw) i
  { rows := l.1, cols := w.1, pois := l.2 || w.2.1, skip := w.2.2, cycles := max 32 (f.rows * kExtent f.wm f.fw * 32 / macRate f) }

/-- Block b of an MMA2 on the GX array: dY_b times W read by columns (R96); dY alone decides a skip (R188). -/
def mma2GX (x : Tile) (f : MmaF) (b : Nat) : KStep :=
  let y : Opnd := { c := f.fa, arr := f.larr, base := f.ai / 1024 * 1024 + b * 1024, sc := f.asa + b * 0x80 }
  let wo : Opnd := { c := f.fw, arr := f.warr, base := f.aw / 1024 * 1024, sc := f.asc }
  let w := stationary x wo true (halfOf f.fw f.aw) 32 0
  let l := leftRows x y f.rows 32 0
  let sk := stationary x y true 0 f.rows 0
  { rows := l.1, cols := w.1, pois := l.2 || w.2.1, skip := sk.2.2, cycles := max 32 f.rows }

/-- Block b of an MMA2 on the GW array: X_b transposed times dY_b (R96). -/
def mma2GW (x : Tile) (f : MmaF) (b : Nat) : KStep :=
  let y : Opnd := { c := f.fa, arr := f.larr, base := f.ai / 1024 * 1024, sc := f.asa }
  let xo : Opnd := { c := f.fw, arr := f.warr, base := f.aw2 / 1024 * 1024, sc := f.asc2 }
  let w := stationary x y true 0 f.rows b
  let l := leftGrad x xo (halfOf f.fw f.aw2) f.rows b
  { rows := l.1, cols := w.1, pois := l.2 || w.2.1, skip := w.2.2, cycles := max 32 f.rows }

/-! ### Accumulators -/

/-- Accumulator element (r, j) of a tile (R111's memory, R42). -/
def accWord (x : Tile) (arr idx r j : Nat) : Half :=
  BitVec.ofNat 32 (leNat (rawBytes (x.read (accBase arr idx + r * 0x80 + j * 4) 4)))

/-- A row of an accumulator tile, and whether any word of it is poisoned. -/
def accRow (x : Tile) (arr idx r : Nat) : List Half × Bool :=
  ((List.range 32).map (accWord x arr idx r), anyPoison (x.read (accBase arr idx + r * 0x80) 0x80))

/-- Store a row of an accumulator tile. -/
def setAccRow (x : Tile) (arr idx r : Nat) (vs : List Half) (pois : Bool) : Tile :=
  x.write (accBase arr idx + r * 0x80) (((vs.map (fun v => leBytes 4 v.toNat)).flatten).map (fun b => (b, pois)))

/-- Fill a tile with one value, clean. -/
def fillAcc (x : Tile) (arr idx : Nat) (v : Half) : Tile :=
  let b := accBase arr idx
  let y := { x.clearPoison arr idx 1 with mem := x.mem.filter (fun e => !(decide (b ≤ e.1) && decide (e.1 < b + 0x1000))) }
  if v = 0#32 then y else (List.range 32).foldl (fun x r => setAccRow x arr idx r (List.replicate 32 v) false) y

/-- Poison a whole output tile (R101). -/
def poisonAcc (x : Tile) (arr idx : Nat) : Tile :=
  { x with poison := (List.range 512).foldl (fun p i => SMap.put false p (accBase arr idx / 8 + i) true) x.poison }

/-- INT32 saturation (R99). -/
def satInt32 (i : Int) : Half := BitVec.ofInt 32 (max (-(2 ^ 31 : Nat)) (min ((2 ^ 31 : Nat) - 1) i))

/-- Num of an integer accumulator. -/
def intOf : Num → Int | .fin n m e => (if n then -1 else 1) * ((m * 2 ^ e.toNat : Nat) : Int) | _ => 0

/-- The exact sum of products of one step (R99). -/
def dot (l w : List Num) : Num := Num.sum (List.zipWith Num.mul l w)

/-- v replaces b in MAX (or MIN) mode: strictly greater (less), NaN beats every number, the first NaN stays (R100). -/
def beats (mx : Bool) (v b : Half) : Bool :=
  let x := f32 v
  let y := f32 b
  if x.isNan then !y.isNan else if y.isNan then false else if mx then Num.lt y x else Num.lt x y

/-- One accumulation: mode 0 ADD, 1 MAX, 2 MIN; integer groups add exactly (R99, R100); lineage rounds per product (R192). -/
def accumulate (mode gty : Nat) (old : Half) (l w : List Num) : Half × Bool :=
  if gty = 3 then ((List.zipWith Num.mul l w).foldl (fun a p => g1round (Num.add (f32 a) p)) old, false)
  else if gty = 2 then (satInt32 (old.toInt + intOf (dot l w)), false)
  else if mode = 0 then (toF32 .even (Num.add (f32 old) (dot l w)), false)
  else let v := toF32 .even (dot l w); if beats (mode == 1) v old then (v, true) else (old, false)

/-- A row of an output tile is poisoned. -/
def accPoisoned (x : Tile) (arr idx : Nat) : Bool := (List.range 32).any (fun r => (accRow x arr idx r).2)

/-- The form of an MMA as a bit of a group's forms (R95, R398). -/
def MmaF.form (f : MmaF) (arr : Nat) : Nat := if !f.wm then 1 else if f.two || arr = 2 then 4 else 2

/-- Apply one K step to output tile idx of a group (R99, R100). -/
def applyStep (idx : Nat) (gty : Nat) (st : KStep) (a : Tile × Group) : Tile × Group :=
  let x := a.1
  let g := a.2
  let n := SMap.get 0 g.steps idx
  let g1 := { g with steps := SMap.set g.steps idx (min 0xFFFF (n + 1)), gty := gty }
  if st.skip && g.mode = 0 then (x, g1) else
  let y := st.rows.foldl (fun a rl =>
    let row := accRow x g.arr idx rl.1
    let new := List.zipWith (fun o w => accumulate g.mode gty o rl.2 w) row.1 st.cols
    let ix := (List.range 32).foldl (fun m j => if (nth (0#32, false) new j).2 then SMap.set m (idx * 1024 + rl.1 * 32 + j) n else m) a.2
    (setAccRow a.1 g.arr idx rl.1 (new.map (·.1)) row.2, ix)) (x, g1.idx)
  let z := if st.pois then poisonAcc y.1 g.arr idx else y.1
  (z, { g1 with idx := y.2 })

/-- The index plane of a MAX or MIN group: 0xFFFF before any winner of a zeroed group (R100); after a preload the spec gives
none, and the entry is a free value. -/
def Group.index (g : Group) (idx e : Nat) : Nat :=
  match g.idx.find? (fun p => p.1 == idx * 1024 + e) with
  | some p => p.2
  | none => match g.idxFree with
    | none => 0xFFFF
    | some n => (Config.freeByte n (2 * (idx * 1024 + e))).toNat + 256 * (Config.freeByte n (2 * (idx * 1024 + e) + 1)).toNat

/-! ### Operand checks (R89, R90, R93, R148, R168) -/

/-- A format and arrangement that MMA accepts as an operand (R93). -/
def opFmtOk (c arr : Nat) : Bool :=
  if isNarrow c then arr == 1 || arr == 2 else if isFP8 c then arr ≤ 2 else if is16Fmt c then arr == 0 else (c == INT4 || c == INT8) && arr == 0

/-- The format pairs of R93. -/
def pairOk (fa la fw wa : Nat) : Bool := opFmtOk fa la && opFmtOk fw wa && isIntFmt fa == isIntFmt fw

/-- n bytes from o lie wholly in store k. -/
def inStore (k o n : Nat) : Bool := decide (o + n ≤ winTop) && storeOf o == k && (n == 0 || storeOf (o + n - 1) == k)

/-- n bytes from o lie wholly in the data store or in the tile buffers (R90, R98, R102). -/
def inDataOrBuf (o n : Nat) : Bool := inStore 1 o n || inStore 3 o n

/-- Alignment of an operand's block address: `half` admits address bit 4 for a 4-bit or FP6 operand (R89, R90, R91). -/
def alignOk (c a : Nat) (half : Bool) : Bool := a % 1024 == 0 || (half && packBits c == 4 && a % 1024 == 16)

/-- Blocks, scale rows and low planes of an operand lie in store k (R90, R148). -/
def rangeOk (x : Tile) (k : Nat) (o : Opnd) (blocks : Nat) : Bool :=
  inStore k o.base (blocks * 1024) && (o.arr == 0 || inStore k o.sc (blocks * 0x80)) &&
  (!isFP6 o.c || (List.range blocks).all (fun b => inStore k (x.lowPlane (o.base + b * 1024)) 512))

/-- Alignment and range faults of an MMA's operands, found at the first operand access (R89, R90, R110). -/
def operandFault (x : Tile) (f : MmaF) : Option Nat :=
  let grad := f.two || (f.wm && f.arr == 2)
  if f.two then
    let y : Opnd := { c := f.fa, arr := f.larr, base := f.ai / 1024 * 1024, sc := f.asa }
    let wo : Opnd := { c := f.fw, arr := f.warr, base := f.aw / 1024 * 1024, sc := f.asc }
    let xo : Opnd := { c := f.fw, arr := f.warr, base := f.aw2 / 1024 * 1024, sc := f.asc2 }
    let per := if packBits f.fw = 16 then 2 else 1
    if !(alignOk f.fa f.ai false && alignOk f.fw f.aw true && alignOk f.fw f.aw2 true) then some fOPERAND_ALIGN
    else if !(rangeOk x 1 y f.kb && rangeOk x 0 wo per && rangeOk x 1 xo (per * f.kb)) then some fOPERAND_RANGE
    else none
  else
    let lo : Opnd := { c := f.fa, arr := f.larr, base := f.ai / 1024 * 1024, sc := f.asa }
    let wo : Opnd := { c := f.fw, arr := f.warr, base := f.aw / 1024 * 1024, sc := f.asc }
    let lBlocks := if grad then (if packBits f.fa = 16 then 2 * f.kb else f.kb) else ceilDiv (f.kb * kExtent f.wm f.fw) (elemsPerRow f.fa)
    let wBlocks := if f.wm && packBits f.fw = 16 then 2 * f.kb else f.kb
    let ls := if inStore 1 f.ai 1 then 1 else 3
    if !(alignOk f.fa f.ai grad && alignOk f.fw f.aw f.wm) then some fOPERAND_ALIGN
    else if !(rangeOk x ls lo lBlocks && rangeOk x (if grad then 1 else 0) wo wBlocks && (!f.sle || inStore 1 f.asl (2 * lBlocks * 0x80))) then some fOPERAND_RANGE
    else none

/-- What an operand's rows take of the stores: n bytes from byte lo of each of the first `rows` rows of its blocks, with their scales, low planes and
sillage lists. -/
def Opnd.ranges (x : Tile) (o : Opnd) (blocks rows lo n : Nat) : List (Nat × Nat) :=
  (List.range blocks).flatMap (fun b =>
    (List.range rows).flatMap (fun r => (o.base + b * 1024 + 32 * r + lo, n) ::
      (if isFP6 o.c then [(x.lowPlane (o.base + b * 1024) + 16 * r + lo / 2, ceilDiv n 2)] else [])) ++
    (if o.arr = 0 then [] else [(o.sc + b * 0x80, 4 * rows)]) ++
    (match o.asl with
     | some a => [(a + 2 * b * 0x80, 0x100)]
     | none => []))

/-- Bytes of a block row that a read by columns takes: the half of a 4-bit or FP6 row that address bit 4 selects (R89, R91). -/
def halfBytes (c a : Nat) : Nat × Nat := if packBits c = 4 then ((a / 16) % 2 * 16, 16) else (0, 32)

/-- What an MMA reads of the stores (R88 to R92, R96). -/
def operandRanges (x : Tile) (f : MmaF) : List (Nat × Nat) :=
  let lo : Opnd := { c := f.fa, arr := f.larr, base := f.ai / 1024 * 1024, sc := f.asa, asl := if f.sle then some f.asl else none }
  let wo : Opnd := { c := f.fw, arr := f.warr, base := f.aw / 1024 * 1024, sc := f.asc }
  let wh := halfBytes f.fw f.aw
  let per := if packBits f.fw = 16 then 2 else 1
  if f.two then
    let xo : Opnd := { c := f.fw, arr := f.warr, base := f.aw2 / 1024 * 1024, sc := f.asc2 }
    let xh := halfBytes f.fw f.aw2
    lo.ranges x f.kb f.rows 0 32 ++ wo.ranges x per 32 wh.1 wh.2 ++ xo.ranges x (per * f.kb) f.rows xh.1 xh.2
  else if f.wm && f.arr == 2 then
    let lh := halfBytes f.fa f.ai
    lo.ranges x (if packBits f.fa = 16 then 2 * f.kb else f.kb) f.rows lh.1 lh.2 ++ wo.ranges x (per * f.kb) f.rows wh.1 wh.2
  else
    let k := f.kb * kExtent f.wm f.fw
    let el := elemsPerRow f.fa
    lo.ranges x (k / el) f.rows 0 32 ++ { lo with base := lo.base + k / el * 1024, sc := lo.sc + k / el * 0x80 }.ranges x (if k % el = 0 then 0 else 1) f.rows 0 (k % el * 32 / el) ++
    (if f.wm then wo.ranges x (per * f.kb) 32 wh.1 wh.2 else wo.ranges x f.kb 32 0 32)

/-- The open group of an array by its number (R97). -/
def Tile.group (x : Tile) (arr g : Nat) : Option Group := x.groups.find? (fun h => h.arr == arr && h.g == g)

/-- Replace an open group. -/
def Tile.setGroup (x : Tile) (h : Group) : Tile :=
  { x with groups := x.groups.map (fun k => if k.arr == h.arr && k.g == h.g then h else k) }

/-- A tile that a drain issued before instruction sn still holds (R101, R106, R135). -/
def Tile.heldBefore (x : Tile) (sn arr idx : Nat) : Bool :=
  x.drains.any (fun d => d.f.arr == arr && decide (d.hdr.sn < sn) && holdsIdx (d.first + d.tile) (d.cnt - d.tile) idx)

/-- A tile still to be zeroed or loaded for a MOPEN issued before instruction sn (R98, R135). -/
def Tile.unready (x : Tile) (sn arr idx : Nat) : Bool :=
  x.inits.any (fun i => i.arr == arr && decide (i.hdr.sn < sn) && holdsIdx (i.first + i.loaded) (i.cnt - i.loaded) idx)

/-- The type an MMA gives its group. -/
def mmaType (f : MmaF) : Nat := if f.lin then 3 else if isIntFmt f.fa then 2 else 1

/-- Group faults of an MMA into tile idx of group g of an array (R97, R98, R100, R192). -/
def groupFault (x : Tile) (arr g idx ty : Nat) : Option Nat :=
  match x.group arr g with
  | none => some fGROUP_STATE
  | some h =>
    if !holdsIdx h.first h.cnt idx then some fTILE_NOT_IN_GROUP
    else if ty = 3 then (if h.gty = 3 || (h.mode = 0 && h.gty ≤ 1 && h.steps.isEmpty) then none else some fGROUP_TYPE)
    else if h.gty = ty || (h.gty = 0 && (h.mode = 0 || ty = 1)) then none
    else some fGROUP_TYPE

/-! ### Array queues (R81, R135) -/

/-- The queue of an array. -/
def Tile.queue (x : Tile) (arr : Nat) : List ArrOp := if arr = 0 then x.qF else if arr = 1 then x.qGX else x.qGW
def Tile.setQueue (x : Tile) (arr : Nat) (q : List ArrOp) : Tile :=
  if arr = 0 then { x with qF := q } else if arr = 1 then { x with qGX := q } else { x with qGW := q }

/-- TILE_ARR_FAULT takes every matrix or drain fault, whatever its descriptor's first fault was (R110, R111). -/
def noteArrFault (t arr g code : Nat) (s : State) : State :=
  if code < 0x20 || 0x40 ≤ code then s else
  rset (reg .TILE_ARR_FAULT t) (w64 (code % 256 + (arr % 4) * 2 ^ 8 + (g % 4) * 2 ^ 10 + 2 ^ 63)) s

/-- A fault found in an array's unit. -/
def arrFault (t arr g : Nat) (h : Hdr) (code : Nat) (s : State) : State :=
  noteArrFault t arr g code (unitFault t h { code := code, arr := arr, grp := g } s)

/-- A drain of this output needs its tensor id's entries: it takes a tensor scale, or is 4-bit or FP6 in blocks (R154, R161). -/
def takesScale (fo arro : Nat) : Bool := (arro == 1 && (isNarrow fo || isFP8 fo)) || (arro == 0 && (isFP8 fo || fo == INT8 || fo == INT4))
def needsFetch (fo arro : Nat) : Bool := takesScale fo arro || (isNarrow fo && arro == 2)

/-- The fault of a drain as it leaves its queue: type rules and the index plane (R103, R107, R193). -/
def drainGroupFault (f : DrainF) (h : Group) : Option Nat :=
  if f.lin != (h.gty == 3) then some fGROUP_TYPE
  else if f.fo = INT32 && h.gty ≠ 2 then some fGROUP_TYPE
  else if h.mode ≠ 0 && f.mm ≠ 0 then some fINDEX_CONFLICT
  else none

/-- A drain passes to the drain unit; a DCLOSE closes its group for naming (R135); a cache miss starts a fetch (R161). -/
def enterDrain (t arr : Nat) (o : ArrOp) (f : DrainF) (h : Group) (s : State) : State :=
  let x := tileOf s t
  let miss := needsFetch f.fo f.arro && !x.cache.contains f.tid
  let d : Drain := { hdr := o.hdr, f := f, first := h.first, cnt := h.cnt, mode := h.mode, gty := h.gty, forms := h.forms, idx := (List.range (h.cnt * 1024)).map (fun e => (e, h.index (h.first + e / 1024) (e % 1024))), fetch := miss }
  let d := if h.mode = 0 then { d with idx := [] } else d
  let x := { x with drains := x.drains ++ [d], groups := if f.keep then x.groups else x.groups.filter (fun k => !(k.arr == arr && k.g == f.g)) }
  let s := setTile t x s
  if miss then pmcCount t 27 1 (rcount (reg .TILE_TSC_MISS t) 48 1 s) else s

/-- What acts of itself at the head of an array queue: MOPEN, MABORT and drains (R97, R98, R101, R135); n bounds the walk. A MABORT waits
while a tile of its group is still to be initialised (DEDUCED, log 76). -/
def settle (t arr : Nat) : Nat → State → State
  | 0, s => s
  | n + 1, s =>
    let x := tileOf s t
    match x.queue arr with
    | [] => s
    | o :: q =>
      let pop := setTile t (x.setQueue arr q)
      match o.kind with
      | .mma _ => s
      | .mopen g first cnt mode pre ap fmt =>
        if (x.group arr g).isSome then settle t arr n (arrFault t arr g o.hdr fGROUP_STATE (pop s))
        else if x.groups.any (fun h => h.arr == arr && decide (first < h.first + h.cnt) && decide (h.first < first + cnt)) then
          settle t arr n (arrFault t arr g o.hdr fGROUP_OVERLAP (pop s))
        else
          let open_ := pre && mode != 0
          let h : Group := { arr := arr, g := g, first := first, cnt := cnt, mode := mode, gty := if pre then (if fmt = INT32 then 2 else 1) else 0, owner := x.runNo, sn := o.hdr.sn, idxFree := if open_ then some s.fresh else none }
          let i : Init := { hdr := o.hdr, arr := arr, g := g, first := first, cnt := cnt, mode := mode, pre := pre, ap := ap, fmt := fmt }
          let s' := modTile t (fun x => { x with groups := x.groups ++ [h], inits := x.inits ++ [i] }) (pop s)
          settle t arr n { s' with fresh := if open_ then s'.fresh + 1 else s'.fresh }
      | .mabort g =>
        match x.group arr g with
        | none => settle t arr n (arrFault t arr g o.hdr fGROUP_STATE (pop s))
        | some h =>
          if x.inits.any (fun i => i.arr == arr && i.g == g) || x.drains.any (fun d => d.f.arr == arr && d.f.g == g && d.f.keep) then s
          else settle t arr n (post t o.hdr (modTile t (fun x => { x.clearPoison arr h.first h.cnt with groups := x.groups.filter (fun k => !(k.arr == arr && k.g == g)) }) (pop s)))
      | .drain f =>
        match x.group arr f.g with
        | none => settle t arr n (arrFault t arr f.g o.hdr fGROUP_STATE (pop s))
        | some h =>
          match drainGroupFault f h with
          | some c => settle t arr n (arrFault t arr f.g o.hdr c (pop s))
          | none => settle t arr n (enterDrain t arr o f h (pop s))

/-- Let every array queue of a tile act. -/
def settleAll (t : Nat) (s : State) : State := settle t 2 9 (settle t 1 9 (settle t 0 9 s))

/-- Queue an array operation, or stall while a queue it needs is full (R81). -/
def queueArr (t : Nat) (arrs : List Nat) (o : ArrOp) (s : State) : Issued :=
  let x := tileOf s t
  if arrs.any (fun a => decide ((x.queue a).length ≥ queueDepth)) then .stall
  else .done (settleAll t (setTile t (arrs.foldl (fun x a => x.setQueue a (x.queue a ++ [o])) x) s))

/-- A field fault of a matrix or drain instruction, precise at issue, with array and group recorded (R110). -/
def fieldFault (t arr g : Nat) (h : Hdr) (code : Nat) (s : State) : Issued :=
  .fault code 0 0 (noteArrFault t arr g code (raiseFault t { code := code, pc := h.pc, arr := arr, grp := g } s))

/-! ### MOPEN and MABORT -/

/-- Bits that MOPEN and MABORT leave 0 (R62). -/
def badOpen (w : BitVec 56) (w1 : Word) : Bool := bit w 36 || bits w 27 23 != 0 || bits w 17 0 != 0 || bits w1 55 0 != 0 || xArr w == 3

/-- MOPEN (R62, R97, R98); mode 3 faults with RESERVED_FIELD (DESIGN CHOICE, log 87). -/
def execMopen (t : Nat) (w : BitVec 56) (w1 : Word) (s : State) : Out :=
  .next (issue t w (isSecond w1) { words := 2, bad := badOpen w w1 || bits w 39 38 == 3, post := xPost w, opc := 0x40, unit := 2 + xArr w, opnd := if bit w 37 then some (false, (tileOf s t).addr (bits w 35 32)) else none } (fun h s =>
    let x := tileOf s t
    let first := bits w 47 44
    let cnt := bits w 43 40 + 1
    let mode := bits w 39 38
    let pre := bit w 37
    let fmt := bits w 31 28
    if pre && !(fmt == FP32 || fmt == INT32 || fmt == BF16) then fieldFault t (xArr w) (xG w) h fFORMAT s
    else if pre && fmt == INT32 && mode != 0 then fieldFault t (xArr w) (xG w) h fGROUP_TYPE s
    else if first + cnt > 16 then fieldFault t (xArr w) (xG w) h fGROUP_RANGE s
    else queueArr t [xArr w] { hdr := h, kind := .mopen (xG w) first cnt mode pre (x.addr (bits w 35 32)) fmt } s) s)

/-- MABORT (R62, R98, R101); its mode field is ignored (DESIGN CHOICE, log 87). -/
def execMabort (t : Nat) (w : BitVec 56) (w1 : Word) (s : State) : Out :=
  .next (issue t w (isSecond w1) { words := 2, bad := badOpen w w1, post := xPost w, opc := 0x43, unit := 2 + xArr w } (fun h s =>
    queueArr t [xArr w] { hdr := h, kind := .mabort (xG w) } s) s)

/-- One preload tile: plain FP32, INT32 or BF16 as a drain lays it out (R98, R103); a poisoned word poisons the whole tile (R25). -/
def preloadTile (x : Tile) (arr idx src fmt : Nat) : Tile :=
  let y := (List.range 32).foldl (fun y r =>
    let cells := (List.range 32).map (fun j =>
      if fmt = BF16 then BitVec.ofNat 32 (leNat (rawBytes (x.read (src + (j / 16) * 1024 + r * 32 + (j % 16) * 2) 2)) * 65536)
      else BitVec.ofNat 32 (leNat (rawBytes (x.read (src + (j / 8) * 1024 + r * 32 + (j % 8) * 4) 4))))
    y.write (accBase arr idx + r * 0x80) (cleanBytes (cells.flatMap (fun (c : Half) => leBytes 4 c.toNat)))) x
  if anyPoison (x.read src (if fmt = BF16 then 2048 else 4096)) then poisonAcc y arr idx else y

/-- The start value of a group's mode (R98, R100). -/
def startValue (mode : Nat) : Half := if mode = 1 then inf32 true else if mode = 2 then inf32 false else 0#32

/-- Bytes of one preload tile (R98). -/
def preloadBytes (fmt : Nat) : Nat := if fmt = BF16 then 2048 else 4096

/-- The fault that the first preload read raises (R98). -/
def Init.fault (i : Init) : Option Nat :=
  if !i.pre || i.loaded ≠ 0 then none
  else if i.ap % 128 ≠ 0 then some fOPERAND_ALIGN
  else if !inDataOrBuf i.ap (i.cnt * preloadBytes i.fmt) then some fOPERAND_RANGE
  else none

/-- Replace or end the oldest initialisation of an array. -/
def putInit (arr : Nat) (y : Option Init) : List Init → List Init
  | [] => []
  | i :: is => if i.arr == arr then y.toList ++ is else i :: putInit arr y is

/-- The oldest initialisation zeroes or loads its next tile; with the last one its MOPEN completes and posts (R98). -/
def initTile (t : Nat) (i : Init) (s : State) : State :=
  let src := i.ap + i.loaded * preloadBytes i.fmt
  let s := if i.pre then meetWords t src (preloadBytes i.fmt) s else s
  let j : Init := { i with loaded := i.loaded + 1 }
  let s := modTile t (fun x =>
    let y := if i.pre then preloadTile x i.arr (i.first + i.loaded) src i.fmt else fillAcc x i.arr (i.first + i.loaded) (startValue i.mode)
    { y with inits := putInit i.arr (if j.loaded < j.cnt then some j else none) y.inits }) s
  let s := notePoisoned t i.hdr.sn (i.pre && accPoisoned (tileOf s t) i.arr (i.first + i.loaded)) s
  if j.loaded < j.cnt then s else settleAll t (post t i.hdr s)

/-- A MOPEN whose first preload read faults: its group and its initialisation end. -/
def initFault (t : Nat) (i : Init) (code : Nat) (s : State) : State :=
  settleAll t (arrFault t i.arr i.g i.hdr code (modTile t (fun x => { x with
    groups := x.groups.filter (fun k => !(k.arr == i.arr && k.g == i.g))
    inits := putInit i.arr none x.inits }) s))

/-- The initialisations of an array go on, one tile at a time in program order, until tile idx is ready for instruction sn: whether it is (R98, R135).
One waits for the tile that an earlier drain holds; n bounds the tiles. -/
def readyTile (t sn arr idx : Nat) : Nat → State → Bool × State
  | 0, s => (false, s)
  | n + 1, s =>
    let x := tileOf s t
    if !x.unready sn arr idx then (true, s) else
    match x.inits.find? (fun i => i.arr == arr) with
    | none => (true, s)
    | some i =>
      match i.fault with
      | some c => (false, initFault t i c s)
      | none => if x.heldBefore i.hdr.sn arr (i.first + i.loaded) then (false, s) else readyTile t sn arr idx n (initTile t i s)

/-- Tiles that a tile's initialisations still have to do. -/
def initsLeft (x : Tile) : Nat := sumNat (x.inits.map (fun i => i.cnt)) + 1

/-- Several output tiles are made ready for instruction sn. -/
def readyTiles (t sn : Nat) : List (Nat × Nat) → State → Bool × State
  | [], s => (true, s)
  | p :: ps, s =>
    let r := readyTile t sn p.1 p.2 (initsLeft (tileOf s t)) s
    if r.1 then readyTiles t sn ps r.2 else r

/-- PRELOAD_COMPLETION (R98, R135): the oldest MOPEN of the array whose tiles are still to be initialised has every one zeroed or loaded. -/
def execPreloadCompletion (t arr : Nat) (s : State) : Out :=
  .next (
    let x := tileOf s t
    if !running s then s else
    match x.inits.find? (fun i => i.arr == arr) with
    | none => s
    | some i => (readyTile t (i.hdr.sn + 1) arr (i.first + i.cnt - 1) (initsLeft x) s).2)

/-! ### MMA, MMA2, LMMA -/

/-- Fields of a matrix instruction that must be 0 or are reserved (R61, R62). -/
def badMma (w : BitVec 56) (w1 : Word) (two : Bool) : Bool :=
  bits w 17 0 != 0 || bits w1 5 0 != 0 || bits w 27 26 == 3 || bits w 25 24 == 3 || (!two && xArr w == 3)

/-- Format faults of MMA that fields decide (R93, R148, R168). -/
def formatFault (x : Tile) (f : MmaF) : Bool :=
  !pairOk f.fa f.larr f.fw f.warr || ((isFP6 f.fa || isFP6 f.fw) && x.fp6D == 0) || (f.sle && !(isNarrow f.fa && f.larr != 0))

/-- MMA (R62, R88 to R93, R97 to R100). -/
def execMma (t : Nat) (w : BitVec 56) (w1 : Word) (s : State) : Out :=
  .next (issue t w (isSecond w1) { words := 2, bad := badMma w w1 false, post := xPost w, opc := 0x41, unit := 2 + xArr w, opnd := some (false, (tileOf s t).addr (bits w 47 44)) } (fun h s =>
    let f := mmaFields (tileOf s t) w w1 false false
    if formatFault (tileOf s t) f then fieldFault t f.arr f.g h fFORMAT s
    else queueArr t [f.arr] { hdr := h, kind := .mma f } s) s)

/-- MMA2 (R62, R96, R134): arr is ignored; one entry in the GX and one in the GW queue. Its faults name GX (DESIGN CHOICE, log 89). -/
def execMma2 (t : Nat) (w : BitVec 56) (w1 : Word) (s : State) : Out :=
  .next (issue t w (isSecond w1) { words := 2, bad := badMma w w1 true, post := xPost w, opc := 0x42, unit := 3, opnd := some (false, (tileOf s t).addr (bits w 47 44)) } (fun h s =>
    let x := tileOf s t
    let f := { mmaFields x w w1 true false with arr := 1, aw2 := x.addr ((bits w 43 40 + 1) % 16), asc2 := x.addr ((bits w 39 36 + 1) % 16) }
    if !(f.wm && packBits f.fa == 8 && f.oi + f.kb ≤ 8) then fieldFault t 1 f.g h fMMA2_FORM s
    else if formatFault x f then fieldFault t 1 f.g h fFORMAT s
    else queueArr t [1, 2] { hdr := h, kind := .mma f } s) s)

/-- LMMA (R192): F array, L12 in plain arrangement, no sillage. -/
def execLmma (t : Nat) (w : BitVec 56) (w1 : Word) (s : State) : Out :=
  .next (issue t w (isSecond w1) { words := 2, bad := badMma w w1 false, post := xPost w, opc := 0xE0, unit := 2, opnd := some (false, (tileOf s t).addr (bits w 47 44)) } (fun h s =>
    let f := mmaFields (tileOf s t) w w1 false true
    if f.arr ≠ 0 then fieldFault t f.arr f.g h fLINEAGE_ARRAY s
    else if !(f.fa == L12 && f.fw == L12 && f.larr == 0 && f.warr == 0 && !f.sle) then fieldFault t 0 f.g h fFORMAT s
    else queueArr t [0] { hdr := h, kind := .mma f } s) s)

/-- The register that counts an array's streaming cycles (R111). -/
def busyReg (t arr : Nat) : Reg := if arr = 0 then reg .TILE_F_BUSY t else if arr = 1 then reg .TILE_GX_BUSY t else reg .TILE_GW_BUSY t

/-- Run K steps into tile idx of group g of an array, with the counts of R111, R188 and R414. -/
def runSteps (t arr g idx ty form : Nat) (sts : List KStep) (s : State) : State :=
  let x := tileOf s t
  match x.group arr g with
  | none => s
  | some h =>
    let r := sts.foldl (fun a st => applyStep idx ty st a) (x, h)
    let done := sts.filter (fun st => !(st.skip && h.mode = 0))
    let cyc := sumNat (done.map (·.cycles))
    let s := setTile t (r.1.setGroup { r.2 with forms := r.2.forms ||| (if ty = 3 then 4 else form) }) s
    let s := rcount (busyReg t arr) 48 cyc s
    let s := pmcCount t (8 + arr) cyc s
    pmcCount t 11 (sts.length - done.length) (rcount (reg .TILE_ZSKIP t) 48 (sts.length - done.length) s)

/-- Outliers that an MMA's lists add (R171, R414): entries of its left lists whose row takes part. -/
def outlierCount (x : Tile) (f : MmaF) : Nat :=
  if !f.sle then 0 else
  let blocks := if f.wm && f.arr == 2 then f.kb else ceilDiv (f.kb * kExtent f.wm f.fw) (elemsPerRow f.fa)
  sumNat ((List.range (2 * blocks)).map (fun i => ((List.range 32).filter (fun e =>
    let v := leNat (rawBytes (x.read (f.asl + i * 0x80 + 4 * e) 4))
    v != 0 && decide ((v >>> 13) % 32 < f.rows))).length))

/-- The tiles an MMA accumulates into: array, index. -/
def mmaTargets (f : MmaF) : List (Nat × Nat) :=
  if f.two then (List.range f.kb).map (fun b => (1, f.oi + b)) ++ [(2, f.oi + 8)] else [(f.arr, f.oi)]

/-- The accumulator rows an MMA adds into (R88, R91, R96). -/
def accRanges (f : MmaF) : List (Nat × Nat) :=
  (mmaTargets f).map (fun p => (accBase p.1 p.2, (if f.wm && p.1 == 2 then 32 else f.rows) * 0x80))

/-- MMA_COMPLETION (R94, R99, R101, R134): the MMA at the head of the array's queue accumulates and completes; an MMA2 stands
at the head of both queues. It waits for a tile still loading or held by a drain. -/
def execMmaCompletion (t arr : Nat) (s : State) : Out :=
  .next (
    let x := tileOf s t
    if !running s then s else
    match x.queue arr with
    | o :: _ =>
      match o.kind with
      | .mma f =>
        let arrs := if f.two then [1, 2] else [f.arr]
        if !(arrs.all (fun a => ((x.queue a).head?.map (fun p => p.hdr.sn)) == some o.hdr.sn)) then s else
        let pop := modTile t (fun x => arrs.foldl (fun x a => x.setQueue a ((x.queue a).drop 1)) x)
        let ty := mmaType f
        match (mmaTargets f).findSome? (fun p => (groupFault x p.1 f.g p.2 ty).map (fun c => (c, p.1))) with
        | some (c, a) => settleAll t (arrFault t a f.g o.hdr c (pop s))
        | none =>
          match operandFault x f with
          | some c => settleAll t (arrFault t f.arr f.g o.hdr c (pop s))
          | none =>
            let r := readyTiles t o.hdr.sn (mmaTargets f) s
            if !r.1 || (mmaTargets f).any (fun p => (tileOf r.2 t).heldBefore o.hdr.sn p.1 p.2) then r.2
            else
              let s := meetRanges t (operandRanges (tileOf r.2 t) f ++ accRanges f) r.2
              let x := tileOf s t
              let s := pmcCount t 15 (outlierCount x f) (pop s)
              let s := if f.two then
                  let s := (List.range f.kb).foldl (fun s b => runSteps t 1 f.g (f.oi + b) ty (f.form 1) [mma2GX x f b] s) s
                  runSteps t 2 f.g (f.oi + 8) ty (f.form 2) ((List.range f.kb).map (mma2GW x f)) s
                else runSteps t f.arr f.g f.oi ty (f.form f.arr) ((List.range f.kb).map (mmaStep x f)) s
              let bad := (mmaTargets f).any (fun p => accPoisoned (tileOf s t) p.1 p.2)
              settleAll t (post t o.hdr (notePoisoned t o.hdr.sn bad s))
      | _ => settleAll t s
    | [] => s)

end Sys2Proof.Machine
end

