-- ==== Sys2Proof/Machine/Spare.lean ====
section
/-! DEFINITION. Charging of faults, retirement and loss of tiles (R28, R32, R398, R401, R407, R408). -/

namespace Sys2Proof.Machine
open Sys2Proof

/-- Charges of one kind against a tile in the last 24 h (R401, R412). -/
def chargesIn24h (s : State) (t : Nat) (dp : Bool) : Nat :=
  ((tileOf s t).charges.filter (fun c => c.1 == dp && decide ((epoch s).toNat < c.2 + dayNs))).length

/-- A logical tile is mapped to this position. -/
def mapped (s : State) (px py : Nat) : Bool := (tileAt s (px, py)).isSome

/-- The shipped spares of a die that still are free: not retired, not in pass-through, not mapped (R27, R28, R32). -/
def freeSpares (s : State) (d : Nat) : List (Nat × Nat) :=
  (shippedSpares d).filter (fun p =>
    dieOfPos p.1 p.2 == d && !SMap.get false s.retired (posKey p.1 p.2) && !SMap.get false s.passThrough (posKey p.1 p.2) && !mapped s p.1 p.2)

/-- A position would need turns at two pass-through routers to reach some mapped tile (R32). -/
def cutOff (s : State) (p : Pos) : Bool :=
  (List.range numTiles).any (fun t => let q := physPos s t
    isPass s (p.1, q.2) && isPass s (q.1, p.2))

/-- Spares of a die that may take a logical tile: a position that is cut off is spent (R28, R32). -/
def usableSpares (s : State) (d : Nat) : List Pos := (freeSpares s d).filter (fun p => !cutOff s p)

/-- A logical tile becomes ABSENT: its queued descriptors fail with ABSENT_TILE (R407, R408). -/
def makeAbsent (t cause : Nat) (s : State) : State :=
  let x := tileOf s t
  let dq := x.dq
  let s := setTile t { (x.setDq x.dqFar []).summarize with steal := {} } (setTileState t 4 s)
  let s := dq.foldl (fun s e => failDescriptor t t e.ring e.words false { code := fABSENT } s) s
  event 0x0406 (dieOfTile t) t (w64 cause) 0#64 s

/-- A retirement is under way for tile t: an approved proposal of kind 4 stands for it. -/
def retiring (s : State) (t : Nat) : Bool := s.cox.proposals.any (fun p => p.kind == 4 && p.a == t)

/-- A tile in service begins to drain (R30, R202). -/
def beginDrain (t : Nat) (s : State) : State := if tileState s t = 0 then setTileState t 1 s else s

/-- A retirement for datapath faults has the tile's own scan scheduled first; a scan that was draining the tile ends (R401, R406). -/
def scanFirst (t : Nat) (s : State) : State :=
  let x := tileOf s t
  if tileState s t > 1 then s
  else if x.scan = 1 then finishOpt x.scanCmd stABORTED 0 0#64 (modTile t (fun x => { x with scan := 0, scanCmd := none }) s)
  else if x.scan = 0 then modTile t (fun x => { x with scan := 1 }) s
  else s

/-- Retire tile t for a cause (1 datapath, 2 checker, 3 scan, 4 router): a proposal in host-assisted mode, a map move that
falls due in hardware mode, ABSENT where its die has no free spare (R401, R407). -/
def retireTile (t cause : Nat) (s : State) : State :=
  if retiring s t || tileState s t = 4 then s
  else if assist s 7 then
    let n := s.cox.propNo + 1
    event 0x0404 (dieOfTile t) t (w64 n) (w64 cause)
      { s with cox := { s.cox with propNo := n, proposals := s.cox.proposals ++ [{ num := n, kind := 4, a := t, b := cause }] } }
  else if (usableSpares s (dieOfTile t)).isEmpty then makeAbsent t 6 s
  else
    let s := beginDrain t { s with cox := { s.cox with proposals := s.cox.proposals ++ [{ num := 0, kind := 4, a := t, b := cause, decided := true }] } }
    if cause = 1 then scanFirst t s else s

/-- Charge a datapath or checker fault to a tile: counts, the 24 h window, retirement at two or four (R398, R401). -/
def chargeFault (t : Nat) (dp : Bool) (s : State) : State :=
  let s := rcount (if dp then reg .TILE_RES_DP t else reg .TILE_RES_CHK t) 48 1 s
  let s := modTile t (fun x => { x with charges := x.charges ++ [(dp, (epoch s).toNat)] }) s
  let n := chargesIn24h s t dp
  if dp && n ≥ 2 then retireTile t 1 s else if !dp && n ≥ 4 then retireTile t 2 s else s

/-- A charged fault with its event (R398, R410): a, b as the table lays them out; the count goes to Data B of 0x0302. -/
def chargeEvent (t unit grp pos row tid helper : Nat) (dp : Bool) (s : State) : State :=
  let s := chargeFault t dp s
  let a := w64 (unit + grp * 2 ^ 8 + pos * 2 ^ 16 + row * 2 ^ 24)
  let b := tid % 4096 + (helper % 2048) * 2 ^ 16
  if dp then event 0x0302 (dieOfTile t) t a (w64 (b + (chargesIn24h s t true % 256) * 2 ^ 56)) s
  else event 0x0301 (dieOfTile t) t a (w64 b) s

/-! ### Quarantine (R402) -/

/-- The lowest free quarantine slot, where a region is set. -/
def freeQuar (s : State) : Option Nat :=
  if rbits s (reg .ERR_QUAR_BASE) 47 19 = 0 then none
  else (List.range 64).find? (fun n => !bit (rget s (reg .ERR_QUAR_USED)) n)

/-- What a quarantine slot records. -/
structure QuarInfo where
  unit : Nat
  grp : Nat := 0
  pos : Nat := 0
  row : Nat := 0
  stages : Nat := 0
  tid : Nat := 0
  ref : Nat := 0
  rows : List Byte := []
  deriving DecidableEq, Repr

/-- Quarantine a failing tile's rows: slot, event (R402). The residues are the checker's own values. -/
def quarantine (t : Nat) (q : QuarInfo) (s : State) : State :=
  let b := w64 (q.unit + q.pos * 2 ^ 8 + q.row * 2 ^ 16)
  match freeQuar s with
  | none => event 0x0303 (dieOfTile t) t 0#64 b s
  | some n =>
    let no := s.cox.quarNo + 1
    let base := rbits s (reg .ERR_QUAR_BASE) 47 19 * 2 ^ 19 + n * 0x2000
    let hd := leBytes 4 no ++ leBytes 2 t ++ leBytes 1 (q.unit + q.grp * 16) ++ leBytes 1 q.pos ++ leBytes 1 q.row ++ leBytes 1 q.stages ++
      leBytes 2 q.tid ++ leBytes 4 0 ++ leBytes 8 q.ref ++ leBytes 8 (coxEpoch s).toNat ++ leBytes 4 (stepOf s) ++ List.replicate 28 0#8
    let res := (List.range 1024).map (fun i => Config.residueByte s.fresh i)
    let s := stkWrite .engine base (cleanBytes (hd ++ res)) { s with fresh := s.fresh + 1 }
    let s := stkWrite .engine (base + 0x1000) (cleanBytes (q.rows.take 4096)) s
    let s := rsetBit (reg .ERR_QUAR_USED) n true { s with cox := { s.cox with quarNo := no, quars := s.cox.quars ++ [(no, n, t, q.unit)] } }
    event 0x0303 (dieOfTile t) t (w64 (no % 2 ^ 32)) b s

end Sys2Proof.Machine
end

