-- ==== Sys2Proof/Machine/Convert.lean ====
section
/-! DEFINITION. Stage 7 of the drain (R154, R155, R162 to R166, R170, R180, R193): scales, blocks, elements, classes, and the
layout of a converted row (R103, R147, R148, R150, R172, R183). -/

namespace Sys2Proof.Machine
open Sys2Proof

/-! ### Tensor scales -/

/-- Emax × 448, Emax, 127 or 7: the range constant of a pair that takes a tensor scale (R155). -/
def rangeConst (fo arro : Nat) : Num :=
  if arro = 1 then Num.mul (emax fo) (.fin false 448 0) else emax fo

/-- FP32 quotient num ÷ den × 2^m of positive values by a rounding, clamped to 2^-126 … 2^127 (R157, R180). -/
def scaleQuot (r : Rnd) (n : Num) (m : Nat) (d : Num) : Half :=
  match n, d with
  | .fin _ a e, .fin _ b f =>
    if a = 0 || b = 0 then 0x00800000#32 else
    let v := roundCode fmtFP32 r (magNum a e * 2 ^ m * magDen f) (magDen e * magNum b f)
    BitVec.ofNat 32 (max 0x00800000 (min 0x7F000000 v))
  | _, _ => 0x7F000000#32

/-- The effective scale s' of a drain pair (R154): s × Q_nom ÷ Q_drain rounded once; s itself for the nominal pair and where the
nominal pair has no range constant. -/
def effScale (sc : Half) (nomF nomA fo arro : Nat) : Half :=
  if (nomF == fo && nomA == arro) || !takesScale nomF nomA then sc
  else match f32 sc, rangeConst nomF nomA, rangeConst fo arro with
    | .fin n m e, .fin _ a f, .fin _ b g => toF32Q .even n (magNum m e * magNum a f * magDen g) (magDen e * magDen f * magNum b g)
    | _, _, _ => sc

/-! ### Elements -/

/-- Classes of one written element (R164): non-finite, saturated, zero, and flushed (R179). -/
structure Elem where
  code : Nat
  nonfin : Bool := false
  sat : Bool := false
  zero : Bool := false
  flush : Bool := false
  deriving DecidableEq, Repr

/-- A non-finite input at conversion (R162, table). -/
def nonFinite (fo : Nat) (x : Num) : Nat :=
  let neg := x.neg?
  let sg := fun (f : FloatFmt) => signAt f neg
  if x.isNan then
    (if fo = E4M3 then 0x7F + sg fmtE4M3 else if fo = E5M2 then 0x7F + sg fmtE5M2
     else if fo = BF16 then 0x7FC0 else if fo = FP16 then 0x7E00 else if fo = FP32 then 0x7FC00000 else 0)
  else
    (if fo = E4M3 then 0x7E + sg fmtE4M3 else if fo = E5M2 then 0x7C + sg fmtE5M2
     else if fo = E3M2 then 0x1F + sg fmtE3M2 else if fo = E2M3 then 0x1F + sg fmtE2M3 else if fo = FP4 then 7 + sg fmtE2M1
     else if fo = INT8 then (if neg then 0x81 else 0x7F) else if fo = INT4 then (if neg then 9 else 7)
     else if fo = INT16 then (if neg then 0x8000 else 0x7FFF) else if fo = UINT8 then (if neg then 0 else 0xFF)
     else if fo = BF16 then 0x7F80 + sg fmtBF16 else if fo = FP16 then 0x7C00 + sg fmtFP16 else 0x7F800000 + sg fmtFP32)

/-- A finite value of sign neg and magnitude num ÷ den in the output format; none is a quotient beyond every format (R162
steps 1, 4, 5; R165): the code, and whether it was clamped or overflowed to an infinity. Saturation is judged after rounding. -/
def finiteCode (fo : Nat) (r : Rnd) (neg : Bool) (mag : Option (Nat × Nat)) : Nat × Bool :=
  match floatFmt fo with
  | some f =>
    let c := match mag with
      | some (n, d) => roundCode f r n d
      | none => f.maxFin + 1
    if c > f.maxFin then ((if is16Fmt fo then (f.maxFin + 1) else if fo = FP32 then 0x7F800000 else f.maxFin) + signAt f neg, true)
    else (c + signAt f neg, false)
  | none =>
    let i : Int := match mag with
      | some (n, d) => let q : Int := (roundQuot r n d : Nat); if neg then -q else q
      | none => if neg then -(2 ^ 200 : Nat) else (2 ^ 200 : Nat)
    let lim : Int × Int × Nat :=
      if fo = INT8 then (-127, 127, 8) else if fo = INT4 then (-7, 7, 4) else if fo = INT16 then (-32768, 32767, 16) else (0, 255, 8)
    let v := max lim.1 (min lim.2.1 i)
    (ofSigned lim.2.2 v, decide (v ≠ i))

/-- A code is ±0. -/
def isZeroCode (fo code : Nat) : Bool :=
  match floatFmt fo with
  | some f => code % 2 ^ (f.eb + f.mb) == 0
  | none => code == 0

/-- A quotient q after step 1: a finite value, or one beyond every format (R162). -/
inductive Quot where
  | val (neg : Bool) (num den : Nat)
  | huge (neg : Bool)
  deriving DecidableEq, Repr

def Quot.neg : Quot → Bool | .val n _ _ => n | .huge n => n
def Quot.mag : Quot → Option (Nat × Nat) | .val _ n d => some (n, d) | .huge _ => none

/-- Step 1 (R162): division by the tensor scale, rounded to FP32; the exact value where none applies. -/
def stepOne (x : Num) (sc : Option Half) : Quot :=
  match x, sc with
  | .fin n m e, none => .val n (magNum m e) (magDen e)
  | x, some s =>
    match f32 (divF32 .even x (f32 s)) with
    | .fin n m e => .val n (magNum m e) (magDen e)
    | _ => .huge x.neg?
  | x, none => .huge x.neg?

/-- a ≤ b for magnitudes; none is beyond every value. -/
def magLe (a b : Option (Nat × Nat)) : Bool :=
  match a, b with
  | _, none => true
  | none, some _ => false
  | some (n, d), some (m, e) => decide (n * e ≤ m * d)

/-- The greatest magnitude of a list, 0 for none. -/
def magMax (xs : List (Option (Nat × Nat))) : Option (Nat × Nat) := xs.foldl (fun a b => if magLe b a then a else b) (some (0, 1))

/-- A finite Num as a magnitude. -/
def numMag : Num → Option (Nat × Nat) | .fin _ m e => some (magNum m e, magDen e) | _ => none

/-- The block scale for a block maximum d > 0 (R162 step 3): its code, or none on overflow. -/
def blockScale (fo arro : Nat) (d : Option (Nat × Nat)) : Option Nat :=
  if arro = 1 then (List.range 127).find? (fun c => magLe d (numMag (Num.mul (decodeNum UE4M3 c) (emax fo))))
  else (List.range 255).find? (fun c => magLe d (numMag (Num.mul (decodeNum E8M0 c) (emax fo))))

/-- What converting one unit gives: elements, scale code, outliers (element, E4M3 code), overflow. -/
structure Unit7 where
  els : List Elem
  sb : Nat := 0
  outl : List (Nat × Nat) := []
  ovf : Bool := false
  deriving DecidableEq, Repr

/-- One element of a block divided by its scale (R162 steps 4, 5). -/
def blockElem (fo : Nat) (r : Rnd) (x : Num) (q : Quot) (sb : Nat × Nat) : Elem :=
  if !x.isFin then { code := nonFinite fo x, nonfin := true }
  else
    let c := finiteCode fo r q.neg (q.mag.map (fun p => (p.1 * sb.2, p.2 * sb.1)))
    { code := c.1, sat := c.2, zero := isZeroCode fo c.1, flush := isZeroCode fo c.1 && !x.isZero }

/-- The threshold θ of sillage selection, where it selects (R170). -/
def thetaOf (th : Half) (fo arro : Nat) : Option (Nat × Nat) :=
  if !(isNarrow fo && arro != 0) then none
  else match f32 th with
    | .fin false m e => if m = 0 then none else some (magNum m e, magDen e)
    | _ => none

/-- Convert one block of a block-scaled pair (R162, R163, R170). `free` gives the undefined codes of an overflowing block. -/
def convBlock (fo arro : Nat) (th : Option (Nat × Nat)) (sc : Option Half) (rnd : Nat → Rnd) (free : Nat → Nat) (xs : List Num) : Unit7 :=
  let qs := xs.map (fun x => stepOne x sc)
  let fin := (xs.zip qs).filter (fun p => p.1.isFin)
  let cand := fun (q : Quot) => match th with
    | some t => !magLe q.mag (some t)
    | none => false
  let non := fin.filter (fun p => !cand p.2)
  let d := magMax (non.map (fun p => p.2.mag))
  let d := if fin.any (fun p => cand p.2) && magLe d (some (0, 1)) then th else d
  if magLe d (some (0, 1)) then
    { els := xs.map (fun x => if x.isFin then { code := 0, zero := true, flush := !x.isZero } else { code := nonFinite fo x, nonfin := true }) }
  else match blockScale fo arro d with
    | none => { els := (List.range xs.length).map (fun i => { code := free i % 2 ^ fmtBits fo }), sb := free xs.length % 256, ovf := true }
    | some c =>
      let s := (numMag (decodeNum (if arro = 1 then UE4M3 else E8M0) c)).getD (1, 1)
      let lim := (numMag (emax fo)).getD (1, 1)
      let out := fun (p : Num × Quot) => p.1.isFin && cand p.2 && !magLe p.2.mag (some (lim.1 * s.1, lim.2 * s.2))
      let ps := xs.zip qs
      { els := (List.range xs.length).map (fun i => let p := nth (.nan false, .huge false) ps i
          if out p then { code := 0 } else blockElem fo (rnd i) p.1 p.2 s)
        sb := c
        outl := ((List.range xs.length).filter (fun i => out (nth (.nan false, .huge false) ps i))).map (fun i =>
          let q := (nth (.nan false, .huge false) ps i).2
          (i, (finiteCode E4M3 .even q.neg (q.mag.map (fun m => (m.1 * s.2, m.2 * s.1)))).1))
        ovf := ps.any (fun p => out p && !magLe (p.2.mag.map (fun m => (m.1 * s.2, m.2 * s.1))) (some (448, 1))) }

/-- Convert one row of a plain pair (R162, R163). -/
def convPlain (fo : Nat) (sc : Option Half) (rnd : Nat → Rnd) (xs : List Num) : Unit7 :=
  let els := (List.range xs.length).map (fun i => let x := nth (.nan false) xs i; blockElem fo (rnd i) x (stepOne x sc) (1, 1))
  { els := els, ovf := takesScale fo 0 && els.any (·.sat) }

/-- A converted row of 32 elements. -/
structure Row7 where
  els : List Elem
  sbs : List Nat := []
  outl : List (Nat × Nat) := []
  ovf : Bool := false
  deriving DecidableEq, Repr

/-- Convert a row in its pair (R150, R162). -/
def convRow (fo arro : Nat) (th : Option (Nat × Nat)) (sc : Option Half) (rnd : Nat → Rnd) (free : Nat → Nat) (xs : List Num) : Row7 :=
  if arro = 0 then let u := convPlain fo sc rnd xs; { els := u.els, ovf := u.ovf }
  else
    let n := if arro = 1 then 16 else 32
    let us := (List.range (32 / n)).map (fun b => convBlock fo arro th sc (fun i => rnd (b * n + i)) (fun i => free (b * 64 + i)) ((xs.drop (b * n)).take n))
    { els := us.flatMap (·.els), sbs := us.map (·.sb), ovf := us.any (·.ovf)
      outl := ((List.range us.length).map (fun b => (nth { els := [] } us b).outl.map (fun o => (b * n + o.1, o.2)))).flatten }

/-! ### Layout -/

/-- Pack codes two or four to a byte, low first (R147, R148). -/
def pack2 : List Nat → List Byte
  | a :: b :: r => BitVec.ofNat 8 (a % 16 + (b % 16) * 16) :: pack2 r
  | [a] => [BitVec.ofNat 8 (a % 16)]
  | [] => []
def pack4 : List Nat → List Byte
  | a :: b :: c :: d :: r => BitVec.ofNat 8 (a % 4 + (b % 4) * 4 + (c % 4) * 16 + (d % 4) * 64) :: pack4 r
  | _ => []

/-- Where a drain writes: base, tiles of the group, position of this tile, low plane of the block at an address (R103, R148, R182). -/
structure Place where
  ad : Nat
  cnt : Nat
  pos : Nat
  low : Nat → Nat

/-- Element blocks of a block-scaled output (R103). -/
def Place.blocks (p : Place) (fo : Nat) : Nat := if packBits fo = 4 then ceilDiv p.cnt 2 else p.cnt

/-- The last tile of an odd group in 4-bit or FP6 form fills the high half of its block with zero (R103, R172). -/
def Place.pads (p : Place) (fo : Nat) : Bool := packBits fo == 4 && p.pos % 2 == 0 && p.pos + 1 == p.cnt

/-- The pieces of one row: element bytes, scale bytes, low-plane bytes (R103, R148, R150, R172). Scale bytes that the layout
ignores are free values. -/
def rowPieces (p : Place) (fo arro r : Nat) (codes sbs : List Nat) (pad : Nat → Byte) : List (Nat × List Byte) :=
  let blk := if packBits fo = 4 then p.pos / 2 else p.pos
  let els : List (Nat × List Byte) :=
    if packBits fo = 4 then
      let hi := if isFP6 fo then codes.map (fun c => c / 4) else codes
      [(p.ad + blk * 0x400 + r * 32 + (p.pos % 2) * 16, pack2 hi ++ (if p.pads fo then List.replicate 16 0#8 else []))]
    else if packBits fo = 8 then [(p.ad + p.pos * 0x400 + r * 32, codes.flatMap (leBytes 1))]
    else if packBits fo = 16 then (List.range 2).map (fun h => (p.ad + (2 * p.pos + h) * 0x400 + r * 32, ((codes.drop (16 * h)).take 16).flatMap (leBytes 2)))
    else (List.range 4).map (fun q => (p.ad + (4 * p.pos + q) * 0x400 + r * 32, ((codes.drop (8 * q)).take 8).flatMap (leBytes 4)))
  let scs : List (Nat × List Byte) :=
    if arro = 0 then [] else
    let slot := p.ad + p.blocks fo * 0x400 + blk * 0x80 + r * 4
    let own := sbs.map (BitVec.ofNat 8)
    if packBits fo = 8 then [(slot, own ++ (List.range (4 - own.length)).map pad)]
    else
      let hi := if p.pads fo then List.replicate own.length 0#8 else []
      let tail := if p.pos % 2 = 0 && arro = 2 then [(slot + 2, (List.range 2).map pad)] else []
      (slot + (p.pos % 2) * own.length, own ++ hi) :: tail
  let lows : List (Nat × List Byte) :=
    if isFP6 fo then [(p.low (p.ad + blk * 0x400) + 16 * r + 8 * (p.pos % 2), pack4 (codes.map (fun c => c % 4)) ++ (if p.pads fo then List.replicate 8 0#8 else []))]
    else []
  els ++ scs ++ lows

/-- The sillage list of a tile (R169, R170, R172): entries in rising position, the high half's list all 0 in an odd group. -/
def listPieces (p : Place) (fo : Nat) (entries : List (Nat × Nat)) : List (Nat × List Byte) :=
  let es := (entries.take 32).flatMap (fun e => leBytes 4 (e.2 % 256 + (e.1 % 1024) * 256))
  [(p.ad + p.blocks fo * 0x480 + p.pos * 0x80, es ++ List.replicate (128 - es.length) 0#8 ++ (if p.pads fo then List.replicate 128 0#8 else []))]

/-- The marker of a spilled or stopped tile (R183): element code and block-scale code of each pair. -/
def markerRow (fo arro : Nat) : List Nat × List Nat :=
  if arro = 0 then (List.replicate 32 (if isFP8 fo then 0x7F else 0), [])
  else (List.replicate 32 0, List.replicate (if arro = 1 then 2 else 1) (if arro = 1 then 0x7F else 0xFF))

/-! ### The ladder (R178, R186) -/

/-- The rung of an output pair, none off the ladder. -/
def rungOf (fo arro : Nat) : Option Nat :=
  if (fo = FP4 && arro ≠ 0) || (fo = INT4 && arro = 0) then some 0
  else if isFP6 fo && arro ≠ 0 then some 1
  else if isFP8 fo || (fo = INT8 && arro = 0) then some 2
  else if fo = BF16 && arro = 0 then some 3
  else none

/-- The pair on the next rung. -/
def nextRung (fo arro : Nat) : Nat × Nat :=
  match rungOf fo arro with
  | some 0 => (E2M3, if fo = INT4 then 1 else arro)
  | some 1 => (E4M3, arro)
  | _ => (BF16, 0)

/-- The pair a floor leads to, rung by rung (R186). -/
def floorPair (floor fo arro : Nat) : Nat × Nat :=
  (List.range 3).foldl (fun p _ => match rungOf p.1 p.2 with
    | some r => if r < floor then nextRung p.1 p.2 else p
    | none => p) (fo, arro)

end Sys2Proof.Machine
end

