-- ==== Sys2Proof/Machine/Fix.lean ====
section
/-! DEFINITION. The functions that the device evaluates within a stated error (R104, R116, R260, R266): each is computed to 512 binary places, and the
result is one of the FP32 values within the rule's error of it: which one is a free value (log 17). -/

namespace Sys2Proof

/-! ### Numbers with 512 binary places -/

def fxOne : Int := 2 ^ 512

/-- The value of a finite FP32 number. -/
def fxOf (neg : Bool) (m : Nat) (e : Int) : Int :=
  let v : Int := (m * 2 ^ (e + 512).toNat : Nat)
  if neg then -v else v

def fxMul (a b : Int) : Int := (a * b) / fxOne
def fxDiv (a b : Int) : Int := (a * fxOne) / b
def fxSqrt (a : Int) : Int := (isqrt (a.toNat * 2 ^ 512) : Nat)

/-- A value kept within ±n. -/
def fxClamp (n : Nat) (a : Int) : Int := max (-(n * fxOne)) (min (n * fxOne) a)

/-- The sum of t^(2i+1) ÷ (2i+1), the signs alternating where alt holds: arctan of 1 ÷ q or artanh of t. -/
def fxOdd (alt : Bool) (n : Nat) (t : Int) : Int :=
  let t2 := fxMul t t
  ((List.range n).foldl (fun (a : Int × Int) i =>
    let c := a.2 / ((2 * i + 1 : Nat) : Int)
    (a.1 + (if alt && i % 2 == 1 then -c else c), fxMul a.2 t2)) (0, t)).1

/-- ln 2 and π. -/
def fxLn2 : Int := 2 * fxOdd false 170 (fxOne / 3)
def fxPi : Int := 16 * fxOdd true 120 (fxOne / 5) - 4 * fxOdd true 40 (fxOne / 239)

/-- e^x for x within ±300: the argument is reduced by multiples of ln 2. -/
def fxExp (x : Int) : Int :=
  let k := (x + fxLn2 / 2) / fxLn2
  let r := x - k * fxLn2
  let y := (List.range 100).foldl (fun acc i => fxOne + fxMul r acc / ((100 - i : Nat) : Int)) fxOne
  if k ≥ 0 then y * 2 ^ k.toNat else y / 2 ^ (-k).toNat

/-- ln x for x > 0. -/
def fxLn (x : Int) : Int :=
  let k : Int := (Nat.log2 x.toNat : Int) - 512
  let u := if k ≥ 0 then x / 2 ^ k.toNat else x * 2 ^ (-k).toNat
  2 * fxOdd false 170 (fxDiv (u - fxOne) (u + fxOne)) + k * fxLn2

/-- x less the nearest multiple of 2π. -/
def fxTurn (x : Int) : Int := x - ((x + fxPi) / (2 * fxPi)) * (2 * fxPi)

/-- The series 1 − r² ÷ (a (a + 1)) (1 − r² ÷ ((a + 2)(a + 3)) (…)), a = 1 for the cosine, 2 for the sine of r over r. -/
def fxWave (a : Nat) (r : Int) : Int :=
  let r2 := fxMul r r
  (List.range 75).foldl (fun acc i => let j := a + 2 * (74 - i); fxOne - fxMul r2 acc / ((j * (j + 1) : Nat) : Int)) fxOne

def fxSin (x : Int) : Int := let r := fxTurn x; fxMul r (fxWave 2 r)
def fxCos (x : Int) : Int := fxWave 1 (fxTurn x)

/-- σ(x), x kept within ±300. -/
def fxSigmoid (x : Int) : Int := let e := fxExp (fxClamp 300 x); fxDiv e (e + fxOne)

/-- tanh x. -/
def fxTanh (x : Int) : Int := let e := fxExp (fxClamp 300 (2 * x)); fxDiv (e - fxOne) (e + fxOne)

/-- √(2 ÷ π). -/
def fxRoot2Pi : Int := fxSqrt (fxDiv (2 * fxOne) fxPi)

/-- Φ(x) for x within ±16, by the series of erf. -/
def fxPhi (x : Int) : Int :=
  let h := fxMul x x / 2
  let s := ((List.range 640).foldl (fun (a : Int × Int) i =>
    (a.1 + a.2 / ((2 * i + 1 : Nat) : Int), -(fxMul a.2 h) / ((i + 1 : Nat) : Int))) (0, fxOne)).1
  (fxOne + fxMul fxRoot2Pi (fxMul x s)) / 2

/-- φ(x), the normal density. -/
def fxDensity (x : Int) : Int := fxMul (fxRoot2Pi / 2) (fxExp (fxClamp 300 (-(fxMul x x / 2))))

/-! ### The nearest FP32 values of a number, and the device's choice -/

/-- FP32 values in order: the magnitude code with its sign, rounded towards zero; 0x7F800000 stands beyond the largest. -/
def fxOrd (v : Int) : Int :=
  let a := v.natAbs
  if a = 0 then 0 else
  let e : Int := (Nat.log2 a : Int) - 512
  let c : Nat :=
    if e > 127 then 0x7F800000
    else if e < -126 then a >>> 363
    else (e + 126).toNat * 2 ^ 23 + a / 2 ^ (Nat.log2 a - 23)
  if v < 0 then -(c : Int) else c

/-- The value of the FP32 number in a place of that order. -/
def fxAt (o : Int) : Int :=
  let n := o.natAbs
  let m := n % 2 ^ 23
  let v : Int := (if n < 2 ^ 23 then m * 2 ^ 363 else (2 ^ 23 + m) * 2 ^ (n / 2 ^ 23 + 362) : Nat)
  if o < 0 then -v else v

/-- A unit in the last place of FP32 at a value. -/
def fxUlp (v : Int) : Int := (2 ^ max 363 (Nat.log2 v.natAbs - 23) : Nat)

/-- The FP32 numbers at most n units in the last place from the exact value v. -/
def fxWithin (n : Nat) (v : Int) : List Int :=
  ((List.range (4 * n + 3)).map (fun (i : Nat) => fxOrd v + (i : Int) - (2 * n + 1 : Nat))).filter (fun o =>
    decide (o.natAbs ≤ 0x7F800000) && decide (((fxAt o - v).natAbs : Int) ≤ n * fxUlp v))

/-- The device's result for an input: one of the FP32 numbers at most n units in the last place from the exact value v; where it is zero, its sign
is free too. -/
def fxNear (n key : Nat) (v : Int) (input : Half) : Half :=
  let c := Config.evalStep key input
  let o := fxOrd v
  if o.natAbs ≥ 0x7F800000 then inf32 (decide (o < 0))
  else
    let l := fxWithin n v
    let r := (l[c.1 % l.length]?).getD o
    let mag : Half := BitVec.ofNat 32 r.natAbs
    if decide (r < 0) || (r == 0 && c.2) then fneg mag else mag

/-! ### VFUNC's functions (R116) -/

/-- Function fn of the finite value ±m·2^e, within the error of the table: exp, log, rsqrt, tanh, sigmoid, sin, cos. -/
def fxFunc (fn : Nat) (neg : Bool) (m : Nat) (e : Int) (input : Half) : Half :=
  let x := fxOf neg m e
  match fn with
  | 0 => fxNear 1 0 (fxExp (fxClamp 300 x)) input
  | 1 => fxNear 1 1 (fxLn x) input
  | 2 => fxNear 1 2 (fxSqrt (fxDiv fxOne x)) input
  | 4 => fxNear 2 4 (fxTanh x) input
  | 5 => fxNear 2 5 (fxSigmoid x) input
  | 6 => fxNear (if x.natAbs ≤ 2 ^ 528 then 2 else 4) 6 (fxSin x) input
  | 7 => fxNear (if x.natAbs ≤ 2 ^ 528 then 2 else 4) 7 (fxCos x) input
  | _ => Config.vfuncValue fn input

/-! ### Activation functions and derivatives (R104) -/

/-- 2 × 0.797885 (x + 0.044715 x³), and its derivative. -/
def fxTanhArg (x : Int) : Int := 2 * 797885 * (x + fxMul x (fxMul x x) * 44715 / 1000000) / 1000000
def fxTanhSlope (x : Int) : Int := 2 * 797885 * (fxOne + 3 * fxMul x x * 44715 / 1000000) / 1000000

/-- f(x) of codes 3 to 8; GELU beyond ±16 is x or 0 in FP32. -/
def fxAct (code : Nat) (x : Int) : Int :=
  let far := decide (16 * fxOne ≤ (x.natAbs : Int))
  let tail := if x > 0 then x else 0
  match code with
  | 3 => if far then tail else fxMul x (fxSigmoid (fxTanhArg x))
  | 4 => if far then tail else fxMul x (fxPhi x)
  | 5 => fxMul x (fxSigmoid x)
  | 6 => fxSigmoid x
  | 7 => fxTanh x
  | _ => if x ≥ 300 * fxOne then x else fxLn (fxOne + fxExp (fxClamp 300 x))

/-- f′(z) of codes 3 to 8. -/
def fxActD (code : Nat) (z : Int) : Int :=
  let far := decide (16 * fxOne ≤ (z.natAbs : Int))
  let tail := if z > 0 then fxOne else 0
  match code with
  | 3 =>
    if far then tail else
    let g := fxSigmoid (fxTanhArg z)
    g + fxMul z (fxMul (fxMul g (fxOne - g)) (fxTanhSlope z))
  | 4 => if far then tail else fxPhi z + fxMul z (fxDensity z)
  | 5 => let g := fxSigmoid z; fxMul g (fxOne + fxMul z (fxOne - g))
  | 6 => let g := fxSigmoid z; fxMul g (fxOne - g)
  | 7 => let t := fxTanh z; fxOne - fxMul t t
  | _ => fxSigmoid z

end Sys2Proof
end

