-- ==== Sys2Proof/Machine/Chain.lean ====
section
/-! DEFINITION. Stages 1 to 6 of the drain chain (R102, R104, R105, R107, R138, R193) and the counter-based generator (R125, R166). -/

namespace Sys2Proof.Machine
open Sys2Proof

/-- The generator of R125: the 32-bit value r. -/
def rng32 (seed c : Word) : Half :=
  let z := seed + c * 0x9E3779B97F4A7C15#64
  let z := (z ^^^ (z >>> 30)) * 0xBF58476D1CE4E5B9#64
  let z := (z ^^^ (z >>> 27)) * 0x94D049BB133111EB#64
  let z := z ^^^ (z >>> 31)
  BitVec.ofNat 32 (bits z 63 32)

/-- The job seed of the committed configuration: word 1 of its modes section (R385). -/
def jobSeed (s : State) : Word := leWord (SMap.getList 0#8 s.cox.active 0xC8 8)

/-! ### Activation (R104) -/

/-- f(x): code 0 passes the value; ReLU and its square are FP32 operations; a NaN gives the default NaN and an infinity the limit; the other functions
lie within 2 ulp of the exact value. -/
def actF (code : Nat) (x : Half) : Half :=
  if code = 0 then x else
  match f32 x with
  | .nan _ => nan32
  | .inf neg =>
    if code = 7 then (if neg then fneg one32 else one32)
    else if neg then 0#32
    else if code = 6 then one32 else inf32 false
  | .fin neg m e =>
    if code = 1 then (if neg || m = 0 then 0#32 else x)
    else if code = 2 then (if neg || m = 0 then 0#32 else fmul x x)
    else if code ≤ 8 then fxNear 2 (16 + code) (fxAct code (fxOf neg m e)) x
    else Config.actValue code x

/-- f′(z). -/
def actD (code : Nat) (z : Half) : Half :=
  if code = 0 then one32 else
  match f32 z with
  | .nan _ => nan32
  | .inf neg =>
    if code = 6 || code = 7 then 0#32
    else if neg then 0#32
    else if code = 2 then inf32 false else one32
  | .fin neg m e =>
    if code = 1 then (if neg || m = 0 then 0#32 else one32)
    else if code = 2 then (if neg || m = 0 then 0#32 else fadd z z)
    else if code ≤ 8 then fxNear 2 (32 + code) (fxActD code (fxOf neg m e)) z
    else Config.actDeriv code z

/-! ### Scale and bias (R102, R138, R193) -/

/-- An FP32 word of the tile's window with its poison. -/
def word32 (x : Tile) (a : Nat) : Half × Bool := let d := x.read a 4; (BitVec.ofNat 32 (leNat (rawBytes d)), anyPoison d)

/-- Stages 2 and 3: lineage rounds by g1round. -/
def scaleBias (lin : Bool) (sc bi : Option Half) (v : Half) : Half :=
  let v := match sc with
    | some k => if lin then g1round (Num.mul (f32 v) (f32 k)) else fmul v k
    | none => v
  match bi with
  | some b => if lin then g1round (Num.add (f32 v) (f32 b)) else fadd v b
  | none => v

/-- The scale that stage 2 applies to column j of the tile at position pos. -/
def scaleWord (x : Tile) (f : DrainF) (pos j : Nat) : Option (Half × Bool) :=
  if f.scm = 1 then some (word32 x f.asV) else if f.scm = 2 then some (word32 x (f.asV + pos * 0x80 + 4 * j)) else none
def biasWord (x : Tile) (f : DrainF) (pos j : Nat) : Option (Half × Bool) :=
  if f.be then some (word32 x (f.abV + pos * 0x80 + 4 * j)) else none

/-- Range and alignment faults of the scale and bias a tile reads (R102). -/
def chainFault (f : DrainF) (pos : Nat) : Option Nat :=
  if f.fo = INT32 then none else
  let rows := (if f.scm = 1 then [(f.asV, 4)] else if f.scm = 2 then [(f.asV + pos * 0x80, 128)] else []) ++ (if f.be then [(f.abV + pos * 0x80, 128)] else [])
  if rows.any (fun p => p.1 % 4 != 0) then some fOPERAND_ALIGN
  else if rows.any (fun p => !inDataOrBuf p.1 p.2) then some fOPERAND_RANGE
  else none

/-- The open F group whose tile of this accumulator index gives z (R105). -/
def zGroup (x : Tile) (idx : Nat) : Option Group := x.groups.find? (fun g => g.arr == 0 && holdsIdx g.first g.cnt idx)

/-- Stage 1: an integer accumulator value as FP32 (R102). -/
def stage1 (gty : Nat) (v : Half) : Half := if gty = 2 then toF32 .even (Num.ofInt v.toInt) else v

/-- z of element (r, j): the F accumulator value, through stages 1 to 3 of the most recent DKEEP (R138). -/
def zValue (x : Tile) (g : Group) (idx r j : Nat) : Half :=
  let v := accWord x 0 idx r j
  if !g.dkept then v else
  let pos := idx - g.first
  let v := stage1 g.gty v
  scaleBias false
    (if g.dkScm = 1 then some (SMap.get 0#32 g.dkS 0) else if g.dkScm = 2 then some (SMap.get 0#32 g.dkS (pos * 32 + j)) else none)
    (if g.dkBe then some (SMap.get 0#32 g.dkB (pos * 32 + j)) else none) v

/-- Stages 1 to 5 of row r of the drain's current tile (R102, R103). -/
def chainRow (x : Tile) (d : Drain) (g : Option Group) (r : Nat) : ChainRow :=
  let f := d.f
  let idx := d.first + d.tile
  let row := accRow x f.arr idx r
  let one := stage1 d.gty
  if f.fo = INT32 then { raw := row.1, vs := row.1.map one, pois := row.2 } else
  let zr := f.dv && ((g.map (fun g => (accRow x 0 idx r).2 || SMap.get false g.dkPois (idx - g.first))).getD false)
  let cells := (List.range 32).map (fun j =>
    let sc := scaleWord x f d.tile j
    let bi := biasWord x f d.tile j
    let v := scaleBias f.lin (sc.map (·.1)) (bi.map (·.1)) (one (nth 0#32 row.1 j))
    let v := if f.dv then (match g with
        | some g => fmul v (actD f.act (zValue x g idx r j))
        | none => v)
      else actF f.act v
    (v, (sc.map (·.2)).getD false || (bi.map (·.2)).getD false))
  { raw := row.1, vs := cells.map (·.1), pois := row.2 || zr || cells.any (·.2) }

/-- What a drain reads of the stores for rows lo on of its current tile: accumulator rows, scale, bias and z (R102, R105). -/
def chainRanges (x : Tile) (d : Drain) (lo : Nat) : List (Nat × Nat) :=
  let f := d.f
  let idx := d.first + d.tile
  let rows := fun arr => (accBase arr idx + lo * 0x80, (32 - lo) * 0x80)
  if f.fo = INT32 then [rows f.arr] else
  rows f.arr :: ((if f.scm = 1 then [(f.asV, 4)] else if f.scm = 2 then [(f.asV + d.tile * 0x80, 0x80)] else []) ++
    (if f.be then [(f.abV + d.tile * 0x80, 0x80)] else []) ++ (if f.dv && (zGroup x idx).isSome then [rows 0] else []))

/-- The rows of the current tile, or the fault that its first access raises (R102, R105). -/
def chainTile (x : Tile) (d : Drain) : Except Nat (List ChainRow) :=
  let dv := d.f.dv && d.f.fo != INT32
  let g := if dv then zGroup x (d.first + d.tile) else none
  match chainFault d.f d.tile with
  | some c => .error c
  | none => if dv && g.isNone then .error fZ_UNAVAILABLE else .ok ((List.range 32).map (chainRow x d g))

/-- The greatest finite magnitude of a tile's values, as FP32 (R156, R180). -/
def tileMax (rows : List ChainRow) : Half :=
  (rows.flatMap (·.vs)).foldl (fun m v => if (f32 v).isFin && decide (m.toNat < (v &&& 0x7FFFFFFF#32).toNat) then v &&& 0x7FFFFFFF#32 else m) 0#32

/-! ### Extremum (R107) -/

/-- Fold values in order into an extremum and its index: the first NaN wins, ties go to the lower index. -/
def extremum (mx : Bool) (start : Option (Half × Nat)) (vs : List (Half × Nat)) : Option (Half × Nat) :=
  vs.foldl (fun b v => match b with
    | none => some v
    | some e => if beats mx v.1 e.1 then some v else some e) start

/-- A NaN that the device makes is the default NaN (R146). -/
def defaultNan (v : Half) : Half := if (f32 v).isNan then nan32 else v

/-- The bytes of an extremum record: 32 FP32 values, then 32 INT16 indices. -/
def extRecord (es : List (Half × Nat)) : List Byte :=
  es.flatMap (fun e => leBytes 4 (defaultNan e.1).toNat) ++ es.flatMap (fun e => leBytes 2 e.2)

/-- Column extrema of a tile. -/
def colExt (mx : Bool) (rows : List ChainRow) : List (Half × Nat) :=
  (List.range 32).map (fun j => (extremum mx none ((List.range 32).map (fun r => (nth 0#32 (nth ⟨[], [], false⟩ rows r).vs j, r)))).getD (0#32, 0))

/-- Row extrema carried on over the tiles of the group. -/
def rowExt (mx : Bool) (d : Drain) (rows : List ChainRow) : List (Half × Nat) :=
  (List.range 32).map (fun r =>
    let start := if d.tile = 0 then none else some (SMap.get 0#32 d.extV r, SMap.get 0 d.extI r)
    (extremum mx start ((List.range 32).map (fun j => (nth 0#32 (nth ⟨[], [], false⟩ rows r).vs j, d.tile * 32 + j)))).getD (0#32, 0))

/-! ### Conversion of a tile -/

/-- The rounding of an element (R166): stochastic draws depend on seed, tensor id, step, a[ad] and position. -/
def drainRnd (s : State) (d : Drain) (r j : Nat) : Rnd :=
  if d.f.stoch && d.fmt ≠ FP32 && d.fmt ≠ INT32 then
    let seed := jobSeed s + w64 d.f.tid * 0xD1B54A32D192ED03#64 + w64 (stepOf s) * 0xAEF17502108EF2D9#64
    .stoch (rng32 seed (w64 (d.f.ad * 16384 + d.tile * 1024 + r * 32 + j))).toNat
  else .even

/-- TSC_CTL of the drain's tensor id in force: nominal format, arrangement, margin, threshold (R173). -/
def tscCtl (s : State) (tid : Nat) : Word := effReg s (reg .TSC_CTL tid)
def tscScale (s : State) (tid : Nat) : Half := (rget s (reg .TSC_SCALE tid)).truncate 32

/-- The pair this drain names is the pair of the pass at its own slot. -/
def ownPass (d : Drain) : Bool := d.passes == 0 && d.slot == 0

/-- The tensor scale of the current pass (R154, R180), where its pair takes one. -/
def passScale (s : State) (d : Drain) (m : Half) : Option Half :=
  if !takesScale d.fmt d.farr then none else
  let c := tscCtl s d.f.tid
  if d.kind = 0 then some (effScale (tscScale s d.f.tid) (bits c 3 0) (bits c 5 4) d.fmt d.farr)
  else some (scaleQuot .up (f32 m) (if d.kind = 1 then bits c 8 6 else 0) (rangeConst d.fmt d.farr))

/-- Convert the current tile in its pass's pair (R162, R170, R182); lineage and INT32 outputs have their own conversion. -/
def convTile (s : State) (d : Drain) (rows : List ChainRow) : List Row7 :=
  if d.f.lin && d.f.fo = L12 then
    rows.map (fun c => { els := c.vs.map (fun v => { code := toL12 v, nonfin := !(f32 v).isFin, zero := (f32 v).isFin && toL12 v % 2048 == 0 }) })
  else if d.f.fo = INT32 then rows.map (fun c => { els := c.raw.map (fun v => { code := v.toNat }) })
  else
    let th := if ownPass d then thetaOf (BitVec.ofNat 32 (bits (tscCtl s d.f.tid) 63 32)) d.fmt d.farr else none
    let sc := passScale s d (tileMax rows)
    (List.range 32).map (fun r => convRow d.fmt d.farr th sc (drainRnd s d r) (fun i => (Config.openByte (nth ⟨[], [], false⟩ rows r).vs i).toNat) ((nth ⟨[], [], false⟩ rows r).vs.map f32))

/-- Counts of a tile: zero, saturated, non-finite, total (R164, R176); an INT32 output is not classified. -/
def tileCounts (d : Drain) (rs : List Row7) : List Nat :=
  if d.f.fo = INT32 then [0, 0, 0, 0] else
  let es := rs.flatMap (·.els)
  [(es.filter (·.zero)).length, (es.filter (·.sat)).length, (es.filter (·.nonfin)).length, es.length]

/-- The outliers of a tile with their positions (R169). -/
def tileOutliers (rs : List Row7) : List (Nat × Nat) :=
  ((List.range rs.length).map (fun r => (nth { els := [] } rs r).outl.map (fun o => (r * 32 + o.1, o.2)))).flatten

end Sys2Proof.Machine
end

