-- ==== Sys2Proof/Machine/Drain.lean ====
section
/-! DEFINITION. The drain instructions and the drain unit (R101 to R108, R135, R156, R161, R176 to R186, R190, R193), and
adjudication of drain rows (R398, R402). -/

namespace Sys2Proof.Machine
open Sys2Proof

/-! ### DCLOSE, DKEEP, LCLOSE -/

/-- Reserved values of format D (R62). -/
def badDrain (w : BitVec 56) (w1 : Word) : Bool :=
  bits w 19 0 != 0 || bits w1 31 0 != 0 || xArr w == 3 || bits w 38 37 == 3 || decide (8 < bits w 35 32) || bits w 31 30 == 3 ||
  decide (4 < bits w 27 25) || (bit w 28 && xArr w != 1)

/-- The output pairs of R103. -/
def outPairOk (fo arro : Nat) : Bool :=
  if isNarrow fo then arro == 1 || arro == 2 else if isFP8 fo then arro ≤ 2
  else arro == 0 && (fo == FP32 || fo == BF16 || fo == FP16 || fo == INT8 || fo == INT4 || fo == INT16 || fo == UINT8 || fo == INT32)

/-- Issue of DCLOSE and DKEEP: field faults, then the array queue (R103, R110, R148). -/
def issueDrain (t opc : Nat) (keep : Bool) (w : BitVec 56) (w1 : Word) (s : State) : State :=
  issue t w (isSecond w1) { words := 2, bad := badDrain w w1, post := dPost w, opc := opc, unit := 2 + xArr w, opnd := some (bit w 43, (tileOf s t).addr (bits w 47 44)) } (fun h s =>
    let x := tileOf s t
    let f := drainFields x w w1 keep false
    if !outPairOk f.fo f.arro || (isFP6 f.fo && x.fp6D == 0) then fieldFault t f.arr f.g h fFORMAT s
    else queueArr t [f.arr] { hdr := h, kind := .drain f } s) s

/-- DCLOSE (R62, R101 to R103). -/
def execDclose (t : Nat) (w : BitVec 56) (w1 : Word) (s : State) : Out := .next (issueDrain t 0x60 false w w1 s)

/-- DKEEP (R62, R101 to R103). -/
def execDkeep (t : Nat) (w : BitVec 56) (w1 : Word) (s : State) : Out := .next (issueDrain t 0x61 true w w1 s)

/-- LCLOSE (R193): F array, L12 or FP32 plain, scale none or scalar, no activation or ReLU. -/
def execLclose (t : Nat) (w : BitVec 56) (w1 : Word) (s : State) : Out :=
  .next (issue t w (isSecond w1)
    { words := 2, bad := bits w 19 0 != 0 || bits w1 31 0 != 0 || xArr w == 3 || !(bits w 42 39 == L12 || bits w 42 39 == FP32) || bits w 38 37 != 0 ||
        decide (1 < bits w 31 30) || decide (1 < bits w 35 32) || bit w 28 || bits w 27 25 != 0 || bit w 36,
      post := dPost w, opc := 0xE1, unit := 2, opnd := some (bit w 43, (tileOf s t).addr (bits w 47 44)) } (fun h s =>
    let f := drainFields (tileOf s t) w w1 false true
    if f.arr ≠ 0 then fieldFault t f.arr f.g h fLINEAGE_ARRAY s
    else queueArr t [0] { hdr := h, kind := .drain f } s) s)

/-! ### The drain unit -/

/-- The drain that an array's drain unit runs or runs next (R102). -/
def headDrain (x : Tile) (arr : Nat) : Option Drain := x.drains.find? (fun d => d.f.arr == arr)

/-- Replace the head drain of an array. -/
def putDrain : List Drain → Drain → List Drain
  | [], _ => []
  | e :: es, d => if e.f.arr == d.f.arr then d :: es else e :: putDrain es d

/-- Remove the head drain of an array. -/
def cutDrain : List Drain → Nat → List Drain
  | [], _ => []
  | e :: es, arr => if e.f.arr == arr then es else e :: cutDrain es arr

def setDrain (t : Nat) (d : Drain) (s : State) : State := modTile t (fun x => { x with drains := putDrain x.drains d }) s

/-- The drain leaves its unit; tiles of a DCLOSE that it still held lose their poison. -/
def dropDrain (t : Nat) (d : Drain) (s : State) : State :=
  modTile t (fun x => { (if d.f.keep then x else x.clearPoison d.f.arr (d.first + d.tile) (d.cnt - d.tile)) with drains := cutDrain x.drains d.f.arr }) s

/-- A fault of a running drain: it ends, its descriptor fails (R86, R110). -/
def drainFault (t : Nat) (d : Drain) (code addr : Nat) (s : State) : State :=
  settleAll t (noteArrFault t d.f.arr d.f.g code (unitFault t d.hdr { code := code, addr := addr, arr := d.f.arr, grp := d.f.g } (dropDrain t d s)))

/-- Write pieces in order under the write rules of R69; the first that may not be written stops with its fault. -/
def writePieces (t : Nat) (dsp : Bool) : List (Nat × List Byte) → State → State × Option (Nat × Nat)
  | [], s => (s, none)
  | p :: ps, s =>
    match rangeFault s t dsp p.1 p.2.length true with
    | some c => (recRefusal t dsp c.1 c.2 true s, some c)
    | none => writePieces t dsp ps (tileWrite t dsp p.1 (cleanBytes p.2) s)

/-- The own output slot of a drain's current tile (R103, R148). -/
def ownPlace (x : Tile) (d : Drain) : Place :=
  { ad := d.f.ad, cnt := d.cnt, pos := d.tile, low := fun e => x.lowPlane (if (e / 16) % 2 = 1 then e - 16 else e) }

/-- The spill slot of a tile: as tile 0 of a one-tile group at slot + 0x400, low plane at slot + 0x880 (R182). -/
def slotBase (s : State) (d : Drain) : Nat := bits (effReg s (reg .BLT_SPILL d.f.tid)) 47 10 * 1024 + d.slotNo * 0xC00
def slotPlace (s : State) (d : Drain) : Place := { ad := slotBase s d + 0x400, cnt := 1, pos := 0, low := fun _ => slotBase s d + 0x880 }

/-- Pieces of converted rows lo to hi - 1. -/
def tilePieces (p : Place) (fo arro : Nat) (conv : List Row7) (lo hi : Nat) : List (Nat × List Byte) :=
  ((List.range hi).drop lo).flatMap (fun r =>
    let c := nth { els := [] } conv r
    rowPieces p fo arro r (c.els.map (·.code)) c.sbs (Config.openByte ((c.els.map (·.code) ++ c.sbs).map (BitVec.ofNat 32))))

/-- Sillage selection applies to the tile's own pair (R170). -/
def selects (s : State) (d : Drain) : Bool := (thetaOf (BitVec.ofNat 32 (bits (tscCtl s d.f.tid) 63 32)) d.f.fo d.f.arro).isSome

/-- The marker in the own output slot (R183). -/
def markerPieces (s : State) (x : Tile) (d : Drain) : List (Nat × List Byte) :=
  let m := markerRow d.f.fo d.f.arro
  (List.range 32).flatMap (fun r => rowPieces (ownPlace x d) d.f.fo d.f.arro r m.1 m.2 (Config.openByte ((m.1 ++ m.2).map (BitVec.ofNat 32)))) ++
  (if selects s d then listPieces (ownPlace x d) d.f.fo [] else [])

/-- A spill header or format-log entry (R184). -/
def flogEntry (s : State) (t : Nat) (d : Drain) (scale : Half) (slot : Nat) : List Byte :=
  leBytes 8 (d.f.ad + d.tile * 2 ^ 48 + d.f.arr * 2 ^ 52) ++ leBytes 2 d.f.tid ++ leBytes 1 (d.fmt + d.farr * 16) ++ leBytes 1 (d.cause + d.passes * 16) ++
  leBytes 4 (stepOf s) ++ leBytes 4 scale.toNat ++ leBytes 2 t ++ leBytes 2 0 ++ leBytes 4 slot ++ leBytes 4 0

/-- Append to the format log where it is enabled (R190). -/
def flogAppend (t : Nat) (e : List Byte) (s : State) : State :=
  let c := rget s (reg .TILE_FLOG t)
  if !bit c 0 then s else
  let cap := 128 * 2 ^ bits c 3 1
  let a := bits c 47 12 * 4096 + (rbits s (reg .TILE_FLOG_CNT t) 47 0 % cap) * 32
  if !stkPresent s a || stackLost s (physStack (physOf s (backing s false a))) then rsetBit (reg .GUARD_ERR) 1 true s
  else rcount (reg .TILE_FLOG_CNT t) 48 1 (stkWrite (.tile t) a (cleanBytes e) s)

/-- Add to one of the step counts that BLT_EVT publishes: 0 retried, 1 widened, 2 sillage overflow, 3 stopped (R195). -/
def evtCount (tid k : Nat) (s : State) : State :=
  let l := SMap.get [0, 0, 0, 0] s.blt.evt tid
  { s with blt := { s.blt with evt := SMap.put [0, 0, 0, 0] s.blt.evt tid (setNth l k (min 0xFFFF (nth 0 l k + 1))) } }

/-- A tile's report is on its way to the blotter (R156, R176). -/
def sendReport (tid : Nat) (amax : Half) (cnts : List Nat) (s : State) : State :=
  { s with blt := { s.blt with reports := s.blt.reports ++ [{ tid := tid, amax := amax, cnts := cnts }] } }

/-- The floor in force for a tensor id (R186). -/
def floorOf (s : State) (tid : Nat) : Nat :=
  let l := bits (effReg s (reg .BLT_THR tid)) 63 56
  if l = 0 then 0 else bits (effReg s (reg .BLT_LAYER l)) 1 0

/-- Count a pass that has been made: a retry, one on a higher rung than the drain's pair (R195, R196). -/
def passMade (t : Nat) (d : Drain) (s : State) : Drain × State :=
  let r := decide (d.kind ≠ 0)
  let w := rungOf d.fmt d.farr != rungOf d.f.fo d.f.arro
  let s := if r then rcount (reg .GUARD_RETRIES) 48 1 s else s
  let s := if w then rcount (reg .GUARD_WIDENS) 48 1 s else s
  let s := if r && !d.retried then evtCount d.f.tid 0 s else s
  let s := if w && !d.widened then evtCount d.f.tid 1 s else s
  let d := { d with retried := d.retried || r, widened := d.widened || w }
  (d, setDrain t d s)

/-- Pass 0 of a tile begins: at its own pair, or at the floor pair with a slot asked for (R182, R186). -/
def beginTile (t : Nat) (d : Drain) (s : State) : State :=
  let own := { d with fmt := d.f.fo, farr := d.f.arro }
  if d.f.lin then setDrain t own s else
  match rungOf d.f.fo d.f.arro with
  | none => setDrain t own s
  | some r =>
    if floorOf s d.f.tid ≤ r then setDrain t own s
    else
      let p := floorPair (floorOf s d.f.tid) d.f.fo d.f.arro
      setDrain t { d with fmt := p.1, farr := p.2, slot := 1, cause := 4 } s

/-- What a finished tile writes beside its rows: extremum records and the index plane (R107). -/
def extPieces (d : Drain) (rows : List ChainRow) : List (Nat × List Byte) :=
  let f := d.f
  if d.mode ≠ 0 then
    [(f.axV + d.tile * 0x800, (List.range 1024).flatMap (fun e => leBytes 2 (SMap.get 0xFFFF d.idx (d.tile * 1024 + e))))]
  else if f.mm = 3 || f.mm = 4 then [(f.axV + d.tile * 0xC0, extRecord (colExt (f.mm == 3) rows))]
  else if (f.mm = 1 || f.mm = 2) && d.tile + 1 == d.cnt then [(f.axV, extRecord (rowExt (f.mm == 1) d rows))]
  else []

/-- The tile has finished in the drain: report, extremum, release of its rows; the next tile follows (R106, R107, R156, R176). -/
def finishTile (t : Nat) (d : Drain) (rows : List ChainRow) (conv : List Row7) (s : State) : State :=
  match writePieces t d.f.dsp (extPieces d rows) s with
  | (s, some c) => drainFault t d c.1 c.2 s
  | (s, none) =>
    let s := sendReport d.f.tid (tileMax rows) (tileCounts d conv) s
    let ext := if d.f.mm = 1 || d.f.mm = 2 then rowExt (d.f.mm == 1) d rows else []
    let s := if d.f.keep then s else modTile t (fun x => x.clearPoison d.f.arr (d.first + d.tile) 1) s
    let ev := ext.zipIdx.foldl (fun m e => SMap.put 0#32 m e.2 e.1.1) d.extV
    let ei := ext.zipIdx.foldl (fun m e => SMap.put 0 m e.2 e.1.2) d.extI
    setDrain t { d with tile := d.tile + 1, kind := 0, passes := 0, cause := 0, slot := 0, pend := false, kept := [], retried := false, widened := false, adj := none, extV := ev, extI := ei } s

/-- Write an accepted pass to its spill slot: data, header, marker, log (R182 to R185, R190). -/
def spillTile (t : Nat) (d : Drain) (rows : List ChainRow) (conv : List Row7) (s : State) : State :=
  let x := tileOf s t
  let scale := (passScale s d (tileMax rows)).getD 0#32
  let data := tilePieces (slotPlace s d) d.fmt d.farr conv 0 32
  let e := flogEntry s t d scale d.slotNo
  let s1 := (data ++ [(slotBase s d, e ++ List.replicate 32 0#8)]).foldl (fun s p => stkWrite (.tile t) p.1 (cleanBytes p.2) s) s
  match writePieces t d.f.dsp (markerPieces s x d) s1 with
  | (s2, some c) => drainFault t d c.1 c.2 s2
  | (s2, none) => finishTile t d rows conv (flogAppend t e { s2 with fresh := s2.fresh + 1 })

/-- The tile stops: marker, TILE_GUARD_STOP, log, report of its maximum, OVERFLOW_STOP (R181 to R184, R156). -/
def stopTile (t : Nat) (d : Drain) (rows : List ChainRow) (s : State) : State :=
  let x := tileOf s t
  let scale := (passScale s d (tileMax rows)).getD 0#32
  let w := writePieces t d.f.dsp (markerPieces s x d) { s with fresh := s.fresh + 1 }
  let s := w.1
  let s := rset (reg .TILE_GUARD_STOP t) (w64 (d.f.tid + d.tile * 2 ^ 12 + d.fmt * 2 ^ 16 + d.cause * 2 ^ 20 + 2 ^ 63)) s
  let s := evtCount d.f.tid 3 (rcount (reg .GUARD_STOPS) 48 1 s)
  let s := flogAppend t (flogEntry s t d scale 0xFFF) s
  let s := sendReport d.f.tid (tileMax rows) [0, 0, 0, 0] s
  drainFault t d (match w.2 with | some c => c.1 | none => fOVERFLOW_STOP) (match w.2 with | some c => c.2 | none => 0) s

/-- The pass that follows a rejected one (R180): kind, format, arrangement, and whether it stands on another rung. -/
def nextPass (s : State) (d : Drain) (sill : Bool) : Nat × Nat × Nat × Bool :=
  let m := bits (tscCtl s d.f.tid) 8 6
  let up := nextRung d.fmt d.farr
  if sill then (0, E4M3, d.farr, true)
  else if d.kind = 0 && takesScale d.fmt d.farr then (1, d.fmt, d.farr, false)
  else if d.kind = 1 && m > 0 then (2, d.fmt, d.farr, false)
  else (0, up.1, up.2, true)

/-- A rejected pass (R179 to R182): the tile stops, or its next pass is set and a slot asked for. -/
def rejectPass (t : Nat) (d : Drain) (rows : List ChainRow) (sill : Bool) (cause : Nat) (s : State) : State :=
  let d := { d with passes := d.passes + 1, cause := if d.cause = 0 then cause else d.cause, adj := none }
  let s := pmcCount t 14 1 s
  let s := if sill then evtCount d.f.tid 2 (rcount (reg .GUARD_SILL_OVF) 48 1 s) else s
  let n := nextPass s d sill
  if assist s 1 || (assist s 2 && n.2.2.2) then stopTile t d rows (setDrain t d (slotInFlight d s))
  else
    let d := { d with kind := n.1, fmt := n.2.1, farr := n.2.2.1, slot := if d.slot = 0 then 1 else d.slot }
    setDrain t d s

/-- The guard's verdict on a converted tile (R179): sillage overflow, cause of rejection if any. -/
def passVerdict (s : State) (d : Drain) (conv : List Row7) : Bool × Option Nat :=
  let sill := decide ((tileOutliers conv).length > 32)
  let flushed := ((conv.flatMap (·.els)).filter (·.flush)).length
  (sill, if sill then some 2 else if conv.any (·.ovf) then some 1
    else if d.kind ≠ 0 && flushed > bits (effReg s (reg .BLT_GUARD d.f.tid)) 7 0 then some 3 else none)

/-- The current pass reaches its decision with the rows from `lo` on still to be written; `fail` is the first row whose residue
verdict fails (R25, R106, R179, R185, R398, R402). -/
def passDecide (t : Nat) (d : Drain) (lo : Nat) (fail : Option Nat) (s : State) : State :=
  let s := meetRanges t (chainRanges (tileOf s t) d lo) s
  let x := tileOf s t
  match chainTile x d with
  | .error c => drainFault t d c 0 (slotInFlight d s)
  | .ok rows =>
    let conv := convTile s d rows
    let poisRow := findIdx (·.pois) rows
    let failRow := fail.getD 32
    let stop := min poisRow failRow
    let own := ownPass d
    let sel := own && (stop == 32) && selects s d && !d.f.lin
    let ps := if own then tilePieces (ownPlace x d) d.fmt d.farr conv lo stop ++ (if sel then listPieces (ownPlace x d) d.fmt (tileOutliers conv) else []) else []
    if ps.any (fun p => accessWaits s t d.f.dsp p.1 p.2.length) then s else
    match writePieces t d.f.dsp ps s with
    | (s, some c) => drainFault t d c.1 c.2 s
    | (s, none) =>
      let s := pmcCount t 12 (stop - lo) (rcount (reg .TILE_DRAIN_ROWS t) 48 (stop - lo) { s with fresh := s.fresh + 1 })
      if poisRow < 32 && poisRow ≤ failRow then drainFault t d fPOISON 0 (slotInFlight d s)
      else if failRow < 32 then
        if assist s 6 then
          let raw := rows.flatMap (fun r => (if d.gty = 2 then r.raw.map (fun v => toF32 .even (Num.ofInt v.toInt)) else r.raw).flatMap (fun v => leBytes 4 v.toNat))
          let q := QuarInfo.mk d.f.arr d.f.g d.tile failRow (Config.freeByte s.fresh 0).toNat d.f.tid d.f.ad raw
          drainFault t d fQUARANTINE 0 (quarantine t q (slotInFlight d s))
        else setDrain t { d with adj := some { row := failRow } } s
      else
        let v := passVerdict s d conv
        let m := passMade t d s
        let d := m.1
        let s := m.2
        match v.2 with
        | some c => rejectPass t d rows v.1 c s
        | none =>
          let d := { d with passes := d.passes + 1, adj := none }
          if own then finishTile t d rows conv (setDrain t d s)
          else if d.slot = 2 then spillTile t d rows conv (setDrain t d s)
          else setDrain t { d with pend := true, kept := rows } s

/-! ### Events of the drain unit -/

/-- The scale and bias of a DKEEP on F stay with its group, for z (R138); INT32 output skips stages 2 and 3 (R103). -/
def keepScale (t : Nat) (d : Drain) (s : State) : State :=
  let x := tileOf s t
  let f : DrainF := if d.f.fo = INT32 then { d.f with scm := 0, be := false } else d.f
  let cells := fun (base : Nat) => (List.range (d.cnt * 32)).map (fun e => (e, (word32 x (base + (e / 32) * 0x80 + 4 * (e % 32))).1))
  let bad := fun (pos : Nat) => (List.range 32).any (fun j => ((scaleWord x f pos j).map (·.2)).getD false || ((biasWord x f pos j).map (·.2)).getD false)
  let keep := fun (g : Group) => { g with
    dkept := true, dkScm := f.scm, dkBe := f.be
    dkS := if f.scm = 1 then [(0, (word32 x f.asV).1)] else if f.scm = 2 then cells f.asV else []
    dkB := if f.be then cells f.abV else []
    dkPois := ((List.range d.cnt).filter bad).map (fun pos => (pos, true)) }
  modTile t (fun x => { x with groups := x.groups.map (fun g => if g.arr == 0 && g.g == d.f.g && decide (g.sn < d.hdr.sn) then keep g else g) }) s

/-- DRAIN_START (R101, R102, R135, R404): the first drain of the array begins; a DKEEP on F leaves its scale and bias for z (R138). -/
def execDrainStart (t arr : Nat) (s : State) : Out :=
  .next (
    let x := tileOf s t
    match headDrain x arr with
    | none => s
    | some d =>
      if !running s || d.started then s else
      let s := rsetBit (reg .TILE_TAINT t (d.f.tid / 64)) (d.f.tid % 64) true s
      let s := setDrain t { d with started := true } s
      if d.f.keep && arr = 0 then keepScale t d s else s)

/-- A drain tile has entered stage 7 and not finished. -/
def midTile (d : Drain) : Bool := d.passes != 0 || d.pend || d.adj.isSome || d.slot != 0

/-- A step advance in progress holds every drain before the first row of its next tile (R159). -/
def advanceHolds (s : State) (d : Drain) : Bool := !s.blt.advWait.isEmpty && !midTile d

/-- GUARD_PASS_DECISION (R106, R179 to R186): the pass of the current tile is decided. A drain that has begun completes in HOLD (R369). -/
def execGuardPassDecision (t arr : Nat) (badRow : Option Nat) (s : State) : Out :=
  .next (
    match headDrain (tileOf s t) arr with
    | none => s
    | some d =>
      if !d.started || d.fetch || d.adj.isSome || d.pend || d.tile ≥ d.cnt || advanceHolds s d then s else
      let r := readyTile t d.hdr.sn arr (d.first + d.tile) (initsLeft (tileOf s t)) s
      if !r.1 then r.2 else
      let s := r.2
      let s := if d.passes = 0 then beginTile t d s else s
      match headDrain (tileOf s t) arr with
      | some d => passDecide t d 0 (badRow.map (fun r => r % 32)) s
      | none => s)

/-- SPILL_SLOT_ALLOCATION (R182): a slot of the tensor id, or none, which stops the tile with cause 5. -/
def execSpillSlotAllocation (t arr : Nat) (s : State) : Out :=
  .next (
    let x := tileOf s t
    match headDrain x arr with
    | none => s
    | some d =>
      if d.slot ≠ 1 then s else
      let g := reg .BLT_GUARD d.f.tid
      let used := rbits s g 19 8
      match (if d.pend then Except.ok d.kept else chainTile x d) with
      | .error c => drainFault t d c 0 s
      | .ok rows =>
      if used < bits (effReg s (reg .BLT_SPILL d.f.tid)) 59 48 then
        let d := { d with slot := 2, slotNo := used }
        let s := setDrain t d (rsetBits g 19 8 (used + 1) s)
        if d.pend then spillTile t { d with pend := false, kept := [] } rows (convTile s d rows) (setDrain t { d with pend := false, kept := [] } s)
        else s
      else
        let d := { d with cause := 5, passes := max 1 d.passes }
        stopTile t d rows (setDrain t d (rsetBit (reg .GUARD_ERR) 0 true s)))

/-- TSC_FETCH_COMPLETION (R161): the entries arrive, the oldest of 16 cached ones gives way. -/
def execTscFetchCompletion (t arr : Nat) (s : State) : Out :=
  .next (
    let x := tileOf s t
    match x.drains.find? (fun d => d.f.arr == arr && d.fetch) with
    | none => s
    | some d =>
      let c := x.cache.filter (fun k => k != d.f.tid) ++ [d.f.tid]
      setTile t { x with
        cache := c.drop (c.length - 16)
        drains := x.drains.map (fun e => if e.hdr.sn == d.hdr.sn && e.f.arr == arr then { e with fetch := false } else e) } s)

/-- DRAIN_COMPLETION (R84, R108): every row is written and acknowledged; the drain posts. -/
def execDrainCompletion (t arr : Nat) (s : State) : Out :=
  .next (
    match headDrain (tileOf s t) arr with
    | none => s
    | some d =>
      if !d.started || d.tile < d.cnt then s
      else settleAll t (post t d.hdr (dropDrain t d s)))

/-- Take one report into the blotter: running maximum and class counters (R156, R176). -/
def takeReport (r : Report) (s : State) : State :=
  let a := reg .TSC_AMAX r.tid
  let s := rsetBits a 31 0 (max (rbits s a 31 0) r.amax.toNat) s
  let s := rcount (reg .BLT_ZERO r.tid) 48 (nth 0 r.cnts 0) s
  let s := rcount (reg .BLT_SAT r.tid) 48 (nth 0 r.cnts 1) s
  let s := rcount (reg .BLT_NONFIN r.tid) 48 (nth 0 r.cnts 2) s
  rcount (reg .BLT_TOTAL r.tid) 48 (nth 0 r.cnts 3) s

/-- BLOTTER_REPORT (R156, R176): the oldest report under way reaches the blotter. -/
def execBlotterReport (s : State) : Out :=
  .next (
    match s.blt.reports with
    | [] => s
    | r :: rs => takeReport r { s with blt := { s.blt with reports := rs } })

/-! ### Adjudication (R398) -/

/-- An idle tile that may recompute for tile t: idle, empty deque, in service, same side of the heat-slice boundary. -/
def idleHelper (s : State) (t u : Nat) : Bool :=
  u != t && decide (u < 1152) && (tileOf s u).seq == .idle && (tileOf s u).dq.isEmpty && tileState s u == 0 && isHeat s u == isHeat s t

/-- The nearest idle tile by the logical distance of R204, ties left open. -/
def nearestHelper (s : State) (t u : Nat) (besides : Nat) : Bool :=
  idleHelper s t u && u != besides && (List.range 1152).all (fun v => !(idleHelper s t v && v != besides && decide (gridDist t v < gridDist t u)))

/-- Array b of the tile can recompute a drain's rows: it runs the forms of the group's MMAs and has an output tile outside every open group (R95,
R398 step 1). -/
def arrayServes (x : Tile) (d : Drain) (b : Nat) : Bool :=
  decide (b < 3) && b != d.f.arr && (d.forms ≤ 1 || (d.forms ≤ 3 && d.f.arr != 2 && b != 2)) &&
  (List.range 16).any (fun i => x.groups.all (fun g => g.arr != b || decide (i < g.first) || decide (g.first + g.cnt ≤ i)))

/-- Where the next recompute of an adjudication runs, tile and unit (R398 steps 1 and 4): `arrays` are those of the tile itself that serve; else the
nearest idle tile. -/
def adjPlace (s : State) (t unit : Nat) (arrays : List Nat) (onArray : Option Nat) (helper : Nat) (a : Adj) : Option (Nat × Nat) :=
  if a.attempts = 1 && !arrays.isEmpty then onArray.bind (fun b => if arrays.contains b then some (t, b) else none)
  else if nearestHelper s t helper (if a.attempts = 1 then t else a.tile2) then some (helper, unit)
  else none

/-- A recompute runs at a place. -/
def Adj.begin (a : Adj) (p : Nat × Nat) : Adj :=
  if a.attempts = 1 then { a with started := true, tile2 := p.1, unit2 := p.2, at_ := p.1 } else { a with started := true, at_ := p.1 }

/-- ADJUDICATION (R398): a recompute of the failing rows begins on another array of the tile, where one serves, or on the nearest idle tile; for a
vector disagreement, on the nearest idle tile's vector engine. -/
def execAdjudication (t unit : Nat) (onArray : Option Nat) (helper : Nat) (s : State) : Out :=
  .next (
    let x := tileOf s t
    let begin_ := fun (s : State) => pmcCount t 28 1 (rcount (reg .TILE_RES_ADJ t) 48 1 s)
    if unit = 3 then
      match x.vAdj with
      | some a => if a.started then s else match adjPlace s t 3 [] onArray helper a with
        | some p => begin_ (setTile t { x with vAdj := some (a.begin p) } s)
        | none => s
      | none => s
    else match headDrain x unit with
      | some d => match d.adj with
        | some a => if a.started then s else match adjPlace s t unit ((List.range 3).filter (arrayServes x d)) onArray helper a with
          | some p => begin_ (setDrain t { d with adj := some (a.begin p) } s)
          | none => s
        | none => s
      | none => s)

/-- The charges that follow a trusted recompute (R398 steps 2 to 5). -/
def adjCharge (t unit grp pos tid : Nat) (a : Adj) (same firstSame : Bool) (s : State) : State :=
  let s := chargeEvent t unit grp pos a.row tid a.at_ (!same) s
  if a.attempts = 1 then s else chargeEvent a.tile2 a.unit2 grp pos a.row tid a.at_ (!firstSame) s

/-- The result of a drain row's adjudication (R398, R402). -/
def adjudicateDrain (t unit : Nat) (pass same firstSame : Bool) (s : State) : State :=
  match headDrain (tileOf s t) unit with
  | none => s
  | some d => match d.adj with
    | none => s
    | some a =>
      if !a.started then s
      else if pass then passDecide t d a.row none (adjCharge t unit d.f.g d.tile d.f.tid a same firstSame s)
      else if a.attempts = 1 then setDrain t { d with adj := some { a with attempts := 2, started := false } } s
      else
        let x := tileOf s t
        let raw := (List.range 32).flatMap (fun r => ((accRow x d.f.arr (d.first + d.tile) r).1.map (fun v => if d.gty = 2 then toF32 .even (Num.ofInt v.toInt) else v)).flatMap (fun v => leBytes 4 v.toNat))
        let q := QuarInfo.mk unit d.f.g d.tile a.row (Config.freeByte s.fresh 0).toNat d.f.tid d.f.ad raw
        drainFault t d fQUARANTINE 0 (quarantine t q (slotInFlight d s))

end Sys2Proof.Machine
end

