-- ==== Sys2Proof/Machine/Vector.lean ====
section
/-! DEFINITION. The vector engine (R112 to R131): issue of the vector instructions into their queue, and what each does when it
completes in the unit. -/

namespace Sys2Proof.Machine
open Sys2Proof

/-! ### Fault codes of R130 -/
def fVEC_FORM : Nat := 0x40
def fLANE_RANGE : Nat := 0x41
def fLANE_POISON : Nat := 0x42

/-! ### Issue -/

/-- Queue a vector instruction with its a and s registers read (R59, R81, R82). `bad` holds the reserved-field rules of its
opcode, `form` its VEC_FORM rules, `rs` the scalar registers it reads or writes. -/
def issueVec (t opc : Nat) (w : BitVec 56) (bad form : Bool) (rs : List Nat) (s : State) : State :=
  let mem := opc == 0x80 || opc == 0x81
  issue t w true { bad := bits w 15 0 != 0 || (vTy w == 3 && opc != 0x85) || bad, rs := rs, post := vPost w, opc := opc, unit := 5, opnd := if mem then some (false, (tileOf s t).addr (vAb w)) else none } (fun h s =>
    let x := tileOf s t
    if form then .fault fVEC_FORM 0 0 (rset (reg .TILE_VEC_FAULT t) (w64 (fVEC_FORM + 2 ^ 63)) s)
    else if x.vec.length ≥ queueDepth then .stall
    else .done (setTile t { x with vec := x.vec ++ [{ hdr := h, opc := opc, w := w, av := x.addr (vAb w), sv := x.sr (vSs w) }] } s)) s

/-- Formats VCVT accepts (R117). -/
def cvtFmts : List Nat := [FP32, BF16, FP16, E4M3, E5M2, INT32, INT16, INT8, UINT8]

/-- VLD (R119). -/
def execVld (t : Nat) (w : BitVec 56) (s : State) : Out :=
  .next (issueVec t 0x80 w (decide (2 < vFn w)) (vFn w != 0 && vTy w == 1) [] s)
/-- VST (R119): vd must be 0. -/
def execVst (t : Nat) (w : BitVec 56) (s : State) : Out :=
  .next (issueVec t 0x81 w (decide (2 < vFn w) || vVd w != 0) (vFn w != 0 && vTy w == 1) [] s)
/-- VSPLAT (R114). -/
def execVsplat (t : Nat) (w : BitVec 56) (s : State) : Out := .next (issueVec t 0x82 w false false [vSs w] s)
/-- VMOVS (R114). -/
def execVmovs (t : Nat) (w : BitVec 56) (s : State) : Out := .next (issueVec t 0x83 w false false [vSs w] s)
/-- VCMP (R114): codes 10 to 13 on floats, 0 to 9 on INT32. -/
def execVcmp (t : Nat) (w : BitVec 56) (s : State) : Out :=
  .next (issueVec t 0x84 w (badCond (vFn w) || (decide (vFn w < 10) != (vTy w == 2))) false [] s)
/-- VMLOG (R114): masks 0 to 3, mu 0. -/
def execVmlog (t : Nat) (w : BitVec 56) (s : State) : Out :=
  .next (issueVec t 0x85 w (decide (6 < vFn w) || decide (3 < vVa w) || decide (3 < vVb w) || vMu w) false [] s)
/-- VADD (R115). -/
def execVadd (t : Nat) (w : BitVec 56) (s : State) : Out := .next (issueVec t 0x88 w false false [] s)
/-- VSUB (R115). -/
def execVsub (t : Nat) (w : BitVec 56) (s : State) : Out := .next (issueVec t 0x89 w false false [] s)
/-- VMUL (R115). -/
def execVmul (t : Nat) (w : BitVec 56) (s : State) : Out := .next (issueVec t 0x8A w false false [] s)
/-- VFMA (R115, R128). -/
def execVfma (t : Nat) (w : BitVec 56) (s : State) : Out := .next (issueVec t 0x8B w false (vTy w == 2) [] s)
/-- VMAX (R115). -/
def execVmax (t : Nat) (w : BitVec 56) (s : State) : Out := .next (issueVec t 0x8C w false false [] s)
/-- VMIN (R115). -/
def execVmin (t : Nat) (w : BitVec 56) (s : State) : Out := .next (issueVec t 0x8D w false false [] s)
/-- VSEL (R114): mu 0. -/
def execVsel (t : Nat) (w : BitVec 56) (s : State) : Out := .next (issueVec t 0x8E w (vMu w) false [] s)
/-- VFUNC (R116, R128): fn 8 to 15 reserved. -/
def execVfunc (t : Nat) (w : BitVec 56) (s : State) : Out := .next (issueVec t 0x90 w (decide (7 < vFn w)) (vTy w == 2) [] s)
/-- VROT (R118, R128). -/
def execVrot (t : Nat) (w : BitVec 56) (s : State) : Out := .next (issueVec t 0x94 w false (vTy w != 0) [] s)
/-- VRED (R123, R128): fn 0 to 5 and 8 to 13. -/
def execVred (t : Nat) (w : BitVec 56) (s : State) : Out := .next (issueVec t 0x98 w (decide (5 < vFn w % 8)) (vTy w == 1) [] s)
/-- VSCAN (R124, R128). -/
def execVscan (t : Nat) (w : BitVec 56) (s : State) : Out := .next (issueVec t 0x99 w false (vTy w == 1) [] s)
/-- VCVT (R117). -/
def execVcvt (t : Nat) (w : BitVec 56) (s : State) : Out := .next (issueVec t 0xA0 w false (!cvtFmts.contains (vFn w)) [] s)
/-- VRNG (R125). -/
def execVrng (t : Nat) (w : BitVec 56) (s : State) : Out :=
  .next (issueVec t 0xA8 w false (!((vFn w == 1 && vTy w == 2) || (vFn w == 0 && vTy w == 0))) [vSs w] s)
/-- VSAMPLE (R126). -/
def execVsample (t : Nat) (w : BitVec 56) (s : State) : Out := .next (issueVec t 0xA9 w false (vTy w != 0 || decide (1 < vFn w)) [vSs w] s)

/-! ### Lanes, elements, masks (R112, R113) -/

/-- Elements of a register in a lane type. -/
def elemsOf (ty : Nat) : Nat := if ty = 1 then 128 else 64

/-- Element e of register v: its bits. -/
def Tile.elem (x : Tile) (ty v e : Nat) : Nat :=
  if ty = 1 then ((x.lane v (e / 2)).toNat >>> (16 * (e % 2))) % 65536 else (x.lane v e).toNat

/-- Poison of lane l of register v. -/
def Tile.lanePois (x : Tile) (v l : Nat) : Bool := SMap.get false x.vpois (v * 64 + l)

/-- Lane of an element. -/
def laneOf (ty e : Nat) : Nat := if ty = 1 then e / 2 else e

/-- Element e is active (R113). -/
def Tile.active (x : Tile) (w : BitVec 56) (e : Nat) : Bool := !vMu w || (SMap.get 0#128 x.m (vMk w)).getLsbD e

/-- Write lanes 0 to 63 of register v with their poison. -/
def Tile.setReg (x : Tile) (v : Nat) (ls : List (Half × Bool)) : Tile :=
  { x with v := SMap.putList 0#32 x.v (v * 64) (ls.map (·.1)), vpois := SMap.putList false x.vpois (v * 64) (ls.map (·.2)) }

/-- Write active elements only: f gives an element's bits and the poison of its sources (R113, R122). -/
def Tile.putElems (x : Tile) (w : BitVec 56) (vd : Nat) (act : Nat → Bool) (f : Nat → Nat × Bool) : Tile :=
  x.setReg vd ((List.range 64).map (fun l =>
    let old := x.lane vd l
    let op := x.lanePois vd l
    if vTy w = 1 then
      let a := act (2 * l)
      let b := act (2 * l + 1)
      let lo := if a then (f (2 * l)).1 % 65536 else old.toNat % 65536
      let hi := if b then (f (2 * l + 1)).1 % 65536 else old.toNat / 65536
      (BitVec.ofNat 32 (lo + hi * 65536), (a && (f (2 * l)).2) || (b && (f (2 * l + 1)).2) || (op && !(a && b)))
    else if act l then (BitVec.ofNat 32 (f l).1, (f l).2) else (old, op)))

/-- A float element as a value. -/
def elemNum (ty v : Nat) : Num := if ty = 1 then bf16 v else f32 (BitVec.ofNat 32 v)

/-- A value rounded to the lane type: FP32, or FP32 and then BF16 (R115). -/
def toElem (ty : Nat) (n : Num) : Nat :=
  if ty = 1 then toBF16 .even (f32 (toF32 .even n)) else (toF32 .even n).toNat

/-- A value rounded once to the lane type (VFMA, R115). -/
def toElemOnce (ty : Nat) (n : Num) : Nat := if ty = 1 then toBF16 .even n else (toF32 .even n).toNat

/-- An INT32 element. -/
def elemInt (v : Nat) : Int := toSigned 32 v
def ofInt32 (i : Int) : Nat := ofSigned 32 i

/-- Maximum or minimum: NaN if either is NaN; of zeros, max takes +0 and min -0. -/
def numMax (mx : Bool) (a b : Num) : Num :=
  if a.isNan || b.isNan then .nan false
  else if Num.lt a b then (if mx then b else a) else if Num.lt b a then (if mx then a else b)
  else if a.neg? == mx then b else a

/-- A two-operand lane operation of R115 by opcode. -/
def vecArith (opc ty a b c : Nat) : Nat :=
  if ty = 2 then
    let i := elemInt a
    let j := elemInt b
    match opc with
    | 0x88 => ofInt32 (i + j)
    | 0x89 => ofInt32 (i - j)
    | 0x8A => ofInt32 (i * j)
    | 0x8C => ofInt32 (max i j)
    | _ => ofInt32 (min i j)
  else
    let x := elemNum ty a
    let y := elemNum ty b
    match opc with
    | 0x88 => toElem ty (Num.add x y)
    | 0x89 => toElem ty (Num.add x y.negate)
    | 0x8A => toElem ty (Num.mul x y)
    | 0x8B => toElemOnce ty (Num.add (Num.mul x y) (elemNum ty c))
    | 0x8C => toElem ty (numMax true x y)
    | _ => toElem ty (numMax false x y)

/-- VFUNC on FP32 (R116): the special values and the exact reciprocal; the other results lie within the table's error of the exact value. -/
def vfunc (fn : Nat) (v : Half) : Half :=
  match f32 v with
  | .nan _ => nan32
  | .inf neg =>
    match fn with
    | 0 => if neg then 0#32 else inf32 false
    | 1 => if neg then nan32 else Config.vfuncValue 1 v
    | 2 => if neg then nan32 else Config.vfuncValue 2 v
    | 3 => fdiv one32 v
    | 4 => if neg then fneg one32 else one32
    | 5 => if neg then 0#32 else one32
    | _ => nan32
  | .fin neg m e =>
    match fn with
    | 1 => if m = 0 then inf32 true else if neg then nan32 else fxFunc 1 neg m e v
    | 2 => if m = 0 then (if neg then Config.vfuncValue 2 v else inf32 false) else if neg then nan32 else fxFunc 2 neg m e v
    | 3 => fdiv one32 v
    | _ => fxFunc fn neg m e v

/-- VRNG's uniform (r[31:8] + 0.5) × 2^-24 (R125); where that is no FP32 value it is one of the two beside it, which one the spec does not state, and
never 1. -/
def uniform (r : Half) : Half :=
  let k := r.toNat / 256
  if k < 2 ^ 23 then toF32 .even (Num.fin false (2 * k + 1) (-25))
  else toF32 .even (Num.fin false (if Config.uniformLow r || k + 1 == 2 ^ 24 then k else k + 1) (-24))

/-! ### Memory forms (R119 to R122) -/

/-- The address of element e of a memory form, with its bytes. -/
def vecAddr (x : Tile) (w : BitVec 56) (a e : Nat) : Nat × Nat :=
  if vFn w = 0 then (if vTy w = 1 then (a + 2 * e, 2) else (a + 4 * e, 4))
  else if vFn w = 1 then
    if vAx w then (a / 4096 * 4096 + (e / 32) * 0x1000 + (e % 32) * 128 + bits (w64 a) 6 2 * 4, 4) else (a + (e / 32) * 0x1000 + (e % 32) * 4, 4)
  else (a + 4 * (x.lane (vVb w) e).toNat, 4)

/-- Stores that a form may name (R119): 0 weight, 1 data, 2 accumulator, 3 tile buffers. -/
def formStores (w : BitVec 56) (st : Bool) : List Nat :=
  if vFn w = 0 then (if st then [1, 2, 3] else [0, 1, 2, 3]) else if vFn w = 1 then (if vAx w then [2, 3] else [1, 2, 3]) else [1, 3]

/-- The fault of a memory form: code, address, lane (R119, R120, R130). Only active elements count; with none, no address check
is made (DESIGN CHOICE, log 82). -/
def vecFault (s : State) (t : Nat) (x : Tile) (w : BitVec 56) (a : Nat) (st : Bool) : Option (Nat × Nat × Nat) :=
  let es := (List.range (elemsOf (vTy w))).filter (x.active w)
  if es.isEmpty then none
  else if (vFn w = 0 && a % 8 ≠ 0) || (vFn w = 1 && !vAx w && a % 128 ≠ 0) || (vFn w = 2 && a % 4 ≠ 0) then some (fMISALIGNED, a, 0)
  else if a ≥ winTop then some (fADDRESS, a, 0)
  else if vFn w = 2 && !([1, 3].contains (storeOf a)) && !(st && decide (3 < storeOf a)) then some (fVEC_FORM, a, 0)
  else es.findSome? (fun e =>
    let p := vecAddr x w a e
    if vFn w = 2 && (p.1 ≥ winTop || storeOf p.1 ≠ storeOf a) then some (fLANE_RANGE, 0, e)
    else if p.1 ≥ winTop then some (fADDRESS, p.1, e)
    else if st && decide (3 < storeOf p.1) then some (fPROTECTED, p.1, e)
    else if !(formStores w st).contains (storeOf p.1) then some (fVEC_FORM, 0, e)
    else if st then (rangeFault s t false p.1 p.2 true).map (fun c => (c.1, c.2, e)) else none)

/-! ### Reductions, scans, samples (R123 to R126) -/

/-- Reduce values in order: result bits and position (R123). The extremum of no INT32 elements is a free value. -/
def reduce (ty op : Nat) (vs : List (Nat × Nat)) : Nat × Nat :=
  if op = 0 || op = 5 then
    let sq := fun (v : Nat × Nat) => v.1
    if ty = 2 then (ofInt32 (vs.foldl (fun a v => let i := elemInt (sq v); a + (if op = 5 then i * i else i)) 0), 0xFFFFFFFF)
    else ((toF32 .even (Num.sum (vs.map (fun v => let n := elemNum 0 v.1; if op = 5 then Num.mul n n else n)))).toNat, 0xFFFFFFFF)
  else
    let mx := op == 1 || op == 3
    if ty = 2 then
      match vs.foldl (fun (b : Option (Nat × Nat)) v => match b with
        | none => some v
        | some e => if (if mx then decide (elemInt e.1 < elemInt v.1) else decide (elemInt v.1 < elemInt e.1)) then some v else some e) none with
      | some e => e
      | none => ((Config.emptyExtremum op).toNat, 0xFFFFFFFF)
    else
      match extremum mx none (vs.map (fun v => (BitVec.ofNat 32 v.1, v.2))) with
      | some e => ((if (f32 e.1).isNan then nan32 else e.1).toNat, e.2)
      | none => ((inf32 mx).toNat, 0xFFFFFFFF)

/-- A draw of VSAMPLE: the greatest key, ties to the lower INT32 index, NaN never (R126). -/
def bestKey (ks : List (Half × Nat)) : Option (Half × Nat) :=
  ks.foldl (fun b k => if (f32 k.1).isNan then b else match b with
    | none => some k
    | some e => if Num.lt (f32 e.1) (f32 k.1) || (Num.eqv (f32 e.1) (f32 k.1) && decide (elemInt k.2 < elemInt e.2)) then some k else some e) none

/-! ### Execution in the unit -/

/-- What a vector instruction does: the new tile, and a value for a scalar register; or its fault: code, address, lane. -/
def vecRun (s : State) (t : Nat) (o : VecOp) : Except (Nat × Nat × Nat) (Tile × Option (List (Nat × PBytes))) :=
  let x := tileOf s t
  let w := o.w
  let ty := vTy w
  let vd := vVd w
  let va := vVa w
  let vb := vVb w
  let vc := vVc w
  let act := x.active w
  let src := fun (vs : List Nat) (e : Nat) => vs.any (fun v => x.lanePois v (laneOf ty e))
  let lanes := (List.range 64).filter act
  match o.opc with
  | 0x80 =>
    match vecFault s t x w o.av false with
    | some f => .error f
    | none => .ok (x.putElems w vd act (fun e =>
        let p := vecAddr x w o.av e
        let d := x.read p.1 p.2
        (leNat (rawBytes d), anyPoison d || (vFn w == 2 && x.lanePois vb e))), none)
  | 0x81 =>
    match vecFault s t x w o.av true with
    | some f => .error f
    | none =>
      let es := (List.range (elemsOf ty)).filter act
      match es.find? (fun e => x.lanePois va (laneOf ty e) || (vFn w == 2 && x.lanePois vb e)) with
      | some e => .error (fLANE_POISON, 0, e)
      | none => .ok (x, some (es.map (fun e => let p := vecAddr x w o.av e; (p.1, cleanBytes (leBytes p.2 (x.elem ty va e))))))
  | 0x82 => .ok (x.putElems w vd act (fun _ => (if ty = 1 then bits o.sv 15 0 else bits o.sv 31 0, false)), none)
  | 0x83 => if x.lanePois va 0 then .error (fLANE_POISON, 0, 0) else .ok (x.setS (vSs w) ((x.lane va 0).zeroExtend 64), none)
  | 0x84 =>
    let m := (List.range (elemsOf ty)).foldl (fun (m : BitVec 128) e =>
      let a := x.elem ty va e
      let b := x.elem ty vb e
      let c := if ty = 2 then intCond (vFn w) (BitVec.ofNat 32 a) (BitVec.ofNat 32 b) else floatCond (vFn w) (toF32 .even (elemNum ty a)) (toF32 .even (elemNum ty b))
      if act e && c then m ||| ((1#128) <<< e) else m) 0#128
    .ok ({ x with m := SMap.put 0#128 x.m (bits w 50 49) m }, none)
  | 0x85 =>
    let a := SMap.get 0#128 x.m va
    let b := SMap.get 0#128 x.m vb
    let m := (List.range 128).foldl (fun (m : BitVec 128) e => if logicFn (vFn w) (a.getLsbD e) (b.getLsbD e) then m ||| ((1#128) <<< e) else m) 0#128
    .ok ({ x with m := SMap.put 0#128 x.m (bits w 50 49) m }, none)
  | 0x8E =>
    let sel := fun e => (SMap.get 0#128 x.m (vMk w)).getLsbD e
    .ok (x.putElems w vd (fun _ => true) (fun e => let v := if sel e then va else vb; (x.elem ty v e, x.lanePois v (laneOf ty e))), none)
  | 0x90 => .ok (x.putElems w vd act (fun e =>
      let r := vfunc (vFn w) (toF32 .even (elemNum ty (x.elem ty va e)))
      (if ty = 1 then toBF16 .even (f32 r) else r.toNat, src [va] e)), none)
  | 0x94 =>
    let pair := fun e => act (e / 2 * 2) && act (e / 2 * 2 + 1)
    .ok (x.putElems w vd pair (fun e =>
      let i := e / 2 * 2
      let a := f32 (x.lane va i)
      let b := f32 (x.lane va (i + 1))
      let c := f32 (x.lane vb i)
      let sn := f32 (x.lane vb (i + 1))
      let r := if e % 2 = 0 then Num.add (Num.mul a c) (Num.mul b sn).negate else Num.add (Num.mul a sn) (Num.mul b c)
      ((toF32 .even r).toNat, src [va, vb] i || src [va, vb] (i + 1))), none)
  | 0x98 =>
    let op := vFn w % 8
    if vFn w ≥ 8 then
      let r := reduce ty op (lanes.map (fun l => (x.elem ty va l, l)))
      let p := lanes.any (fun l => x.lanePois va l)
      let arg := op == 3 || op == 4
      .ok (x.setReg vd ((List.range 64).map (fun l => if l = 0 then (BitVec.ofNat 32 r.1, p) else if l = 1 && arg then (BitVec.ofNat 32 r.2, p) else (0#32, false))), none)
    else if o.av ≥ winTop then .error (fADDRESS, o.av, 0)
    else if !([1, 2, 3].contains (storeOf o.av)) then .error (fVEC_FORM, 0, 0)
    else
      let base := o.av / 4096 * 4096
      let cell := fun i k => if vAx w then base + k * 128 + i * 4 else base + i * 128 + k * 4
      let ks := (List.range 32).filter act
      let line := fun i => ks.map (fun k => (leNat (rawBytes (x.read (cell i k) 4)), k))
      let pois := fun i => ks.any (fun k => anyPoison (x.read (cell i k) 4))
      let arg := op == 3 || op == 4
      .ok (x.setReg vd ((List.range 64).map (fun l =>
        if l < 32 then (BitVec.ofNat 32 (reduce ty op (line l)).1, pois l)
        else if arg then (BitVec.ofNat 32 (reduce ty op (line (l - 32))).2, pois (l - 32)) else (0#32, false))), none)
  | 0x99 =>
    let p := lanes.any (fun l => x.lanePois va l)
    .ok (x.putElems w vd act (fun e =>
      let vs := (lanes.filter (fun l => decide (l ≤ e))).map (fun l => x.elem ty va l)
      (if ty = 2 then ofInt32 ((vs.map elemInt).foldl (· + ·) 0) else (toF32 .even (Num.sum (vs.map (elemNum 0)))).toNat, p)), none)
  | 0xA0 =>
    let fn := vFn w
    let bytes := fmtBits fn / 8
    let n := elemsOf ty
    if !vAx w then
      let conv := fun e =>
        let v := x.elem ty va e
        let num := if ty = 2 then Num.ofInt (elemInt v) else elemNum ty v
        match floatFmt fn with
        | some f => if num.isFin then (match num with
            | .fin g m ex => if fn = E4M3 || fn = E5M2 then toNarrowSat f .even g m ex else (finiteCode fn .even g (some (magNum m ex, magDen ex))).1
            | _ => 0) else nonFinite fn num
        | none =>
          let lim : Int × Int := if fn = INT32 then (-(2 ^ 31 : Nat), (2 ^ 31 : Nat) - 1) else if fn = INT16 then (-32768, 32767) else if fn = INT8 then (-128, 127) else (0, 255)
          ofSigned (8 * bytes) (toIntClamp .even lim.1 lim.2 num)
      let bs := ((List.range n).flatMap (fun e => if act e then leBytes bytes (conv e) else List.replicate bytes 0#8)).take 256
      let bs := bs ++ List.replicate (256 - bs.length) 0#8
      let pl := fun l => (List.range n).any (fun e => act e && decide (e * bytes < 4 * l + 4) && decide (4 * l < (e + 1) * bytes) && x.lanePois va (laneOf ty e))
      .ok (x.setReg vd ((List.range 64).map (fun l => (BitVec.ofNat 32 (leNat ((bs.drop (4 * l)).take 4)), pl l))), none)
    else
      let raw := (List.range 64).flatMap (fun l => leBytes 4 (x.lane va l).toNat)
      let conv := fun e =>
        let v := if (e + 1) * bytes ≤ 256 then leNat ((raw.drop (e * bytes)).take bytes) else (Config.openByte ((List.range 64).map (x.lane va)) e).toNat
        let num := decodeNum fn v
        if ty = 2 then ofInt32 (toIntClamp .even (-(2 ^ 31 : Nat)) ((2 ^ 31 : Nat) - 1) num) else toElemOnce ty num
      .ok (x.putElems w vd act (fun e => (conv e, decide (e * bytes < 256) && (List.range 64).any (fun l => decide (e * bytes < 4 * l + 4) && decide (4 * l < (e + 1) * bytes) && x.lanePois va l))), none)
  | 0xA8 => .ok (x.putElems w vd act (fun e =>
      let r := rng32 (jobSeed s) (o.sv + w64 e)
      (if vFn w = 1 then r.toNat else (uniform r).toNat, false)), none)
  | 0xA9 =>
    let key := fun l =>
      let g := fneg (vfunc 1 (fneg (vfunc 1 (x.lane vb l))))
      (fadd (x.lane va l) g, (o.sv.toNat + l) % 2 ^ 32)
    let best := bestKey (lanes.map key)
    let old := (x.lane vd 0, (x.lane vd 1).toNat)
    let p := lanes.any (fun l => x.lanePois va l || x.lanePois vb l)
    let r := if vFn w = 1 then best.getD (inf32 true, 0xFFFFFFFF)
      else match best with
        | some k => if Num.lt (f32 old.1) (f32 k.1) || (Num.eqv (f32 old.1) (f32 k.1) && decide (elemInt k.2 < elemInt old.2)) then k else old
        | none => old
    let p := p || (vFn w == 0 && (x.lanePois vd 0 || x.lanePois vd 1))
    .ok (x.setReg vd ((List.range 64).map (fun l => if l = 0 then (r.1, p) else if l = 1 then (BitVec.ofNat 32 r.2, p) else (0#32, false))), none)
  | opc => .ok (x.putElems w vd act (fun e =>
      (vecArith opc ty (x.elem ty va e) (x.elem ty vb e) (x.elem ty vc e), src (if opc = 0x8B then [va, vb, vc] else [va, vb]) e)), none)

/-- Instructions on the residue-checked path (R129). -/
def vecChecked (o : VecOp) : Bool :=
  [0x88, 0x89, 0x8A, 0x8B, 0x94, 0x99].contains o.opc || (o.opc == 0x98 && (vFn o.w % 8 == 0 || vFn o.w % 8 == 5))

/-- What a vector instruction reads of the tile's stores, where it raises no address fault (R119, R123). -/
def vecReads (s : State) (t : Nat) (o : VecOp) : List (Nat × Nat) :=
  let x := tileOf s t
  if o.opc = 0x80 then
    if (vecFault s t x o.w o.av false).isSome then [] else ((List.range (elemsOf (vTy o.w))).filter (x.active o.w)).map (vecAddr x o.w o.av)
  else if o.opc = 0x98 && vFn o.w < 8 && o.av < winTop && [1, 2, 3].contains (storeOf o.av) then
    let base := o.av / 4096 * 4096
    (List.range 32).flatMap (fun i => ((List.range 32).filter (x.active o.w)).map (fun k => (if vAx o.w then base + k * 128 + i * 4 else base + i * 128 + k * 4, 4)))
  else []

/-- Stores of a row join where they lie in one 8-byte word, which is then written whole (R24, R119). -/
def joinStores : List (Nat × PBytes) → List (Nat × PBytes)
  | p :: ps => match joinStores ps with
    | q :: qs => if q.1 = p.1 + p.2.length && q.1 % 8 ≠ 0 then (p.1, p.2 ++ q.2) :: qs else p :: q :: qs
    | [] => [p]
  | [] => []

/-- An instruction starts in the unit (R131, R414). -/
def vecStart (t : Nat) (s : State) : State := pmcCount t 16 1 (rcount (reg .TILE_VEC_BUSY t) 48 1 s)

/-- TILE_VEC_FAULT takes every vector fault (R130, R131). -/
def noteVecFault (t code lane : Nat) (s : State) : State :=
  if code < 0x40 || 0x60 ≤ code then s else rset (reg .TILE_VEC_FAULT t) (w64 (code % 256 + (lane % 128) * 2 ^ 8 + 2 ^ 63)) s

/-- The instruction at the head of the vector queue finishes (R121, R129): it writes, posts, or faults. -/
def vecFinish (t : Nat) (o : VecOp) (s : State) : State :=
  let s := if (tileOf s t).soft.isEmpty then s else meetRanges t (vecReads s t o) s
  match vecRun s t o with
  | .error f => noteVecFault t f.1 f.2.2 (unitFault t o.hdr { code := f.1, addr := f.2.1, lane := f.2.2 } (modTile t (fun x => { x with vec := x.vec.drop 1, vAdj := none }) s))
  | .ok (x, wr) =>
    let s := setTile t { x with vec := x.vec.drop 1, vAdj := none } s
    let bad := match wr with
      | some ws => ws.any (fun p => anyPoison p.2)
      | none => (List.range 64).any (x.lanePois (vVd o.w))
    post t o.hdr (notePoisoned t o.hdr.sn bad (match wr with
      | some ws => (if vFn o.w = 2 then ws else joinStores ws).foldl (fun s p => tileWriteU t false p.1 p.2 s) s
      | none => s))

/-- The registers a quarantined vector instruction leaves: va, vb, vc (R402). -/
def vecRegs (x : Tile) (o : VecOp) : List Byte :=
  [vVa o.w, vVb o.w, vVc o.w].flatMap (fun v => (List.range 64).flatMap (fun l => leBytes 4 (x.lane v l).toNat))

/-- VECTOR_COMPLETION (R121, R129): the oldest vector instruction finishes; `ok` is its residue verdict where one is formed. -/
def execVectorCompletion (t : Nat) (ok : Bool) (s : State) : Out :=
  .next (
    let x := tileOf s t
    match x.vec with
    | [] => s
    | o :: _ =>
      if !running s || x.vAdj.isSome then s
      else
      let s := vecStart t s
      let x := tileOf s t
      if ok || !vecChecked o then vecFinish t o s
      else if assist s 6 then
        let q := QuarInfo.mk 3 0 0 0 (Config.freeByte s.fresh 0).toNat 0 o.hdr.pc (vecRegs x o)
        unitFault t o.hdr { code := fQUARANTINE } (quarantine t q (setTile t { x with vec := x.vec.drop 1 } s))
      else setTile t { x with vAdj := some {} } s)

/-- The result of a vector adjudication (R398). -/
def adjudicateVector (t : Nat) (pass same firstSame : Bool) (s : State) : State :=
  let x := tileOf s t
  match x.vec, x.vAdj with
  | o :: _, some a =>
    if !a.started then s
    else if pass then vecFinish t o (adjCharge t 3 0 0 0 a same firstSame s)
    else if a.attempts = 1 then setTile t { x with vAdj := some { a with attempts := 2, started := false } } s
    else
      let q := QuarInfo.mk 3 0 0 0 (Config.freeByte s.fresh 0).toNat 0 o.hdr.pc (vecRegs x o)
      unitFault t o.hdr { code := fQUARANTINE } (quarantine t q (setTile t { x with vec := x.vec.drop 1, vAdj := none } s))
  | _, _ => s

/-- ADJUDICATION_RESULT (R398, R402): rows are released and a fault charged, a third tile runs, or the rows are quarantined.
`pass`: the recompute's own verdict; `same`: bit-equal to the original; `firstSame`: a third tile's result equals the first recompute's. -/
def execAdjudicationResult (t unit : Nat) (pass same firstSame : Bool) (s : State) : Out :=
  .next (if unit = 3 then adjudicateVector t pass same firstSame s else adjudicateDrain t unit pass same firstSame s)

end Sys2Proof.Machine
end

