-- ==== Sys2Proof/Machine/Sched.lean ====
section
/-! DEFINITION. The schedule engine, the step advance and the deferred registers of the blotter (R154 to R160, R176, R177, R186,
R187, R195, R264 to R269). -/

namespace Sys2Proof.Machine
open Sys2Proof

/-! ### Register writes by access kind (R8) -/

/-- The value after a software write: RW fields take the data, W1C bits clear, W1S bits set, the rest stays (R8). -/
def regWritten (n : RegName) (old v : Word) : Word :=
  let i := regInfo n
  (((old &&& ~~~i.rw) ||| (v &&& i.rw)) &&& ~~~(v &&& i.w1c)) ||| (v &&& i.w1s)

/-- A software write with no further effect. -/
def plainWrite (n : RegName) (i j : Nat) (v : Word) (s : State) : State :=
  rset (reg n i j) (regWritten n (rget s (reg n i j)) v) s

/-! ### Requests and deferred writes -/

/-- A request for a step advance: 15 may wait behind the one in progress (R264). -/
def requestAdvance (r : Req) (c : Option CmdRef) (s : State) : Bool × State :=
  let n := s.blt.advWait.length
  if n ≥ 16 then (false, event 0x0F07 0xFF (Req.code r) (w64 (n - 1)) 0#64 s)
  else (true, rset (reg .SCHED_PEND) (w64 n) { s with blt := { s.blt with advWait := s.blt.advWait ++ [c] } })

/-- STEP_ADVANCE_REQUEST (R264). -/
def execStepAdvanceRequest (r : Req) (s : State) : Out := .next (requestAdvance r none s).2

/-- TSC_NEXT_WRITE (R158). -/
def execTscNextWrite (_r : Req) (id : Nat) (v : Word) (s : State) : Out := .next (if id < 4096 then plainWrite .TSC_NEXT id 0 v s else s)

/-- TSC_CTL_WRITE (R158): in force from the next advance. -/
def execTscCtlWrite (_r : Req) (id : Nat) (v : Word) (s : State) : Out := .next (if id < 4096 then plainWrite .TSC_CTL id 0 v s else s)

/-- BLT_ENTRY_WRITE (R185): BLT_THR, BLT_GUARD or BLT_LAYER at a register-space offset, in force from the next advance. -/
def execBltEntryWrite (_r : Req) (off : Nat) (v : Word) (s : State) : Out :=
  .next (match regAt off with
    | some (.BLT_THR, i, _) => plainWrite .BLT_THR i 0 v s
    | some (.BLT_GUARD, i, _) => plainWrite .BLT_GUARD i 0 v s
    | some (.BLT_LAYER, i, _) => plainWrite .BLT_LAYER i 0 v s
    | _ => s)

/-- A write of BLT_SPILL: discarded and recorded where the region leaves stack memory (R195). -/
def writeSpill (r : Req) (id : Nat) (v : Word) (s : State) : State :=
  if bits v 47 10 * 1024 + bits v 59 48 * 0xC00 ≤ stackTop then plainWrite .BLT_SPILL id 0 v s
  else recRegRefused r (reg .BLT_SPILL id).off v s

/-- BLT_SPILL_WRITE (R195). -/
def execBltSpillWrite (r : Req) (id : Nat) (v : Word) (s : State) : Out := .next (if id < 4096 then writeSpill r id v s else s)

/-- SCHED_SWAP_REQUEST (R267). -/
def execSchedSwapRequest (_r : Req) (s : State) : Out := .next (rsetBit (reg .SCHED_CTL) 1 true s)

/-- A write of a segment entry: to the inactive bank only (R267). -/
def writeSeg (r : Req) (bankB : Bool) (k j : Nat) (v : Word) (s : State) : State :=
  let n := if bankB then RegName.SCHED_SEG_B else RegName.SCHED_SEG_A
  if bit (rget s (reg .SCHED_CTL)) 0 == bankB then recRegRefused r (reg n k j).off v s else plainWrite n k j v s

/-- SCHED_SEG_WRITE (R267). -/
def execSchedSegWrite (r : Req) (off : Nat) (v : Word) (s : State) : Out :=
  .next (match regAt off with
    | some (.SCHED_SEG_A, k, j) => writeSeg r false k j v s
    | some (.SCHED_SEG_B, k, j) => writeSeg r true k j v s
    | _ => s)

/-! ### The schedule (R265, R266) -/

/-- A segment entry's fields (R265). -/
structure SegE where
  ty : Nat
  target : Nat
  count : Nat
  len : Nat
  lrA : Half
  lrB : Half
  lam : Half
  deriving DecidableEq, Repr

/-- Entry k of a bank. -/
def segOf (s : State) (bankB : Bool) (k : Nat) : SegE :=
  let n := if bankB then RegName.SCHED_SEG_B else RegName.SCHED_SEG_A
  let w := fun j => rget s (reg n k j)
  { ty := bits (w 0) 2 0, target := bits (w 0) 7 4, count := bits (w 0) 31 16, len := bits (w 0) 63 32, lrA := (w 1).truncate 32, lrB := BitVec.ofNat 32 (bits (w 1) 63 32), lam := (w 2).truncate 32 }

def bankOf (s : State) (b : Bool) : List SegE := (List.range 16).map (segOf s b)

/-- Entry k of a list of entries. -/
def segAt (es : List SegE) (k : Nat) : SegE := nth ⟨0, 0, 0, 0, 0#32, 0#32, 0#32⟩ es k

/-- Length of the span that a restart at k repeats. -/
def spanOf (es : List SegE) (k : Nat) : Nat := sumNat (((List.range k).drop (segAt es k).target).map (fun j => (segAt es j).len))

/-- The evaluation loop of R266: segment and step within it; none before any segment. n bounds the walk. -/
def segWalk (es : List SegE) : Nat → Nat → Nat → Option Nat → Option (Nat × Nat)
  | 0, _, _, last => last.map (fun k => (k, (segAt es k).len))
  | n + 1, k, p, last =>
    if k ≥ 16 || (segAt es k).ty = 0 then last.map (fun k => (k, (segAt es k).len))
    else
      let e := segAt es k
      if e.ty = 5 then
        let span := spanOf es k
        if e.count = 0 || p < e.count * span then segWalk es n e.target (p % span) last
        else segWalk es n (k + 1) (p - e.count * span) last
      else if p < e.len then some (k, p)
      else segWalk es n (k + 1) (p - e.len) (some k)

/-- π of R266. -/
def pi32 : Half := 0x40490FDB#32

/-- The learning rate of a segment at step u (R266). -/
def segValue (e : SegE) (u : Nat) : Half :=
  let f := if e.len = 0 then 0#32 else toF32Q .even false u e.len
  match e.ty with
  | 1 => e.lrA
  | 2 => fadd e.lrA (fmul (fsub e.lrB e.lrA) f)
  | 3 => fadd e.lrB (fmul (fmul (fsub e.lrA e.lrB) 0x3F000000#32) (fadd one32 (vfunc 7 (fmul pi32 f))))
  | _ => fmul e.lrA (vfunc 0 (fmul f (vfunc 1 (fdiv e.lrB e.lrA))))

/-- Learning rate, weight-decay factor, segment and u at position p (R266). -/
def schedAt (es : List SegE) (p : Nat) : Half × Half × Nat × Nat :=
  match segWalk es 600 0 p none with
  | none => (0#32, fsub one32 (fmul 0#32 0#32), 0, 0)
  | some (k, u) =>
    let lr := segValue (segAt es k) u
    (lr, fsub one32 (fmul lr (segAt es k).lam), k, u)

/-- A value that a schedule entry may hold: finite and not negative (R267). -/
def schedValue (v : Half) : Bool :=
  match f32 v with
  | .fin neg m _ => !neg || m == 0
  | _ => false

/-- The checks before a bank swap, over all 16 entries of the bank (R267). -/
def bankOk (es : List SegE) : Bool :=
  (List.range 16).all (fun k =>
    let e := segAt es k
    decide (e.ty ≤ 5) && schedValue e.lrA && schedValue e.lrB && schedValue e.lam &&
    (if e.ty = 0 then true
     else if e.ty = 5 then decide (e.target < k) && spanOf es k != 0 && ((List.range k).drop e.target).all (fun j => (segAt es j).ty != 5)
     else e.len != 0 && (e.ty != 4 || (!(f32 e.lrA).isZero && !(f32 e.lrB).isZero))))

/-! ### The step advance (R157, R159, R177) -/

/-- Tensor ids with any state that an advance changes. -/
def liveIds (s : State) : List Nat :=
  let f := fun (o : Nat) => if 0x80000 ≤ o && o < 0xC0000 then some ((o - 0x80000) / 0x40) else if 0xC0000 ≤ o && o < 0xE0000 then some ((o - 0xC0000) / 0x20) else none
  ((s.regs.filterMap (fun e => f e.1)) ++ s.blt.hist.map (·.1) ++ s.blt.evt.map (·.1)).eraseDups

/-- Deferred registers come into force (R158, R185). -/
def latchDeferred (s : State) : State :=
  let keep := fun (o : Nat) => match regAt o with
    | some (.TSC_CTL, _, _) => true
    | some (.BLT_THR, _, _) => true
    | some (.BLT_SPILL, _, _) => true
    | some (.BLT_GUARD, _, _) => true
    | some (.BLT_LAYER, _, _) => true
    | _ => false
  let m := rget s (reg .MBX_ASSIST)
  let c := leWord (SMap.getList 0#8 s.cox.active 0xC0 8)
  let late : Word := 0x8017#64
  rset (reg .MBX_ASSIST) (if s.cox.hasActive then (m &&& ~~~late) ||| (c &&& late) else m)
    { s with blt := { s.blt with eff := s.regs.filter (fun e => decide (0x80000 ≤ e.1) && decide (e.1 < 0xE2000) && keep e.1) } }

/-- Tensor-scale choice for one id (R157). -/
def tscUpdate (t : Nat) (s : State) : State :=
  let ctl := tscCtl s t
  let amax := reg .TSC_AMAX t
  let run : Half := BitVec.ofNat 32 (rbits s amax 31 0)
  let h := (run :: SMap.get [] s.blt.hist t).take 16
  let h := if h.all (· == 0#32) then [] else h
  let hmax := ((h.take (bits ctl 12 9 + 1)).map (·.toNat)).foldl max 0
  let s := { s with blt := { s.blt with hist := SMap.put [] s.blt.hist t h } }
  let s := rset amax (w64 (hmax * 2 ^ 32)) s
  if bit ctl 13 || hmax = 0 then s
  else if !takesScale (bits ctl 3 0) (bits ctl 5 4) then rsetBit (reg .TSC_ERR) 1 true s
  else if assist s 0 then
    let v : Half := (rget s (reg .TSC_NEXT t)).truncate 32
    match f32 v with
    | .fin false (_ + 1) _ => rset (reg .TSC_SCALE t) (v.zeroExtend 64) s
    | _ => rsetBit (reg .TSC_ERR) 1 true s
  else rset (reg .TSC_SCALE t) ((scaleQuot .even (f32 (BitVec.ofNat 32 hmax)) (bits ctl 8 6) (rangeConst (bits ctl 3 0) (bits ctl 5 4))).zeroExtend 64) s

/-- The four class counters of an id now (R176): zero, saturated, non-finite, total. -/
def bltNow (s : State) (t : Nat) : List Nat :=
  [rbits s (reg .BLT_ZERO t) 47 0, rbits s (reg .BLT_SAT t) 47 0, rbits s (reg .BLT_NONFIN t) 47 0, rbits s (reg .BLT_TOTAL t) 47 0]

/-- Counts of the ending step: what its 48-bit counters have moved on by (R10, R176). -/
def stepCounts (s : State) (t : Nat) : List Nat :=
  List.zipWith (fun a b => (a + 2 ^ 48 - b) % 2 ^ 48) (bltNow s t) (SMap.get [0, 0, 0, 0] s.blt.kept t)

/-- Classes of an id that cross their thresholds, with their actions (R177). -/
def crossings (s : State) (t : Nat) : List (Nat × Nat) :=
  let thr := effReg s (reg .BLT_THR t)
  let c := stepCounts s t
  if assist s 15 then [] else
  (List.range 3).filterMap (fun k =>
    let act := bits thr (49 + 2 * k) (48 + 2 * k)
    if act ≠ 0 && nth 0 c k * 65536 > bits thr (16 * k + 15) (16 * k) * nth 0 c 3 then some (k, act) else none)

/-- Layers whose floor rises at this advance (R177). -/
def risingLayers (s : State) (ids : List Nat) : List Nat :=
  ((ids.filter (fun t => (crossings s t).any (fun c => c.2 == 2))).map (fun t => bits (effReg s (reg .BLT_THR t)) 63 56)).eraseDups.filter
    (fun l => l != 0 && decide (bits (effReg s (reg .BLT_LAYER l)) 1 0 < 3))

/-- Raise a layer's floor by one rung (R177). -/
def raiseFloor (l : Nat) (s : State) : State :=
  let f := bits (effReg s (reg .BLT_LAYER l)) 1 0 + 1
  let r := reg .BLT_LAYER l
  let s := rset r (w64 (f + 256)) s
  rsetBit (reg .GUARD_ERR) 2 true { s with blt := { s.blt with eff := SMap.put r.rst s.blt.eff r.off (w64 (f + 256)) } }

/-- Threshold events and floors (R177). -/
def thresholds (ids : List Nat) (s : State) : State :=
  let cr := ids.map (fun t => (t, crossings s t))
  let up := risingLayers s ids
  let s := (List.range 256).foldl (fun s l => if bit (rget s (reg .BLT_LAYER l)) 8 then rsetBit (reg .BLT_LAYER l) 8 false s else s) s
  let s := up.foldl (fun s l => raiseFloor l s) s
  cr.foldl (fun s p => p.2.foldl (fun s c =>
    let l := bits (effReg s (reg .BLT_THR p.1)) 63 56
    let fl := if l = 0 then 0 else bits (effReg s (reg .BLT_LAYER l)) 1 0
    event 0x0901 0xFF p.1 (w64 (p.1 + c.1 * 2 ^ 16)) (w64 (l + fl * 256)) s) s) s

/-- The per-step counts are published and kept values follow; slots return to 0 (R176, R182, R195). -/
def closeStep (t : Nat) (s : State) : State :=
  let e := SMap.get [0, 0, 0, 0] s.blt.evt t
  let s := rset (reg .BLT_EVT t) (w64 (nth 0 e 0 + nth 0 e 1 * 2 ^ 16 + nth 0 e 2 * 2 ^ 32 + nth 0 e 3 * 2 ^ 48)) s
  let now := bltNow s t
  let s := rsetBits (reg .BLT_GUARD t) 19 8 0 s
  { s with blt := { s.blt with kept := SMap.put [0, 0, 0, 0] s.blt.kept t now, evt := SMap.put [0, 0, 0, 0] s.blt.evt t [0, 0, 0, 0] } }

/-- The schedule at the new step: swap, evaluation or the host's values (R266, R267, R269). -/
def schedStep (s : State) : State :=
  let ctl := rget s (reg .SCHED_CTL)
  let b := bit ctl 0
  let s := if !bit ctl 1 then s
    else if bankOk (bankOf s (!b)) then rset (reg .SCHED_CTL) (w64 (b2n (!b))) s
    else rsetBit (reg .SCHED_ERR) 0 true (rset (reg .SCHED_CTL) (w64 (b2n b)) s)
  if assist s 4 then rset (reg .SCHED_LR) (rget s (reg .SCHED_NEXT)) s
  else
    let v := schedAt (bankOf s (bit (rget s (reg .SCHED_CTL)) 0)) (stepOf s - rbits s (reg .SCHED_ORIGIN) 47 0)
    let s := rset (reg .SCHED_LR) (w64 (v.1.toNat + v.2.1.toNat * 2 ^ 32)) s
    rset (reg .SCHED_POS) (w64 (v.2.2.1 + (v.2.2.2 % 2 ^ 32) * 2 ^ 16)) s

/-- S for the new step (R264). -/
def nextStep (s : State) : State :=
  let n := rget s (reg .SCHED_STEP_NEXT)
  if bit n 63 then rsetBit (reg .SCHED_STEP_NEXT) 63 false (rset (reg .SCHED_STEP) (w64 (bits n 47 0)) s)
  else rset (reg .SCHED_STEP) (w64 ((stepOf s + 1) % 2 ^ 48)) s

/-- Every line of a range can be written: it is stack memory, not withdrawn, and its stack is not lost (R12, R237, R408). -/
def stkWritable (s : State) (a n : Nat) : Bool :=
  (linesOf a n).all (fun l => stkPresent s l && !stackLost s (physStack (physOf s (backing s false l))))

/-- Step 5 of R159 with R187: scales, floors, and the counts of the ending step; a failed write sets TSC_ERR bit 0. -/
def mirrorWrite (cnts : List (List Nat)) (ok : Bool) (s : State) : State :=
  let m := rget s (reg .TSC_MIRROR)
  if !bit m 0 then s
  else if !ok then rsetBit (reg .TSC_ERR) 0 true s
  else
    let base := bits m 47 14 * 0x4000
    let whole := stkWritable s base 0x4100 && stkWritable s (base + 0x10000) 0x20000
    let s := if whole then s else rsetBit (reg .TSC_ERR) 0 true s
    let s1 := stkWrite .engine base (cleanBytes ((List.range 4096).flatMap (fun t => leBytes 4 (tscScale s t).toNat))) s
    let s1 := stkWrite .engine (base + 0x4000) (cleanBytes ((List.range 256).map (fun l => BitVec.ofNat 8 (bits (effReg s (reg .BLT_LAYER l)) 1 0)))) s1
    stkWrite .engine (base + 0x10000) (cleanBytes (cnts.flatMap (fun c => c.flatMap (leBytes 8)))) s1

/-- A step advance may run: one is requested and no drain tile stands between its first row and its report (R159). -/
def advanceReady (s : State) : Bool := !s.blt.advWait.isEmpty && !(s.tiles.any (fun e => e.2.drains.any midTile))

/-- Steps 2 to 6 of R159. -/
def runAdvance (mirrorOk : Bool) (s : State) : State :=
  let s := s.blt.reports.foldl (fun s r => takeReport r s) { s with blt := { s.blt with reports := [] } }
  let s := latchDeferred s
  let ids := liveIds s
  let cnts := if bit (rget s (reg .TSC_MIRROR)) 0 then (List.range 4096).map (stepCounts s) else []
  let s := thresholds ids s
  let s := ids.foldl (fun s t => closeStep t (tscUpdate t s)) s
  let s := schedStep (nextStep s)
  let s := { s with tiles := s.tiles.filterMap (fun (e : Nat × Tile) => let x : Tile := { e.2 with cache := [] }; if x = ({} : Tile) then none else some (e.1, x)) }
  let s := { s with bn := (List.range 8).foldl (fun m n => SMap.put ({} : BaseDie) m n { SMap.get ({} : BaseDie) m n with held := true }) s.bn }
  let s := mirrorWrite cnts mirrorOk s
  let s := rcount (reg .TSC_ADV) 48 1 (rset (reg .TSC_ADV_EPOCH) (dieEpoch s 0) s)
  match s.blt.advWait with
  | [] => s
  | c :: cs => finishOpt c stOK 0 (w64 (stepOf s)) (rset (reg .SCHED_PEND) (w64 (cs.length - 1)) { s with blt := { s.blt with advWait := cs } })

/-- STEP_ADVANCE (R159, R264): `mirrorOk` tells whether the mirror writes succeed. -/
def execStepAdvance (mirrorOk : Bool) (s : State) : Out := .next (if advanceReady s then runAdvance mirrorOk s else s)

/-- STEP_VALUES_DELIVERY (R268): S, lr and wdf reach a base die, whose held job starts are released. -/
def execStepValuesDelivery (stack : Nat) (s : State) : Out :=
  .next (
    let b := SMap.get ({} : BaseDie) s.bn stack
    if !b.held then s else
    let lr := rget s (reg .SCHED_LR)
    let b' := { b with held := false, lr := lr.truncate 32, wdf := BitVec.ofNat 32 (bits lr 63 32), step := stepOf s }
    { s with bn := SMap.put {} s.bn stack b' })

end Sys2Proof.Machine
end

