-- ==== Sys2Proof/Machine/Cmd.lean ====
section
/-! DEFINITION. Serving a command frame (R374 to R379, R387): when the cox takes one, the checks of permission and form,
command buffers. -/

namespace Sys2Proof.Machine
open Sys2Proof

/-- Word i of a frame. -/
def Frame.word (f : Frame) (i : Nat) : Word := nth 0#64 [f.w0, f.w1, f.w2, f.w3, f.w4, f.w5, f.w6, f.w7] i

/-- Which bits of words 1 to 5 a command's operands use, and whether it takes a buffer (R376, R387). -/
structure CmdForm where
  ops : List Word := []
  buf : Bool := false
  deriving DecidableEq, Repr

/-- Bits hi..lo as a mask. -/
def maskBits (hi lo : Nat) : Word := setBits 0#64 hi lo (2 ^ (hi + 1 - lo) - 1)

/-- Every bit of a word. -/
def maskAll : Word := BitVec.allOnes 64

/-- Fields that the catalogue does not list are 0 (R376). -/
def frameOk (f : Frame) (k : CmdForm) : Bool :=
  bits f.w0 31 19 == 0 &&
  (List.range 5).all (fun i => (Frame.word f (i + 1) &&& ~~~(nth 0#64 k.ops i)) == 0#64) &&
  (if k.buf then bits f.w7 63 33 == 0 else f.w6 == 0#64 && f.w7 == 0#64)

/-- Commands of a ring that have been accepted and not finished. -/
def ringBusy (s : State) (ring : Nat) : Bool := s.cox.running.any (fun r => r.ring == ring)

/-- The cox takes the next frame of a ring now (R374, R375, R379, R388): the device serves rings, intake is not held, the ring is
enabled, not stopped and not empty, its completion ring is not full, and a fence finds nothing running. -/
def cmdReady (s : State) (ring : Nat) (f : Frame) : Bool :=
  let c := cplOf s ring
  decide (ring < 8) && isUp s && !s.gate.intake && s.gate.switching.isNone &&
  bit (rget s (reg .MBX_CMD_CFG ring)) 8 && !SMap.get false s.cox.stopped ring &&
  decide (rbits s (reg .MBX_CMD_HEAD ring) 11 0 ≠ SMap.get 0 s.cox.tails ring) &&
  (SMap.get [] s.cox.held c).isEmpty && (!cplEnabled s c || cplHasSlot s c) &&
  !(bit f.w0 16 && ringBusy s ring)

/-- Read the frame: the head advances, the command is counted (R374, R396). -/
def takeFrame (ring : Nat) (f : Frame) (s : State) : CmdRef × State :=
  let h := rbits s (reg .MBX_CMD_HEAD ring) 11 0
  let n := ringFrames (rbits s (reg .MBX_CMD_CFG ring) 2 0)
  ({ ring := ring, slot := h, w0 := f.w0 }, rcount (reg .MBX_CMDS) 48 1 (rset (reg .MBX_CMD_HEAD ring) (w64 ((h + 1) % n)) s))

/-- The command's group is enabled for the ring (R387, R396). -/
def groupOn (s : State) (ring opc : Nat) : Bool := bit (rget s (reg .MBX_CMD_CFG ring)) (15 + opc / 256)

/-- The frame's buffer lies in a stack at its critical step (R241, R376). -/
def bufWaits (f : Frame) (s : State) : Bool := bit f.w7 32 && stkWaits s f.w6.toNat (bits f.w7 31 0)

/-- Take one command of the catalogue and serve it (R387). A frame with another opcode is not this command; one whose buffer waits at a
stack controller waits with it (R241). -/
def serve (ring opc : Nat) (f : Frame) (k : CmdForm) (body : CmdRef → State → State) (s : State) : State :=
  if !cmdReady s ring f || bits f.w0 15 0 ≠ opc || (k.buf && bufWaits f s) then s else
  let p := takeFrame ring f s
  if !groupOn s ring opc then postFrame p.1 stREFUSED_PERM 0 0#64 p.2
  else if !frameOk f k then postFrame p.1 stREFUSED_FORM 0 0#64 p.2
  else body p.1 p.2

/-- A command that reads n bytes of stack memory at an address that its frame names waits with that read (R241). -/
def serveAt (ring opc : Nat) (f : Frame) (k : CmdForm) (a n : Nat) (body : CmdRef → State → State) (s : State) : State :=
  if groupOn s ring opc && frameOk f k && stkWaits s a n then s else serve ring opc f k body s

/-- Opcodes of the catalogue (R388 to R394). -/
def catalogue : List Nat :=
  [0x0100, 0x0101, 0x0102, 0x0103, 0x0104, 0x0105, 0x0200, 0x0201, 0x0202, 0x0203, 0x0210, 0x0211, 0x0212, 0x0213, 0x0214] ++
  [0x0300, 0x0301, 0x0302, 0x0303, 0x0304, 0x0400, 0x0401, 0x0402, 0x0403, 0x0404, 0x0405, 0x0406, 0x0407, 0x0408] ++
  [0x0500, 0x0501, 0x0600, 0x0601, 0x0602, 0x0A00, 0x0700, 0x0701, 0x0702, 0x0703, 0x0800, 0x0801, 0x0900, 0x0901, 0x0902]

/-- UNKNOWN_OPCODE (R387). -/
def execUnknownOpcode (ring : Nat) (f : Frame) (s : State) : Out :=
  .next (
    if !cmdReady s ring f || catalogue.contains (bits f.w0 15 0) then s else
    let p := takeFrame ring f s
    postFrame p.1 stUNKNOWN_OPCODE 0 0#64 p.2)

/-! ### Buffers (R376) -/

/-- Buffer length in bytes. -/
def bufLen (f : Frame) : Nat := bits f.w7 31 0

/-- The first n bytes of the buffer lie where they may: host memory, or stack memory (R376). -/
def bufOk (f : Frame) (n : Nat) (s : State) : Bool :=
  !bit f.w7 32 || ((linesOf f.w6.toNat n).all (fun l => stkPresent s l) && decide (f.w6.toNat + n ≤ stackTop))

/-- Read n bytes of the buffer. -/
def bufRead (f : Frame) (n : Nat) (s : State) : PBytes × State :=
  if bit f.w7 32 then stkRead 1 f.w6.toNat n s
  else (cleanBytes ((List.range n).map (fun i => nth 0#8 f.buf i)), s)

/-- Write bytes at the start of the buffer. -/
def bufWrite (f : Frame) (d : PBytes) (s : State) : State :=
  if bit f.w7 32 then stkWrite .cox f.w6.toNat d s
  else { s with cox := { s.cox with hostMem := SMap.putList 0#8 s.cox.hostMem f.w6.toNat (rawBytes d) } }

/-- A command that writes a result of n bytes (R387): REFUSED_FORM with the needed length where the buffer is shorter. -/
def bufAnswer (r : CmdRef) (f : Frame) (d : PBytes) (s : State) : State :=
  if bufLen f < d.length then postFrame r stREFUSED_FORM d.length 0#64 s
  else if !bufOk f d.length s then postFrame r stREFUSED_ADDR 0 0#64 s
  else postFrame r stOK 0 0#64 (bufWrite f d s)

/-- Little-endian bytes of words. -/
def wordBytes (ws : List Word) : List Byte := ws.flatMap (fun w => leBytes 8 w.toNat)

/-- Words of bytes. -/
def bytesWords (bs : List Byte) : List Word := (chunks 8 bs).map leWord

end Sys2Proof.Machine
end

