-- ==== Sys2Proof/Machine/BaseNote.lean ====
section
/-! DEFINITION. Base-note update engines (R244 to R263, R270 to R272): job records, submission, start, passes, the engine's
instructions, repeats and completion. -/

namespace Sys2Proof.Machine
open Sys2Proof

/-- Base die of stack n. -/
def bdOf (s : State) (n : Nat) : BaseDie := SMap.get {} s.bn n
def setBd (n : Nat) (b : BaseDie) (s : State) : State := { s with bn := SMap.put {} s.bn n b }

/-- Replace the jobs of a stack; STK_BN_STAT shows their number (R272). -/
def setJobs (n : Nat) (js : List Job) (s : State) : State :=
  rsetBits (reg .STK_BN_STAT n) 13 8 js.length (setBd n { bdOf s n with jobs := js } s)

/-- Replace one job by its number. -/
def setJob (n : Nat) (j : Job) (s : State) : State :=
  setJobs n ((bdOf s n).jobs.map (fun k => if k.no = j.no then j else k)) s

/-! ### Fields of the record (R249) -/

def Job.start (j : Job) : Nat := bits (j.word 0) 7 0
def Job.len (j : Job) : Nat := bits (j.word 0) 13 8 + 1
def Job.gFmt (j : Job) : Nat := bits (j.word 0) 17 14
def Job.gArr (j : Job) : Nat := bits (j.word 0) 19 18
def Job.cFmt (j : Job) : Nat := bits (j.word 0) 23 20
def Job.cArr (j : Job) : Nat := bits (j.word 0) 25 24
def Job.copyOn (j : Job) : Bool := bit (j.word 0) 26
def Job.auxOn (j : Job) : Bool := bit (j.word 0) 27
def Job.snapOn (j : Job) : Bool := bit (j.word 0) 28
def Job.group (j : Job) : Nat := bits (j.word 0) 47 32
def Job.tag (j : Job) : Nat := bits (j.word 0) 63 48
def Job.n0 (j : Job) : Nat := bits (j.word 8) 31 0
def Job.rows (j : Job) : Nat := bits (j.word 8) 63 32
def Job.inputs (j : Job) : Nat := bits (j.word 0x10) 31 0
def Job.tid (j : Job) : Nat := bits (j.word 0x10) 43 32
def Job.base (j : Job) (o : Nat) : Nat := bits (j.word o) 47 0
def Job.gBase (j : Job) : Nat := j.base 0x18
def Job.gScale (j : Job) : Nat := j.base 0x20
def Job.mBase (j : Job) : Nat := j.base 0x28
def Job.moBase (j : Job) (k : Nat) : Nat := j.base (0x30 + 8 * k)
def Job.hBase (j : Job) : Nat := j.base 0x40
def Job.pBase (j : Job) : Nat := j.base 0x48
def Job.cBase (j : Job) : Nat := j.base 0x50
def Job.cScale (j : Job) : Nat := j.base 0x58
def Job.sBase (j : Job) : Nat := j.base 0x60
def Job.aBase (j : Job) : Nat := j.base 0x68
def Job.doneWord (j : Job) : Nat := j.base 0x80
def Job.gTs (j : Job) : Half := BitVec.ofNat 32 (bits (j.word 0x88) 31 0)

/-- Scalar u[k] (R255). -/
def Job.u (j : Job) (k : Nat) : Half :=
  if k = 0 then j.lr else if k = 1 then j.wdf
  else BitVec.ofNat 32 (leNat ((j.rec_.drop (0x90 + 4 * (k - 2))).take 4))

/-- Passes of a job (R248). -/
def Job.passes (j : Job) : Nat := j.rows * (j.inputs / 64)

/-- Optimizer blocks in a row. -/
def Job.perRow (j : Job) : Nat := j.inputs / 32

/-- Bytes of a gradient tile (R103, R245). -/
def Job.gTile (j : Job) : Nat := 128 * fmtBits j.gFmt

/-- Elements per block row of the forward copy (R245). -/
def Job.el (j : Job) : Nat := elemsPerRow j.cFmt

/-! ### Programs (R255, R256) -/

def iOp (w : BitVec 32) : Nat := bits w 31 26
def iD (w : BitVec 32) : Nat := bits w 25 22
def iA (w : BitVec 32) : Nat := bits w 21 18
def iB (w : BitVec 32) : Nat := bits w 17 14
def iBs (w : BitVec 32) : Bool := bit w 13
def iC (w : BitVec 32) : Nat := bits w 12 9
def iCs (w : BitVec 32) : Bool := bit w 8
def iSel (w : BitVec 32) : Nat := bits w 0 0

/-- The bits of an instruction that its opcode may set, none for an undefined opcode (R255, R256). -/
def bnMask (op : Nat) : Option (BitVec 32) :=
  let d : BitVec 32 := 0x03C00000#32
  let a : BitVec 32 := 0x003C0000#32
  let b : BitVec 32 := 0x0003E000#32
  let c : BitVec 32 := 0x00001F00#32
  if op = 0x00 || op = 0x3F then some 0#32
  else if [0x01, 0x02, 0x03, 0x04, 0x07, 0x0D, 0x0E].contains op then some (d ||| a ||| b)
  else if [0x05, 0x06, 0x10].contains op then some (d ||| a ||| b ||| c)
  else if [0x08, 0x09, 0x0A, 0x0B, 0x0C, 0x0F].contains op then some (d ||| a)
  else if op = 0x11 then some (d ||| b)
  else if [0x12, 0x20, 0x21, 0x23].contains op then some d
  else if op = 0x22 then some (d ||| 1#32)
  else if [0x28, 0x2A, 0x2B].contains op then some a
  else if op = 0x29 then some (a ||| 1#32)
  else none

/-- A program word that a load accepts (R255). -/
def bnWordOk (w : BitVec 32) : Bool :=
  match bnMask (iOp w) with
  | some m => (w &&& 0x03FFFFFF#32 &&& ~~~m) == 0#32 && (iOp w != 0x11 || iBs w)
  | none => false

/-- The program of a job. -/
def jobProg (b : BaseDie) (j : Job) : List (BitVec 32) := SMap.getList 0#32 b.prog j.start j.len

/-! ### Submission (R249, R250) -/

/-- Arrays that a job uses: base and bytes (R245). -/
def jobArrays (b : BaseDie) (j : Job) : List (Nat × Nat) :=
  let ops := (jobProg b j).map (fun w => (iOp w, iSel w))
  let has := fun (l : List Nat) => ops.any (fun o => l.contains o.1)
  let els := j.rows * j.inputs
  let tiles := j.rows / 32 * j.perRow
  let mom := fun (k : Nat) => if ops.any (fun o => (o.1 == 0x22 || o.1 == 0x29) && o.2 == k) then [(j.moBase k, els)] else []
  let cblk := if j.el = 0 then 0 else j.rows / 32 * (j.inputs / j.el)
  [(j.hBase, els / 32 * 8), (j.pBase, tiles * 4)] ++
  (if has [0x20] then (j.gBase, tiles * j.gTile) :: (if j.gArr = 0 then [] else [(j.gScale, tiles * 0x80)]) else []) ++
  (if has [0x21, 0x28] then [(j.mBase, els * 4)] else []) ++ mom 0 ++ mom 1 ++
  (if has [0x23, 0x2B] then [(j.aBase, els * 4)] else []) ++
  (if has [0x2A] then [(j.cBase, cblk * 0x400), (j.cScale, cblk * 0x80)] ++
    (if j.snapOn then [(j.sBase, cblk * 0x400), (j.sBase + j.cScale - j.cBase, cblk * 0x80)] else []) else [])

/-- A range lies wholly in stack n (R249). -/
def inStack (s : State) (n a len : Nat) : Bool :=
  decide (a + len ≤ stackTop) && (linesOf a len).all (fun l => stkPresent s l && physStack (physOf s l) == n)

/-- A start or completion word: absent, in stack memory, or in a tile data store; 8-byte aligned (R249). -/
def flagWordOk (s : State) (a : Nat) : Bool :=
  a == 0 || (a % 8 == 0 && ((decide (a < stackTop) && stkPresent s a) ||
    (decide (winBase ≤ a) && decide (a < winBase + 0x48000000) && inDataStore ((a - winBase) % 0x100000) && tileState s ((a - winBase) / 0x100000) != 4)))

/-- The record's fields are those of R249, and the program those of R250. -/
def jobForm (b : BaseDie) (j : Job) : Bool :=
  let p := jobProg b j
  bits (j.word 0) 31 29 == 0 && bits (j.word 0x10) 63 44 == 0 &&
  ((List.range 12).map (fun k => 0x18 + 8 * k) ++ [0x80]).all (fun o => o == 0x78 || (bits (j.word o) 63 48 == 0 && j.base o % 8 == 0)) &&
  (j.rec_.drop 0xC8).all (· == 0#8) &&
  j.n0 % 32 == 0 && j.rows % 32 == 0 && j.inputs % 64 == 0 &&
  (((j.gFmt == FP32 || j.gFmt == BF16) && j.gArr == 0) || (isFP8 j.gFmt && (j.gArr == 1 || j.gArr == 2))) &&
  (j.gArr != 2 || j.gTs == one32) &&
  (!j.copyOn || ((j.cFmt == FP4 || j.cFmt == E4M3) && (j.cArr == 1 || j.cArr == 2))) &&
  decide (j.start + j.len ≤ 256) && iOp (nth 0#32 p (j.len - 1)) == 0x3F && (p.take (j.len - 1)).all (fun w => iOp w != 0x3F) &&
  (j.auxOn || p.all (fun w => iOp w != 0x23 && iOp w != 0x2B)) && (j.copyOn || p.all (fun w => iOp w != 0x2A))

/-- A job or program load is refused (R250, R272). -/
def bnRefuse (n : Nat) (r : CmdRef) (st det : Nat) (s : State) : State :=
  postFrame r st det 0#64 (rsetBit (reg .STK_BN_ERR n) 3 true s)

/-- Submit a job (R249, R250, R391). -/
def submitJob (r : CmdRef) (n a : Nat) (s : State) : State :=
  if assist s 3 then bnRefuse n r stREFUSED_MODE 0 s
  else if !(a % 8 == 0 && decide (a + 256 ≤ stackTop) && (linesOf a 256).all (fun l => stkPresent s l)) then bnRefuse n r stREFUSED_ADDR 0 s
  else
    let (d, s) := stkRead 1 a 256 s
    let b := bdOf s n
    let j : Job := { no := b.jobNo + 1, recAt := a, rec_ := rawBytes d, cmd := r }
    if anyPoison d || !jobForm b j then bnRefuse n r stREFUSED_FORM 0 s
    else if !((jobArrays b j).all (fun p => inStack s n p.1 p.2) && flagWordOk s j.startWord && flagWordOk s j.doneWord) then bnRefuse n r stREFUSED_ADDR 0 s
    else if b.jobs.length ≥ 32 then bnRefuse n r stQUEUE_FULL 0 s
    else
      let s := setBd n { b with jobNo := b.jobNo + 1 } s
      acceptCmd r 0#64 (workAccepted (setJobs n (b.jobs ++ [{ j with lost := stackLost s n }]) s))

/-- BN_JOB (R249, R391): it waits while the record's stack stands at its critical step (R241). -/
def execBnJob (ring : Nat) (f : Frame) (s : State) : Out :=
  .next (if stkWaits s (bits f.w2 47 0) 256 then s
    else serve ring 0x0303 f { ops := [maskBits 2 0, maskBits 47 0] } (fun r s => submitJob r (bits f.w1 2 0) (bits f.w2 47 0) s) s)

/-! ### Start (R251, R252) -/

/-- Master ranges overlap (R251). -/
def mastersOverlap (i j : Job) : Bool :=
  let x := i.rows * i.inputs * 4
  let y := j.rows * j.inputs * 4
  decide (0 < x) && decide (0 < y) && decide (i.mBase < j.mBase + y) && decide (j.mBase < i.mBase + x)

/-- Index of the first job that has not started. -/
def firstWaiting (b : BaseDie) : Nat := findIdx (fun j => !j.started) b.jobs

/-- START_WORD_POLL (R252, R306): the start words of the waiting jobs and collectives are evaluated. -/
def execStartWordPoll (s : State) : Out :=
  .next (noteStarts (fun _ => true) s)

/-- Copy scale of a job (R154, R252); a pair that stage 7 does not scale uses 1.0. -/
def copyScale (s : State) (j : Job) : Half :=
  if !takesScale j.cFmt j.cArr then one32
  else let c := tscCtl s j.tid; effScale (tscScale s j.tid) (bits c 3 0) (bits c 5 4) j.cFmt j.cArr

/-- A job joins its commit group (R212 to R214, R270): none named; joined; or stale, and then it ends with no pass. -/
def joinGroup (j : Job) (s : State) : Job × State :=
  if j.group = 0xFFFF then (j, s) else
  let g := j.group % 16
  match memberCheck s j.group with
  | 0 =>
    let s := rsetBits (reg .CG_COUNT g) 8 0 (cgDispatched s g + 1) s
    ({ j with member := some g }, setCg g { cgOf s g with jobs := (cgOf s g).jobs + 1 } s)
  | k =>
    let s := if k = 2 then abortGroup g 4 0 0 s else s
    ({ j with aborted := true }, rsetBits (reg .CG_COUNT g) 63 48 (min 0xFFFF (rbits s (reg .CG_COUNT g) 63 48 + 1)) s)

/-- New jobs are held on a base die from step 1 of an advance until its values arrive (R159, R268). -/
def startsHeld (s : State) (b : BaseDie) : Bool := b.held || !s.blt.advWait.isEmpty

/-- UPDATE_JOB_START (R251, R252, R268): the oldest job that waits starts and latches lr, wdf, S and the copy scale. -/
def execUpdateJobStart (stack : Nat) (s : State) : Out :=
  .next (
    let b := bdOf s stack
    let k := firstWaiting b
    match b.jobs[k]? with
    | none => s
    | some j =>
      if !running s || startsHeld s b || j.lost || !(s.watch.met.contains (stack, j.no) || startMet s j.startWord j.startVal) || (b.jobs.take k).any (mastersOverlap j) then s
      else
        let (j, s) := joinGroup j (dropMet (stack, j.no) s)
        setJob stack { j with started := true, lr := b.lr, wdf := b.wdf, step := b.step, scale := copyScale s j } s)

/-! ### Passes (R247, R248) -/

/-- Engine e of stack n is in service (R262, R272). -/
def engineOn (s : State) (n e : Nat) : Bool := decide (e < 8) && bit (rget s (reg .STK_BN_STAT n)) e

/-- The passes that engine e interleaves, in the order of its rotation (R261). -/
def passesOf (s : State) (n e : Nat) : List Pass := SMap.get [] (bdOf s n).eng e
def setPasses (n e : Nat) (ps : List Pass) (s : State) : State :=
  let b := bdOf s n
  setBd n { b with eng := SMap.put [] b.eng e ps } s

/-- The pass that issues next on engine e; job 0 where the engine is idle. -/
def passOf (s : State) (n e : Nat) : Pass := nth {} (passesOf s n e) 0

/-- The pass that issued goes to the end of the rotation (R261). -/
def turnPass (n e : Nat) (p : Pass) (s : State) : State := setPasses n e ((passesOf s n e).drop 1 ++ [p]) s

/-- The pass that issued leaves the engine. -/
def dropPass (n e : Nat) (s : State) : State := setPasses n e ((passesOf s n e).drop 1) s

/-- Row and first block of a pass. -/
def passRow (j : Job) (p : Nat) : Nat := p / (j.inputs / 64)
def passBlk (j : Job) (p : Nat) : Nat := 2 * (p % (j.inputs / 64))

/-- Byte address of the header of block k of a pass. -/
def hdrAt (j : Job) (p k : Nat) : Nat := j.hBase + (passRow j p * j.perRow + passBlk j p + k) * 8

/-- The header as the pass begins: t advances, the flags of the last update clear (R246, R248). -/
def beginHdr (w : Word) : Word :=
  w64 (bits w 15 0 + min 0xFFFF (bits w 31 16 + 1) * 2 ^ 16 + 2 ^ 48)

/-- A pass ends: counted; every pass of the job may then have ended (R253, R272). -/
def passDone (n : Nat) (j : Job) (s : State) : State :=
  rcount (reg .STK_BN_PASSES n) 48 1 (setJob n { j with done := j.done + 1 } s)

/-- A poisoned pass writes nothing (R254). -/
def passPoisoned (n a : Nat) (j : Job) (s : State) : State :=
  let s := rset (reg .STK_BN_ERR_ADDR n) (w64 (a % 2 ^ 48)) (rsetBit (reg .STK_BN_ERR n) 0 true s)
  passDone n { j with poisoned := j.poisoned + 1, firstPoison := if j.poisoned = 0 then a else j.firstPoison } s

/-- A pass enters engine e, last in its rotation. -/
def addPass (n e : Nat) (p : Pass) (s : State) : State := setPasses n e (passesOf s n e ++ [p]) s

/-- Begin pass no on engine e: map word, headers, presence (R247, R248). A poisoned map word or header ends it at once. -/
def beginPass (n e no repeats firstEng : Nat) (j : Job) (s : State) : State :=
  let ma := j.pBase + ((passRow j no / 32) * j.perRow + passBlk j no) * 4
  let (d, s) := stkRead 2 ma 8 s
  if anyPoison d then passPoisoned n ma j s else
  let mapped := fun (k : Nat) => ((leNat ((rawBytes d).drop (4 * k) |>.take 4)) >>> (passRow j no % 32)) % 2 == 1
  let (h0, s) := if mapped 0 then stkRead 2 (hdrAt j no 0) 8 s else ([], s)
  let (h1, s) := if mapped 1 then stkRead 2 (hdrAt j no 1) 8 s else ([], s)
  if anyPoison h0 then passPoisoned n (hdrAt j no 0) j s
  else if anyPoison h1 then passPoisoned n (hdrAt j no 1) j s
  else
    let w0 := leWord (rawBytes h0)
    let w1 := leWord (rawBytes h1)
    let p0 := mapped 0 && bit w0 48
    let p1 := mapped 1 && bit w1 48
    let s := if repeats = 0 then rcount (reg .STK_BN_ABSENT n) 48 (b2n (!p0) + b2n (!p1)) s else s
    if !p0 && !p1 then passDone n j s
    else addPass n e { job := j.no, no := no, pres0 := p0, pres1 := p1, hdr0 := beginHdr w0, hdr1 := beginHdr w1, repeats := repeats, firstEng := firstEng } s

/-- BN_PASS_START (R248, R251, R261): an engine with fewer than four passes takes the next pass of the oldest job that has one. -/
def execBnPassStart (stack eng : Nat) (s : State) : Out :=
  .next (
    if !running s || stackCritical s stack || !engineOn s stack eng || (passesOf s stack eng).length ≥ 4 then s else
    match (bdOf s stack).jobs.find? (fun j => j.started && !j.aborted && !j.lost && decide (j.next < j.passes)) with
    | none => s
    | some j =>
      let j' := { j with next := j.next + 1 }
      beginPass stack eng j.next 0 eng j' (setJob stack j' s))

/-- The engine after e that is in service, e itself at last. -/
def nextEngine (s : State) (n e : Nat) : Option Nat := ((List.range 8).map (fun i => (e + 1 + i) % 8)).find? (engineOn s n)

/-- BN_PASS_REPEAT (R262): the oldest pass that ended on engine e with its check disagreed runs again on the next engine of the stack,
once that engine has fewer than four passes. -/
def execBnPassRepeat (stack eng : Nat) (s : State) : Out :=
  .next (
    let b := bdOf s stack
    let k := findIdx (fun p => p.firstEng == eng) b.redo
    match b.redo[k]? with
    | none => s
    | some p =>
      match nextEngine s stack eng, b.jobs.find? (fun j => j.no == p.job) with
      | some e, some j =>
        if !running s || stackCritical s stack || (passesOf s stack e).length ≥ 4 then s
        else beginPass stack e p.no 1 eng j (setBd stack { b with redo := dropNth b.redo k } s)
      | _, _ => s)

/-! ### Engine instructions (R256 to R260) -/

/-- Run the next instruction of the pass whose turn it is on engine e of stack n where its opcode is op: f gives the pass after it. -/
def bnRun (n e op : Nat) (f : Job → Pass → BitVec 32 → State → Pass × State) (s : State) : State :=
  let b := bdOf s n
  let p := passOf s n e
  match b.jobs.find? (fun j => j.no == p.job) with
  | none => s
  | some j =>
    let w := SMap.get 0#32 b.prog (j.start + p.pcw)
    if !running s || stackCritical s n || p.job = 0 || iOp w ≠ op then s
    else
      let r := f j p w s
      turnPass n e { r.1 with pcw := p.pcw + 1 } r.2

def Pass.lane (p : Pass) (r l : Nat) : Half := SMap.get 0#32 p.x (r * 64 + l)

/-- Source b and source c of a lane (R255). -/
def srcB (j : Job) (p : Pass) (w : BitVec 32) (l : Nat) : Half := if iBs w then j.u (iB w) else p.lane (iB w) l
def srcC (j : Job) (p : Pass) (w : BitVec 32) (l : Nat) : Half := if iCs w then j.u (iC w) else p.lane (iC w) l

/-- Write all 64 lanes of x[d]. -/
def Pass.setX (p : Pass) (d : Nat) (f : Nat → Half) : Pass := { p with x := SMap.putList 0#32 p.x (d * 64) ((List.range 64).map f) }

/-- A lane operation of a, b and c; ok is the verdict of its residue check where it carries one (R262). -/
def bnLane (n e op : Nat) (ok : Bool) (g : Half → Half → Half → Half) (s : State) : State :=
  bnRun n e op (fun j p w s =>
    (({ p with disagree := p.disagree || !ok }).setX (iD w) (fun l => g (p.lane (iA w) l) (srcB j p w l) (srcC j p w l)), s)) s

def Pass.present (p : Pass) (l : Nat) : Bool := if l < 32 then p.pres0 else p.pres1
def Pass.hdr (p : Pass) (k : Nat) : Word := if k = 0 then p.hdr0 else p.hdr1
def Pass.setHdr (p : Pass) (k : Nat) (w : Word) : Pass := if k = 0 then { p with hdr0 := w } else { p with hdr1 := w }

/-- The step counter of a lane's block (R248). -/
def Pass.t (p : Pass) (l : Nat) : Nat := bits (p.hdr (l / 32)) 31 16

/-- u^t by binary exponentiation from the most significant bit (R260). -/
def powt (u : Half) (t : Nat) : Half :=
  (List.range 16).foldl (fun (r : Half) i => let q := fmul r r; if (t >>> (15 - i)) % 2 = 1 then fmul q u else q) one32

/-- BN_NOP (R256). -/
def execBnNop (stack eng : Nat) (s : State) : Out := .next (bnRun stack eng 0x00 (fun _ p _ s => (p, s)) s)
/-- BN_ADD (R256, R260, R262). -/
def execBnAdd (stack eng : Nat) (ok : Bool) (s : State) : Out := .next (bnLane stack eng 0x01 ok (fun a b _ => fadd a b) s)
/-- BN_SUB. -/
def execBnSub (stack eng : Nat) (ok : Bool) (s : State) : Out := .next (bnLane stack eng 0x02 ok (fun a b _ => fsub a b) s)
/-- RSB. -/
def execBnRsb (stack eng : Nat) (ok : Bool) (s : State) : Out := .next (bnLane stack eng 0x03 ok (fun a b _ => fsub b a) s)
/-- BN_MUL. -/
def execBnMul (stack eng : Nat) (ok : Bool) (s : State) : Out := .next (bnLane stack eng 0x04 ok (fun a b _ => fmul a b) s)
/-- BN_FMA: rounded once. -/
def execBnFma (stack eng : Nat) (ok : Bool) (s : State) : Out := .next (bnLane stack eng 0x05 ok (fun a b c => ffma a b c) s)
/-- FNS: c − a × b, rounded once. -/
def execBnFns (stack eng : Nat) (ok : Bool) (s : State) : Out := .next (bnLane stack eng 0x06 ok (fun a b c => ffma (fneg a) b c) s)
/-- DIV: exact. -/
def execBnDiv (stack eng : Nat) (ok : Bool) (s : State) : Out := .next (bnLane stack eng 0x07 ok (fun a b _ => fdiv a b) s)
/-- SQRT: exact. -/
def execBnSqrt (stack eng : Nat) (ok : Bool) (s : State) : Out := .next (bnLane stack eng 0x08 ok (fun a _ _ => fsqrt a) s)
/-- RCP: VFUNC's sequence (R116, R260). -/
def execBnRcp (stack eng : Nat) (s : State) : Out := .next (bnLane stack eng 0x09 true (fun a _ _ => vfunc 3 a) s)
/-- RSQ. -/
def execBnRsq (stack eng : Nat) (s : State) : Out := .next (bnLane stack eng 0x0A true (fun a _ _ => vfunc 2 a) s)
/-- EXP. -/
def execBnExp (stack eng : Nat) (s : State) : Out := .next (bnLane stack eng 0x0B true (fun a _ _ => vfunc 0 a) s)
/-- LOG. -/
def execBnLog (stack eng : Nat) (s : State) : Out := .next (bnLane stack eng 0x0C true (fun a _ _ => vfunc 1 a) s)
/-- BN_MAX. -/
def execBnMax (stack eng : Nat) (s : State) : Out := .next (bnLane stack eng 0x0D true (fun a b _ => toF32 .even (numMax true (f32 a) (f32 b))) s)
/-- BN_MIN. -/
def execBnMin (stack eng : Nat) (s : State) : Out := .next (bnLane stack eng 0x0E true (fun a b _ => toF32 .even (numMax false (f32 a) (f32 b))) s)
/-- ABS. -/
def execBnAbs (stack eng : Nat) (s : State) : Out := .next (bnLane stack eng 0x0F true (fun a _ _ => toF32 .even (f32 a).abs) s)
/-- SEL: c where a < 0, else b. -/
def execBnSel (stack eng : Nat) (s : State) : Out := .next (bnLane stack eng 0x10 true (fun a b c => if Num.lt (f32 a) .zero then c else b) s)

/-- POWT (R260). -/
def execBnPowt (stack eng : Nat) (s : State) : Out :=
  .next (bnRun stack eng 0x11 (fun j p w s => (p.setX (iD w) (fun l => powt (j.u (iB w)) (p.t l)), s)) s)

/-- BCNT (R256). -/
def execBnBcnt (stack eng : Nat) (s : State) : Out :=
  .next (bnRun stack eng 0x12 (fun _ p w s => (p.setX (iD w) (fun l => toF32 .even (.ofInt (p.t l))), s)) s)

/-! ### Stream instructions -/

/-- A byte as the pass sees it: its own stores first (R261). -/
def Pass.byte (p : Pass) (s : State) (a : Nat) : Byte :=
  match p.wr.reverse.find? (fun e => decide (e.1 ≤ a) && decide (a < e.1 + e.2.length)) with
  | some e => nth 0#8 e.2 (a - e.1)
  | none => stkByte s a

/-- n bytes at an address, little-endian. -/
def Pass.num (p : Pass) (s : State) (a n : Nat) : Nat := leNat ((List.range n).map (fun i => p.byte s (a + i)))

/-- Account the reads of a stream load: every line once at class 2, the first poisoned address kept (R244, R254). -/
def Pass.touch (p : Pass) (as : List (Nat × Nat)) (s : State) : Pass × State :=
  let ls := (as.flatMap (fun a => linesOf a.1 a.2)).eraseDups
  let s := ls.foldl (fun s l => lineRead 2 l s) s
  let bad := as.find? (fun a => anyPoison (stkPeek s a.1 a.2))
  ({ p with poisonAt := p.poisonAt <|> bad.map (·.1) }, s)

/-- Lanes of present blocks. -/
def Pass.lanes (p : Pass) : List Nat := (List.range 64).filter p.present

/-- Input of a lane. -/
def laneIn (j : Job) (p : Pass) (l : Nat) : Nat := passBlk j p.no * 32 + l

/-- Element number of a lane within the job's rows. -/
def laneEl (j : Job) (p : Pass) (l : Nat) : Nat := passRow j p.no * j.inputs + laneIn j p l

/-- Address of a lane's gradient element, bytes of the element, address of its scale (R103, R245). -/
def gradAt (j : Job) (p : Pass) (l : Nat) : Nat × Nat × Nat :=
  let row := passRow j p.no
  let c := row % 32
  let i := laneIn j p l
  let tile := (row / 32) * j.perRow + i / 32
  let r := i % 32
  let b := fmtBits j.gFmt / 8
  let per := 32 / b
  (j.gBase + tile * j.gTile + (c / per) * 0x400 + r * 32 + (c % per) * b, b, j.gScale + tile * 0x80 + r * 4 + (if j.gArr = 1 then c / 16 else 0))

/-- LDG (R257). -/
def execBnLdg (stack eng : Nat) (s : State) : Out :=
  .next (bnRun stack eng 0x20 (fun j p w s =>
    let as := p.lanes.flatMap (fun l => let g := gradAt j p l; (g.1, g.2.1) :: (if j.gArr = 0 then [] else [(g.2.2, 1)]))
    let q := p.touch as s
    let v := fun (l : Nat) =>
      if !p.present l then 0#32 else
      let g := gradAt j p l
      let x := decodeNum j.gFmt (p.num q.2 g.1 g.2.1)
      let x := if j.gArr = 0 then x else Num.mul x (decodeNum (if j.gArr = 1 then UE4M3 else E8M0) (p.num q.2 g.2.2 1))
      toF32 .even (Num.mul x (f32 j.gTs))
    (q.1.setX (iD w) v, q.2)) s)

/-- FP32 words of the lanes at a base (R257). -/
def bnLoad32 (base : Nat) (j : Job) (p : Pass) (w : BitVec 32) (s : State) : Pass × State :=
  let a := fun (l : Nat) => base + laneEl j p l * 4
  let q := p.touch (p.lanes.map (fun l => (a l, 4))) s
  (q.1.setX (iD w) (fun l => if p.present l then BitVec.ofNat 32 (p.num q.2 (a l) 4) else 0#32), q.2)

/-- LDW (R257). -/
def execBnLdw (stack eng : Nat) (s : State) : Out := .next (bnRun stack eng 0x21 (fun j p w s => bnLoad32 j.mBase j p w s) s)
/-- LDX (R257). -/
def execBnLdx (stack eng : Nat) (s : State) : Out := .next (bnRun stack eng 0x23 (fun j p w s => bnLoad32 j.aBase j p w s) s)

/-- LDM (R257): the header's scale is the one in force, the pass's own store included. -/
def execBnLdm (stack eng : Nat) (s : State) : Out :=
  .next (bnRun stack eng 0x22 (fun j p w s =>
    let k := iSel w
    let a := fun (l : Nat) => j.moBase k + laneEl j p l
    let q := p.touch (p.lanes.map (fun l => (a l, 1))) s
    let v := fun (l : Nat) =>
      if !p.present l then 0#32
      else toF32 .even (Num.mul (decodeNum INT8 (p.num q.2 (a l) 1)) (decodeNum E8M0 (bits (p.hdr (l / 32)) (8 * k + 7) (8 * k))))
    (q.1.setX (iD w) v, q.2)) s)

/-- Lanes of block k hold a non-finite value. -/
def Pass.nonfin (p : Pass) (r k : Nat) : Bool := (List.range 32).any (fun i => !(f32 (p.lane r (32 * k + i))).isFin)

/-- Present blocks. -/
def Pass.blocks (p : Pass) : List Nat := (List.range 2).filter (fun k => if k = 0 then p.pres0 else p.pres1)

/-- Store FP32 unchanged; a non-finite lane sets NF (R258). -/
def bnStore32 (base : Nat) (j : Job) (p : Pass) (w : BitVec 32) : Pass :=
  p.blocks.foldl (fun p k =>
    let a := base + laneEl j p (32 * k) * 4
    let d := (List.range 32).flatMap (fun i => leBytes 4 (p.lane (iA w) (32 * k + i)).toNat)
    let h := p.hdr k
    { p.setHdr k (setBit h 32 (bit h 32 || p.nonfin (iA w) k)) with wr := p.wr ++ [(a, d)] }) p

/-- STW (R258). -/
def execBnStw (stack eng : Nat) (s : State) : Out := .next (bnRun stack eng 0x28 (fun j p w s => (bnStore32 j.mBase j p w, s)) s)
/-- STX (R258). -/
def execBnStx (stack eng : Nat) (s : State) : Out := .next (bnRun stack eng 0x2B (fun j p w s => (bnStore32 j.aBase j p w, s)) s)

/-- The E8M0 code of a moment block: the smallest 2^e, e ≥ −127, with 2^e × 127 ≥ d; 0 for d = 0 (R258). -/
def momentScale (d : Option (Nat × Nat)) : Nat :=
  if magLe d (some (0, 1)) then 0
  else ((List.range 255).find? (fun c => magLe d (numMag (Num.mul (decodeNum E8M0 c) (.fin false 127 0))))).getD 254

/-- A moment element at a scale (R258). -/
def momentCode (v : Half) (c : Nat) : Nat :=
  match f32 v with
  | .nan _ => 0
  | .inf n => if n then 0x81 else 0x7F
  | .fin n m e =>
    let q : Int := roundInt .even m (e - ((c : Int) - 127))
    ofSigned 8 (max (-127) (min 127 (if n then -q else q)))

/-- STM (R258): an infinity counts as saturated and as non-finite. -/
def execBnStm (stack eng : Nat) (s : State) : Out :=
  .next (bnRun stack eng 0x29 (fun j p w s =>
    let m := iSel w
    (p.blocks.foldl (fun p k =>
      let vs := (List.range 32).map (fun i => p.lane (iA w) (32 * k + i))
      let c := momentScale (magMax ((vs.filter (fun v => (f32 v).isFin)).map (fun v => numMag (f32 v).abs)))
      let h := setBits (p.hdr k) (8 * m + 7) (8 * m) c
      let h := setBit h 32 (bit h 32 || p.nonfin (iA w) k)
      let h := setBit h 33 (bit h 33 || vs.any (fun v => !(f32 v).isFin && !(f32 v).isNan))
      { p.setHdr k h with wr := p.wr ++ [(j.moBase m + laneEl j p (32 * k), vs.map (fun v => BitVec.ofNat 8 (momentCode v c)))] }) p, s)) s)

/-- Convert a block of 16 or 32 for the copy: stage 7 without passes; a DQ block beyond 448 takes 0x7E and saturates (R259). -/
def copyBlock (fo arro : Nat) (sc : Option Half) (xs : List Num) : Unit7 :=
  let u := convBlock fo arro none sc (fun _ => .even) (fun _ => 0) xs
  if !u.ovf then u else
  let m := (numMag (decodeNum UE4M3 0x7E)).getD (1, 1)
  { els := xs.map (fun x => blockElem fo .even x (stepOne x sc) m), sb := 0x7E }

/-- The pieces that STC writes for block k of a pass at a copy base and a scale base (R245, R259). -/
def copyPieces (base sbase : Nat) (j : Job) (p : Pass) (k : Nat) (us : List Unit7) : List (Nat × List Byte) :=
  let row := passRow j p.no
  let i := laneIn j p (32 * k)
  let blk := (row / 32) * (j.inputs / j.el) + i / j.el
  let codes := us.flatMap (fun u => u.els.map (·.code))
  let half := if j.cFmt = FP4 then (i / 32) % 2 else 0
  [(base + blk * 0x400 + (row % 32) * 32 + half * 16, if j.cFmt = FP4 then pack2 codes else codes.map (BitVec.ofNat 8)),
   (sbase + blk * 0x80 + (row % 32) * 4 + half * us.length, us.map (fun u => BitVec.ofNat 8 u.sb))]

/-- STC (R259, R270). -/
def execBnStc (stack eng : Nat) (s : State) : Out :=
  .next (bnRun stack eng 0x2A (fun j p w s =>
    let sc := if takesScale j.cFmt j.cArr then some j.scale else none
    let n := if j.cArr = 1 then 16 else 32
    (p.blocks.foldl (fun p k =>
      let vs := (List.range 32).map (fun i => p.lane (iA w) (32 * k + i))
      let us := (chunks n (vs.map f32)).map (copyBlock j.cFmt j.cArr sc)
      let es := us.flatMap (·.els)
      let h := p.hdr k
      let add := [(es.filter (·.zero)).length, (es.filter (·.sat)).length, (es.filter (·.nonfin)).length, es.length]
      let mx := vs.foldl (fun m v => if (f32 v).isFin && decide (m.toNat < (v &&& 0x7FFFFFFF#32).toNat) then v &&& 0x7FFFFFFF#32 else m) p.amax
      let q := { p.setHdr k (setBit h 34 (bit h 34 || es.any (·.sat))) with
        wr := p.wr ++ copyPieces j.cBase j.cScale j p k us, cnts := List.zipWith (· + ·) p.cnts add, amax := mx }
      if j.snapOn then { q with snap := q.snap ++ copyPieces j.sBase (j.sBase + j.cScale - j.cBase) j p k us } else q) p, s)) s)

/-! ### The end of a pass and of a job (R248, R253, R262, R270) -/

/-- A write by a base-note engine: its slots count as class 2 (R227, R244). -/
def bnWrite (a : Nat) (d : List Byte) (s : State) : State := stkWriteAs 2 .engine a (cleanBytes d) s

/-- A write of a snapshot: as a member's where the job is one (R211, R270); outside its group's regions, or to a page dirty for another
group, it is discarded and recorded. -/
def snapWrite (j : Job) (e : Nat × List Byte) (s : State) : State :=
  match j.member with
  | none => bnWrite e.1 e.2 s
  | some g =>
    let inside := match shrOf s e.1 with | some r => (cgOf s g).regions.testBit r | none => false
    if !groupOpen s j.group then s
    else if inside && !dirtyElsewhere s g e.1 then stkGroupWrite 2 g e.1 (cleanBytes e.2) s else recOther .engine 211 (w64 e.1) s

/-- Charge an engine with a datapath fault; two within 24 h retire it (R262, R410). -/
def chargeEngine (n e row tid : Nat) (s : State) : State :=
  let b := bdOf s n
  let now := (epoch s).toNat
  let last := SMap.get 0 b.dpLast e
  let twice := last ≠ 0 && decide (now < last - 1 + dayNs)
  let s := setBd n { b with dpLast := SMap.put 0 b.dpLast e (now + 1) } s
  let s := event 0x0302 (n / 2) n (w64 (4 + e * 2 ^ 8 + (row % 256) * 2 ^ 24)) (w64 (tid + (if twice then 2 else 1) * 2 ^ 56)) s
  if twice then
    event 0x0304 (n / 2) n (w64 e) 0#64 (rsetBit (reg .STK_BN_ERR n) 2 true (rsetBit (reg .STK_BN_STAT n) e false s))
  else s

/-- Apply a pass's writes, then its headers; its counts join the job (R248, R259). -/
def passApply (n : Nat) (j : Job) (p : Pass) (s : State) : State :=
  let s := p.wr.foldl (fun s e => bnWrite e.1 e.2 s) s
  let s := p.snap.foldl (fun s e => snapWrite j e s) s
  let s := p.blocks.foldl (fun s k => bnWrite (hdrAt j p.no k) (leBytes 8 (p.hdr k).toNat) s) s
  passDone n { j with cnts := List.zipWith (· + ·) j.cnts p.cnts, amax := if j.amax.toNat < p.amax.toNat then p.amax else j.amax } s

/-- BN_END (R248, R254, R262). -/
def execBnEnd (stack eng : Nat) (s : State) : Out :=
  .next (
    let b := bdOf s stack
    let p := passOf s stack eng
    match b.jobs.find? (fun j => j.no == p.job) with
    | none => s
    | some j =>
      if !running s || stackCritical s stack || p.job = 0 || iOp (SMap.get 0#32 b.prog (j.start + p.pcw)) ≠ 0x3F then s
      else match p.poisonAt with
      | some a => passPoisoned stack a j (dropPass stack eng s)
      | none =>
        if p.disagree then
          let s := rsetBit (reg .STK_BN_ERR stack) 1 true s
          let s := dropPass stack eng s
          if p.repeats = 0 then let b := bdOf s stack; setBd stack { b with redo := b.redo ++ [p] } s
          else passDone stack { j with check := true } s
        else
          let s := passApply stack j p (dropPass stack eng s)
          if p.repeats = 0 then s else chargeEngine stack p.firstEng (j.n0 + passRow j p.no) j.tid s)

/-- Add 1 to a word of stack memory: a read-modify-write of its line by the controller that holds it, which no other access splits. A
line that is poisoned or cannot be corrected stays poisoned (R229, R232, R253). -/
def lineAdd (a : Nat) (s : State) : State :=
  let p := physOf s (backing s false a)
  if placeLost s p then recOther .engine 408 (w64 a) s
  else if !stkPresent s a then recUnmapped .engine a true s
  else
    let n := serveStack s p
    let bad := lineBad s (p / 64)
    let r := lineDecode (p / 64) s
    let s := slotCount n 4 1 (rcount (reg .STK_RD_LINES n) 48 1 (rcount (reg .STK_RMW n) 48 1 r.2))
    let s := if bad || r.1 then stkUe a (p / 64) s else s
    let w := leWord (rawBytes (stkPeek s a 8)) + 1#64
    let mem := (List.range 8).foldl (fun m i => SMap.put 0#8 m (physOf s (backing s false (a + i))) (nth 0#8 (leBytes 8 w.toNat) i)) s.stk.mem
    noteStarts (fun b => b / 64 == a / 64) (lineFilled (p / 64) 4 (bad || r.1) { s with stk := { s.stk with mem := mem } })

/-- Add 1 to a word of tile t's data store as an AADD (R77, R253): a poisoned word keeps its contents and its mark. `st` is the stack whose
engine sends it over the mesh. -/
def tileAdd (st : Option Nat) (t o : Nat) (s : State) : State :=
  if tileState s t = 4 then recUnmapped .engine (winBase + t * 0x100000 + o) true s
  else
    let r := match st with | some n => stackTrip (physPos s t) true n 8 8 s | none => (false, s)
    let s := meetWords t o 8 r.2
    if r.1 || (tileOf s t).wordPoison o then s
    else winPoke t o (cleanBytes (leBytes 8 ((tileOf s t).word o + 1#64).toNat)) s

/-- Add 1 to a completion word (R253); address 0 is none. -/
def bumpWord (st : Option Nat) (a : Nat) (s : State) : State :=
  if a = 0 then s
  else if a < stackTop then lineAdd a s
  else tileAdd st ((a - winBase) / 0x100000) ((a - winBase) % 0x100000) s

/-- The access to a start or completion word waits: its stack stands at its critical step, its tile in MAP_HOLD (R31, R241). -/
def flagWaits (s : State) (a : Nat) : Bool :=
  a != 0 && (if a < stackTop then stkWaits s a 8 else tileState s ((a - winBase) / 0x100000) == 2)

/-- A job leaves its group: completed, or failed with its stack (R213, R216, R270). -/
def leaveGroup (j : Job) (s : State) : State :=
  match j.member with
  | none => s
  | some g =>
    let s := setCg g { cgOf s g with jobs := (cgOf s g).jobs - 1 } s
    if j.lost then groupSettle g (abortGroup g 5 0 0 (rsetBits (reg .CG_COUNT g) 40 32 (cgFailed s g + 1) s))
    else groupSettle g (groupAdvance g (rsetBits (reg .CG_COUNT g) 24 16 (cgCompleted s g + 1) s))

/-- The final status of a job (R253, R270). -/
def jobStatus (s : State) (j : Job) : Nat :=
  if j.lost then stSTACK_LOST
  else if j.aborted || (j.member.isSome && cgStat s j.group == 3) then stGROUP_ABORTED
  else if j.check then stCHECK else if j.poisoned ≠ 0 then stPARTIAL else stOK

/-- End a job: copy scale into the record, blotter report, completion word, group, frame (R253, R259, R270). -/
def endJob (n : Nat) (j : Job) (s : State) : State :=
  let st := jobStatus s j
  let s := setJobs n ((bdOf s n).jobs.filter (fun k => k.no != j.no)) (dropMet (n, j.no) s)
  let s := if j.copyOn && j.started && !j.lost && !j.aborted then bnWrite (j.recAt + 0x8C) (leBytes 4 j.scale.toNat) s else s
  let s := if nth 0 j.cnts 3 ≠ 0 then { s with blt := { s.blt with reports := s.blt.reports ++ [⟨j.tid, j.amax, j.cnts⟩] } } else s
  let s := bumpWord (some n) j.doneWord s
  finishCmd j.cmd st j.poisoned (w64 (j.firstPoison % 2 ^ 48 + j.tag * 2 ^ 48)) (leaveGroup j s)

/-- UPDATE_JOB_COMPLETION (R253): the first job whose passes have all ended, or whose stack is lost. -/
def execUpdateJobCompletion (stack : Nat) (s : State) : Out :=
  .next (
    match (bdOf s stack).jobs.find? (fun j => j.lost || (j.started && (j.aborted || decide (j.done = j.passes)))) with
    | none => s
    | some j => if (running s || j.lost) && !stkWaits s j.recAt 256 && !flagWaits s j.doneWord then endJob stack j s else s)

/-! ### Program load (R254, R255, R391) -/

/-- BN_LOAD: all stacks of the mask or none. -/
def execBnLoad (ring : Nat) (f : Frame) (s : State) : Out :=
  .next (serve ring 0x0302 f { ops := [maskBits 15 0], buf := true } (fun r s =>
    let mask := bits f.w1 7 0
    let first := bits f.w1 15 8
    let n := bufLen f
    let ns := (List.range 8).filter (fun k => mask.testBit k)
    let mark := fun (s : State) => ns.foldl (fun s k => rsetBit (reg .STK_BN_ERR k) 3 true s) s
    if n % 4 ≠ 0 || first + n / 4 > 256 then postFrame r stREFUSED_FORM 0 0#64 (mark s)
    else if !bufOk f n s then postFrame r stREFUSED_ADDR 0 0#64 (mark s)
    else if ns.any (fun k => !(bdOf s k).jobs.isEmpty) then postFrame r stREFUSED_STATE 0 0#64 (mark s)
    else
      let (d, s) := bufRead f n s
      let ws := (chunks 4 (rawBytes d)).map (fun c => BitVec.ofNat 32 (leNat c))
      if anyPoison d || !ws.all bnWordOk then postFrame r stREFUSED_FORM 0 0#64 (mark s)
      else postFrame r stOK 0 0#64 (ns.foldl (fun s k => let b := bdOf s k; setBd k { b with prog := SMap.putList 0#32 b.prog first ws } s) s)) s)

end Sys2Proof.Machine
end

