-- ==== Sys2Proof/Machine/Stack.lean ====
section
/-! DEFINITION. The stack controllers (R226 to R241, R409): reads with their line code, writes, refresh, patrol, row, page and
channel repair, thermal steps, loss of a stack. -/

namespace Sys2Proof.Machine
open Sys2Proof

/-! ### Lines that a controller has to treat (R232 to R238) -/

/-- Symbol errors that cells have come to hold: DPA (as the interleave places it), data or check line, beats; those whose place `f` takes. -/
def strikeLines (f : Nat → Bool) (errs : List (Nat × Nat × Nat)) (s : State) : State :=
  errs.foldl (fun s e => if e.1 < stackTop && f (servePlace s (physOf s e.1)) then hitLine (physOf s e.1 / 64) e.2.1 e.2.2 s else s) s

/-- The lines at places that `f` takes of which a read does more than deliver them: symbols in error, poison, and, with `open_`, an open
combining entry. -/
def markedLines (f : Nat → Bool) (open_ : Bool) (s : State) : List Nat :=
  let ls : List Nat := s.stk.flips.map (fun e => e.1 / 72) ++ s.stk.poison.map (fun e => e.1) ++ (if open_ then s.stk.wcb.map (fun e => e.line) else [])
  ls.eraseDups.filter (fun l => f (servePlace s (l * 64)))

/-- A repair copies line l (R235, R237): corrected, or with its poison bit set where it cannot be; a read of a poisoned line is recorded. -/
def copyHome (l : Nat) (s : State) : State :=
  let bad := SMap.get false s.stk.poison l
  let r := lineDecode l s
  let s := if bad || r.1 then stkUe (unplace s (l * 64)) l r.2 else r.2
  clearFlips l { s with stk := { s.stk with poison := SMap.put false s.stk.poison l (bad || r.1) } }

/-- A repair copies all lines at the places that `f` takes. -/
def copyPlaces (f : Nat → Bool) (s : State) : State := (markedLines f false s).foldl (fun s l => copyHome l s) s

/-! ### Requests (R226, R229, R231, R241) -/

/-- STACK_READ_REQUEST: `errs` are symbol errors, data or check line and beats, that the cells of the first line have come to hold; `late`
tells of a class-0 read served beyond its bound. The data stands in the port's read completion. A line that an address does not map
reads 0 (R13). -/
def execStackReadRequest (req : Req) (cls dpa len : Nat) (errs : List (Nat × Nat)) (late : Bool) (s : State) : Out :=
  .next (
    if stkWaits s dpa len then s
    else if !(linesOf dpa len).all (fun l => stkPresent s l) then
      recUnmapped req dpa false { s with ports := { s.ports with rdata := List.replicate len 0#8, rpoison := false } }
    else
      let p := physOf s (backing s false dpa)
      let s := if placeLost s p then s else errs.foldl (fun s e => hitLine (p / 64) e.1 e.2 s) s
      let s := if late && cls = 0 then rcount (reg .STK_C0_LATE (serveStack s p)) 48 1 s else s
      let (d, s) := stkRead (cls % 4) dpa len s
      { s with ports := { s.ports with rdata := rawBytes d, rpoison := anyPoison d } })

/-- STACK_WRITE_REQUEST (R229). -/
def execStackWriteRequest (req : Req) (dpa : Nat) (data : List Byte) (s : State) : Out :=
  .next (if stkWaits s dpa data.length then s else if dpa < stackTop then stkWrite req dpa (cleanBytes data) s else recUnmapped req dpa true s)

/-- COMBINING_TIMEOUT (R229): the oldest open entry is read-modify-written. -/
def execCombiningTimeout (stack : Nat) (s : State) : Out := .next (if stackCritical s stack || stackLost s stack then s else wcbRmw stack s)

/-- REFRESH (R226): refresh takes up to 4 slots of a window, 8 from the warm step on; how many is the controller's. -/
def execRefresh (stack pc : Nat) (s : State) : Out :=
  .next (
    if stack ≥ 8 || pc ≥ 64 || stackCritical s stack || stackLost s stack then s else
    let lim := if rbits s (reg .STK_TEMP stack) 9 8 ≥ 1 then 8 else 4
    let (w, s) := takeFresh s
    slotCount stack 5 (w.toNat % (lim + 1)) s)

/-- Lines of a stack. -/
def stackLines : Nat := 64 * chanBytes / 64

/-- PATROL_SCRUB (R233): one period of a stack's patrol reads every line. `errs` are symbol errors that its cells have come to hold; `met`
tells whether the period was finished; which lines and slots an unfinished one reached is not known. -/
def execPatrolScrub (stack : Nat) (errs : List (Nat × Nat × Nat)) (met : Bool) (s : State) : Out :=
  .next (
    if stack ≥ 8 || stackCritical s stack || stackLost s stack then s else
    let here := fun (q : Nat) => physStack q == stack
    let (w, s') := takeFresh s
    let s := if met then slotCount stack 6 stackLines s else slotCount stack 6 (w.toNat % stackLines) (rsetBit (reg .STK_ERR stack) 3 true s')
    let s := strikeLines here errs s
    (markedLines here true s).foldl (fun s l =>
      if met || bit (Config.freeWord (w.toNat + l)) 0 then lineMeet (unplace s (l * 64)) l s else s) s)

/-! ### Repair (R235 to R240) -/

/-- The approved proposal for a repair of one of the rows that `f` takes (R240). -/
def approved (s : State) (kind a b : Nat) (f : Nat → Bool) : Option Proposal :=
  s.cox.proposals.find? (fun p => p.kind == kind && p.a == a && p.b == b && p.decided && f (rowKey (a * 64 + b) p.c p.d))

/-- A repair may run: hardware mode, or an approved proposal (R240). -/
def repairAllowed (s : State) (kind a b : Nat) (f : Nat → Bool) : Bool := !assist s 8 || (approved s kind a b f).isSome

/-- A repair is done: its proposal goes, and MEM_REPAIR answers (R391). -/
def repairDone (kind a b : Nat) (f : Nat → Bool) (s : State) : State :=
  match approved s kind a b f with
  | none => s
  | some p => finishOpt p.cmd stOK 0 0#64 { s with cox := { s.cox with proposals := s.cox.proposals.filter (fun q => q.num != p.num) } }

/-- The cause of a repair leaves the error table. -/
def clearRows (f : Nat → Bool) (s : State) : State := { s with stk := { s.stk with rows := s.stk.rows.filter (fun r => !f r.row) } }

/-- A row of this kind is failing. -/
def rowFails (s : State) (f : Nat → Bool) : Bool := s.stk.rows.any (fun r => r.failing && f r.row)

/-- ROW_REMAP (R235, R236): the row's lines are copied, with the errors that its cells hold and `errs` beside them, to the next free spare
row of the bank; a spare that held the row is bad. -/
def execRowRemap (stack pc bank row : Nat) (errs : List (Nat × Nat × Nat)) (s : State) : Out :=
  .next (
    let k := rowKey (stack * 64 + pc) bank row
    if stack ≥ 8 || pc ≥ 64 || bank ≥ 16 || stackCritical s stack || stackLost s stack || repairKind s k ≠ 1 || !rowFails s (· == k) || !repairAllowed s 1 stack pc (· == k) then s
    else
      let bk := keyBank k
      let s := match s.stk.remap.find? (fun e => e.1 == k) with
        | some e => { s with stk := { s.stk with badSpare := SMap.put false s.stk.badSpare (bk * 4 + e.2) true, remap := SMap.erase s.stk.remap k } }
        | none => s
      match freeSpareRow s bk with
      | none => s
      | some i =>
        let here := fun (q : Nat) => physRow q == k
        let s := copyPlaces here (strikeLines here errs { s with stk := { s.stk with remap := SMap.set s.stk.remap k i } })
        let s := rsetBit (reg .STK_ERR stack) 1 true (rcount (reg .STK_REMAPS stack) 48 1 (clearRows (· == k) s))
        let left := 4 - (sparesGone s bk).length
        let s := rset (reg .STK_SPARE_MIN stack) (w64 (min left (rbits s (reg .STK_SPARE_MIN stack) 2 0))) s
        repairDone 1 stack pc (· == k) (event 0x0602 (stack / 2) stack (w64 (1 + pc * 2 ^ 8)) 1#64 s))

/-- Usable capacity in MiB after withdrawals (R243). -/
def usableMiB (pages chans : Nat) : Nat := (stackTop - pages * 4096 - chans * chanBytes) / 2 ^ 20

/-- Show withdrawals in MEM_RESERVE (R243). -/
def showReserve (pages chans : Nat) (s : State) : State :=
  rset (reg .MEM_RESERVE) (w64 (pages % 2 ^ 16 + (chans % 16) * 2 ^ 16 + usableMiB pages chans * 2 ^ 32)) s

/-- A group that commits has a dirty page with a granule, in either backing, at a place that `f` takes (R240). -/
def committingAt (s : State) (f : Nat → Bool) : Bool :=
  (List.range 16).any (fun g => cgState s g == 1 && (cgOf s g).pages.any (fun e => (List.range 16).any (fun i =>
    let a := e.1 * 4096 + i * 256
    f (servePlace s (physOf s (backing s false a))) || f (servePlace s (physOf s (backing s true a))))))

/-- Lines that a move reads in one stack and writes in another count as fills (R215, R227, R416). -/
def countMove (src dst k : Nat) (s : State) : State :=
  slotCount dst 4 k (rcount (reg .STK_WR_LINES dst) 48 k (slotCount src 1 k (rcount (reg .STK_RD_LINES src) 48 k s)))

/-- PAGE_RETIREMENT (R237): a row of the page fails, its bank has no free spare and a commit-group slot is free. The page is copied to a
replacement from the top of its channel, which is withdrawn, and redirected there. `errs` are symbol errors that its cells have come to
hold. -/
def execPageRetirement (stack pc page : Nat) (errs : List (Nat × Nat × Nat)) (s : State) : Out :=
  .next (
    let ch := stack * 64 + pc
    let f := rowInPage ch page
    let pp := ch * 196608 + page
    let here := fun (q : Nat) => q / 4096 == pp
    if stack ≥ 8 || pc ≥ 64 || page ≥ 196608 || stackCritical s stack || stackLost s stack || !repairAllowed s 2 stack pc f ||
      !(s.stk.rows.any (fun r => r.failing && f r.row && repairKind s r.row == 2)) || committingAt s here then s
    else match freeSlot s, sparePage s ch with
    | some g, some repl =>
      let s := freeGroup g (openSlot g 1 0 true none s)
      let s := countMove stack stack 64 (copyPlaces here (strikeLines here errs s))
      let s := { s with stk := { s.stk with
        redirect := SMap.set s.stk.redirect pp (ch * 196608 + repl), pages := SMap.put 0 s.stk.pages ch (pagesOf s ch + 1)
        withdrawn := SMap.put false s.stk.withdrawn (ch * 196608 + repl) true } }
      let s := rsetBit (reg .STK_ERR stack) 2 true (rcount (reg .STK_PAGES_RET stack) 32 1 (clearRows f s))
      let s := showReserve (rbits s (reg .MEM_RESERVE) 15 0 + 1) s.stk.gone.length s
      repairDone 2 stack pc f (eventX 0x0602 (stack / 2) stack (w64 (2 + pc * 2 ^ 8)) 1#64 [w64 page, w64 repl, 0#64, 0#64] s)
    | _, _ => s)

/-- A physical line lies in the window of stack memory that channel retirement i withdraws (R238). -/
def lineInWindow (s : State) (i l : Nat) : Bool :=
  let a := unplace s (l * 64)
  decide (reserveBase ≤ a + (i + 1) * chanBytes) && decide (a + i * chanBytes < reserveBase)

/-- Data in a withdrawn window is discarded (R238). -/
def dropWindow (i : Nat) (s : State) : State :=
  let keep := fun (l : Nat) => !lineInWindow s i l
  { s with stk := { s.stk with mem := s.stk.mem.filter (fun e => keep (e.1 / 64)), flips := s.stk.flips.filter (fun e => keep (e.1 / 72))
                               poison := s.stk.poison.filter (fun e => keep e.1), wcb := s.stk.wcb.filter (fun e => keep e.line) } }

/-- CHANNEL_RETIREMENT (R238): a row of the channel fails with its 64 reserve pages spent. The next window is withdrawn, and the granules
that the channel holds move to places that it frees; how many lines each stack reads and writes for that is left free (log 26). -/
def execChannelRetirement (stack pc : Nat) (s : State) : Out :=
  .next (
    let ch := stack * 64 + pc
    let f := fun (k : Nat) => keyChan k == ch
    let here := fun (q : Nat) => physChan q == ch
    if stack ≥ 8 || pc ≥ 64 || stackCritical s stack || stackLost s stack || !repairAllowed s 3 stack pc f ||
      !(s.stk.rows.any (fun r => r.failing && f r.row && repairKind s r.row == 3)) || committingAt s here then s
    else match freeSlot s with
    | none => s
    | some g =>
      let s := freeGroup g (openSlot g 1 0 true none s)
      let s := copyPlaces here (dropWindow s.stk.gone.length s)
      let (w, s) := takeFresh s
      let s := ((List.range 8).filter (fun n => !stackLost s n)).foldl (fun s n => countMove stack n (bits (w >>> (8 * n)) 7 0 * 65536) s) s
      let s := clearRows f { s with stk := { s.stk with gone := s.stk.gone ++ [ch] } }
      let s := rsetBit (reg .STK_PC_RET stack) pc true (rsetBit (reg .STK_ERR stack) 2 true s)
      let s := showReserve (rbits s (reg .MEM_RESERVE) 15 0) s.stk.gone.length s
      repairDone 3 stack pc f (event 0x0602 (stack / 2) stack (w64 (3 + pc * 2 ^ 8)) (w64 196608) s))

/-- MEM_REPAIR (R240, R391): the host approves or declines a proposal. -/
def execMemRepair (ring : Nat) (f : Frame) (s : State) : Out :=
  .next (serve ring 0x0304 f { ops := [maskBits 32 0] } (fun r s =>
    let n := bits f.w1 31 0
    if !assist s 8 then postFrame r stREFUSED_MODE 0 0#64 s
    else match s.cox.proposals.find? (fun p => p.num == n && p.kind != 4 && !p.decided) with
    | none => postFrame r stREFUSED_FORM 0 0#64 s
    | some _ =>
      if bit f.w1 32 then
        acceptCmd r 0#64 { s with cox := { s.cox with proposals := s.cox.proposals.map (fun p => if p.num = n then { p with decided := true, cmd := some r } else p) } }
      else postFrame r stOK 0 0#64 { s with cox := { s.cox with proposals := s.cox.proposals.filter (fun p => p.num != n) } }) s)

/-! ### Temperature (R241) -/

/-- The thermal step after a reading: entered at 85, 95, 105 °C, left 3 °C below. -/
def thermStep (cur : Nat) (t : Int) : Nat :=
  let entry := fun (k : Nat) => ((75 + 10 * k : Nat) : Int)
  let up := (List.range 4).foldl (fun m k => if k ≥ 1 && decide (t ≥ entry k) then k else m) 0
  let stay := (List.range 4).foldl (fun m k => if 1 ≤ k && k ≤ cur && decide (t > entry k - 3) then k else m) 0
  max up stay

/-- STACK_TEMP_SAMPLE (R241, R242): every 8 µs; the times at each step grow by it. -/
def execStackTempSample (stack : Nat) (temp : Int) (s : State) : Out :=
  .next (
    if stack ≥ 8 then s else
    let r := reg .STK_TEMP stack
    let cur := rbits s r 9 8
    let new := thermStep cur temp
    let s := if cur ≥ 1 then rcount (reg .STK_T_WARM stack) 48 8 s else s
    let s := if cur ≥ 2 then rcount (reg .STK_T_HOT stack) 48 8 s else s
    let s := if cur ≥ 3 then rcount (reg .STK_T_CRIT stack) 48 8 s else s
    let s := { s with stk := { s.stk with hot := SMap.put 0 s.stk.hot stack (if new ≥ 2 then SMap.get 0 s.stk.hot stack + 8 else 0) } }
    let s := rset r (w64 (ofSigned 8 temp + new * 2 ^ 8)) s
    if new = cur then s else
    let s := if new = 3 then rsetBit (reg .STK_ERR stack) 4 true s else s
    event 0x0604 (stack / 2) stack (w64 (cur + new * 2 ^ 8)) (w64 (ofSigned 16 temp)) s)

/-! ### Loss of a stack (R408, R409) -/

/-- A page of a group has a line in stack n, or redirected to it. -/
def pageInStack (s : State) (n : Nat) (e : Nat × Word) : Bool :=
  (List.range 16).any (fun i => let p := physOf s (backing s true (e.1 * 4096 + i * 256)); physStack p == n || serveStack s p == n)

/-- A group with dirty pages in stack n meets its loss (R216, R217): it aborts, but for a group whose flip has begun: that completes in the
surviving stacks and its completion reports the number of the lost pages. Whether the flip of a committing group has begun is not known. -/
def groupLoss (n g : Nat) (s : State) : State :=
  let lost := ((cgOf s g).pages.filter (pageInStack s n)).length
  if lost = 0 then s
  else if cgState s g = 1 && !groupWaits s g && bit (Config.freeWord s.fresh) 0 then flipGroup lost g { s with fresh := s.fresh + 1 }
  else abortGroup g 5 0 0 { s with fresh := s.fresh + 1 }

/-- Lose stack n: its reads are poisoned and its writes discarded from now on, its jobs end, groups with dirty pages there abort. -/
def loseStack (n : Nat) (s : State) : State :=
  if n ≥ 8 || stackLost s n then s else
  let s := (List.range 16).foldl (fun s g => groupLoss n g s) s
  let s := rsetBit (reg .ERR_DIE_LOST) (4 + n) true s
  let b := bdOf s n
  let s := setBd n { b with jobs := b.jobs.map (fun j => { j with lost := true }), eng := [], redo := [] } s
  event 0x0D02 (n / 2) n (w64 n) 0#64 s

/-- STACK_LOSS (R409). -/
def execStackLoss (stack : Nat) (s : State) : Out := .next (loseStack stack s)

end Sys2Proof.Machine
end

