-- ==== Sys2Proof/Machine/Group.lean ====
section
/-! DEFINITION. Commands of commit groups and shadowed regions (R210, R215, R390), the flip and the end of a restore. -/

namespace Sys2Proof.Machine
open Sys2Proof

/-- COMMIT_FLIP (R215): frozen work commits nothing (R369). -/
def execCommitFlip (g : Nat) (s : State) : Out := .next (if s.gate.frozen then s else commitFlip g s)

/-- A region is being restored. -/
def restoring (s : State) (r : Nat) : Bool := s.restores.any (fun x => x.r == r)

/-- CG_OPEN (R212, R390). -/
def execCgOpen (ring : Nat) (f : Frame) (s : State) : Out :=
  .next (serve ring 0x0210 f { ops := [maskBits 8 0 ||| maskBits 63 32] } (fun r s =>
    let n := bits f.w1 8 0
    let m := bits f.w1 63 32
    if n = 0 || n > 256 then postFrame r stREFUSED_FORM 0 0#64 s
    else if (List.range 32).any (fun i => m.testBit i && (!shrValid s i || restoring s i)) then postFrame r stREFUSED_ADDR 0 0#64 s
    else match freeSlot s with
    | none => postFrame r stQUEUE_FULL 0 0#64 s
    | some g => let s := openSlot g n m false (some r) s; acceptCmd r (w64 (cgId s g)) s) s)

/-- CG_ABORT (R216, R390). -/
def execCgAbort (ring : Nat) (f : Frame) (s : State) : Out :=
  .next (serve ring 0x0211 f { ops := [maskBits 15 0] } (fun r s =>
    let gid := bits f.w1 15 0
    let st := cgStat s gid
    if st ≠ 0 || (cgOf s (gid % 16)).internal then postFrame r stREFUSED_STATE st 0#64 s
    else postFrame r stOK 0 0#64 (abortGroup (gid % 16) 3 0 0 s)) s)

/-- CG_FREE (R213, R390). -/
def execCgFree (ring : Nat) (f : Frame) (s : State) : Out :=
  .next (serve ring 0x0212 f { ops := [maskBits 15 0] } (fun r s =>
    let gid := bits f.w1 15 0
    let st := cgStat s gid
    let c := cgOf s (gid % 16)
    if st = 2 || (st = 3 && c.running.isEmpty && c.jobs = 0) then postFrame r stOK 0 0#64 (freeGroup (gid % 16) s)
    else postFrame r stREFUSED_STATE st 0#64 s) s)

/-- Ranges overlap. -/
def rangesMeet (a n b m : Nat) : Bool := decide (a < b + m) && decide (b < a + n)

/-- Pages that region i holds, or will hold once its redefinition is done (R210). -/
def shrClaim (s : State) (i : Nat) : Nat :=
  max (if shrValid s i then shrPages s i else 0) (((s.restores.find? (fun x => x.r == i && !x.clear)).map (·.pages)).getD 0)

/-- A declaration of region r is allowed where it stands, the redefinitions that wait for a restore counted in (R210, R390). -/
def shrPlaceOk (s : State) (r vis twin pages : Nat) : Bool :=
  let n := pages * 4096
  vis % 4096 == 0 && twin % 4096 == 0 && decide (vis + n ≤ stackTop) && decide (twin + n ≤ stackTop) && !rangesMeet vis n twin n &&
  (List.range 32).all (fun i => i == r || !shrValid s i ||
    (let m := shrPages s i * 4096
     [vis, twin].all (fun a => !rangesMeet a n (shrBase s i) m && !rangesMeet a n (shrTwin s i) m))) &&
  s.restores.all (fun x => x.r == r || x.clear || [vis, twin].all (fun a => !rangesMeet a n x.base (x.pages * 4096) && !rangesMeet a n x.twin (x.pages * 4096))) &&
  decide (pages + sumNat ((List.range 32).map (fun i => if i = r then 0 else shrClaim s i)) ≤ 2 ^ 24)

/-- The state of a group that names region r, where one does (R210, R390). -/
def groupNames (s : State) (r : Nat) : Option Nat :=
  ((List.range 16).find? (fun g => cgState s g != 4 && (cgOf s g).regions.testBit r)).map (cgState s)

/-- Declare a region (R210): every visible page is current. -/
def declareRegion (r vis twin pages : Nat) (s : State) : State :=
  rset (reg .SHR_SIZE r) (w64 pages) (rset (reg .SHR_TWIN r) (w64 twin) (rset (reg .SHR_BASE r) (w64 (vis + 1)) s))

/-- Remove a region. -/
def removeRegion (r : Nat) (s : State) : State := rset (reg .SHR_SIZE r) 0#64 (rset (reg .SHR_TWIN r) 0#64 (rset (reg .SHR_BASE r) 0#64 s))

/-- SHR_SET (R210, R390). -/
def execShrSet (ring : Nat) (f : Frame) (s : State) : Out :=
  .next (serve ring 0x0213 f { ops := [maskBits 4 0, maskAll, maskAll, maskBits 31 0] } (fun c s =>
    let r := bits f.w1 4 0
    let pages := bits f.w4 31 0
    if pages = 0 || !shrPlaceOk s r f.w2.toNat f.w3.toNat pages then postFrame c stREFUSED_ADDR 0 0#64 s
    else if (groupNames s r).isSome then postFrame c stREFUSED_STATE ((groupNames s r).getD 0) 0#64 s
    else if restoring s r then postFrame c stREFUSED_STATE 0 0#64 s
    else if shrValid s r then
      acceptCmd c 0#64 { s with restores := s.restores ++ [{ r := r, cmd := c, clear := false, base := f.w2.toNat, twin := f.w3.toNat, pages := pages }] }
    else postFrame c stOK 0 0#64 (declareRegion r f.w2.toNat f.w3.toNat pages s)) s)

/-- SHR_CLEAR (R210, R390). -/
def execShrClear (ring : Nat) (f : Frame) (s : State) : Out :=
  .next (serve ring 0x0214 f { ops := [maskBits 4 0] } (fun c s =>
    let r := bits f.w1 4 0
    if (groupNames s r).isSome then postFrame c stREFUSED_STATE ((groupNames s r).getD 0) 0#64 s
    else if restoring s r then postFrame c stREFUSED_STATE 0 0#64 s
    else if shrValid s r then acceptCmd c 0#64 { s with restores := s.restores ++ [{ r := r, cmd := c, clear := true }] }
    else postFrame c stOK 0 0#64 s) s)

/-- Copy a page whose twin is current into the visible page, which becomes current (R210). -/
def restorePage (page : Nat) (s : State) : State :=
  if !SMap.get false s.shadow page then s else
  let s := (List.range 64).foldl (fun s i => copyLine 1 4 (page * 4096 + i * 64) s) s
  { s with shadow := SMap.put false s.shadow page false }

/-- REGION_RESTORE_COMPLETE (R210, R390). -/
def execRegionRestoreComplete (r : Nat) (s : State) : Out :=
  .next (
    match s.restores.find? (fun x => x.r == r) with
    | none => s
    | some x =>
      let ps := (s.shadow.map (·.1)).filter (fun p => decide (shrBase s r ≤ p * 4096) && decide (p * 4096 < shrBase s r + shrPages s r * 4096))
      if s.gate.frozen || ps.any (fun p => stkWaits s (p * 4096) 4096 || (List.range 16).any (fun i => placeCritical s (physOf s (p * 4096 + i * 256)))) then s else
      let s := ps.foldl (fun s p => restorePage p s) s
      let s := { s with restores := s.restores.filter (fun y => y.r != r) }
      let s := if x.clear then removeRegion r s else declareRegion r x.base x.twin x.pages (removeRegion r s)
      finishCmd x.cmd stOK 0 0#64 s)

end Sys2Proof.Machine
end

