-- ==== Sys2Proof/Machine/Window.lean ====
section
/-! DEFINITION. Tile SRAM windows and the spare map (R24 to R32, R42 to R44, R87). -/

namespace Sys2Proof.Machine
open Sys2Proof

/-! ### The scrubber (R26) -/

/-- Errors that the stores of a tile hold, by offset and kind, join the ones its words hold already (R24). -/
def strike (t top : Nat) (errs : List (Nat × Nat)) (s : State) : State :=
  if t ≥ numTiles || tileState s t = 4 then s else
  modTile t (fun x => { x with soft := errs.foldl (fun m e => if e.1 < top && e.2 ≠ 0 then SMap.put 0 m (e.1 / 8) e.2 else m) x.soft }) s

/-- SCRUB_PERIOD (R26): `errs` lists words of the weight and data stores that have come to hold an error; the scrubber meets every word in error. -/
def execScrubPeriod (t : Nat) (errs : List (Nat × Nat)) (s : State) : Out :=
  .next (if t ≥ numTiles || tileState s t = 4 then s else meetWords t 0 0xC0000 (strike t 0xC0000 errs s))

/-! ### Window accesses (R42 to R44) -/

/-- Where a requester's packets enter the mesh: the PCIe endpoint's port, the cox's (R40, R454); none for one whose place no rule gives. -/
def reqPos (s : State) (req : Req) (addr : Nat) : Option Pos :=
  match req with
  | .host => some (endpointPos s addr)
  | .cox => some (coxPos s)
  | _ => none

/-- A requester's packet to tile t and the response (R44, R454). -/
def reqTrip (req : Req) (addr t n m : Nat) (s : State) : Bool × State :=
  match reqPos s req addr with
  | some p => tileTrip p (physPos s t) false n m s
  | none => (false, s)

/-- A window write (R42, R43): whether it was applied. -/
def winWrite (req : Req) (t off : Nat) (d : PBytes) (s : State) : Bool × State :=
  let a := winBase + t * 0x100000 + off
  if t ≥ numTiles || tileState s t = 4 || off + d.length > winTop then (false, recUnmapped req a true s)
  else if (wordsOf off d.length).all (fun w => winWritable (tileOf s t) (max w off)) then
    let r := reqTrip req a t d.length 0 s
    (true, winPoke t off (poisonFlit r.1 d) r.2)
  else (false, recDiscarded req a t (reqTrip req a t d.length 0 s).2)

/-- A window read (R42): the data, poisoned where marked. -/
def winRead (req : Req) (t off n : Nat) (s : State) : PBytes × State :=
  if t ≥ numTiles || tileState s t = 4 || off + n > winTop then
    (cleanBytes (List.replicate n 0#8), recUnmapped req (winBase + t * 0x100000 + off) false s)
  else
    let r := reqTrip req (winBase + t * 0x100000 + off) t 0 n s
    (poisonFlit r.1 ((tileOf r.2 t).read off n), meetWords t off n r.2)

/-- Data of a write, poisoned as a whole where it arrived so (R25, R429). -/
def markBytes (ep : Bool) (bs : List Byte) : PBytes := bs.map (fun b => (b, ep))

/-- Deliver a read completion. -/
def deliver (d : PBytes) (s : State) : State := { s with ports := { s.ports with rdata := rawBytes d, rpoison := anyPoison d } }

/-- Accesses to a tile in MAP_HOLD wait (R30, R31). -/
def holdAccess (t : Nat) (h : HeldAcc) (s : State) : State := modTile t (fun x => { x with held := x.held ++ [h] }) s

/-- The naturally aligned pieces of at most 64 bytes of a range, each with its start and length (R44); `fuel` is at least the length. -/
def alignedPieces : Nat → Nat → Nat → List (Nat × Nat)
  | 0, _, _ => []
  | fuel + 1, off, n =>
    if n = 0 then [] else
    let k := min n (64 - off % 64)
    (off, k) :: alignedPieces fuel (off + k) (n - k)

/-- The packets of a window access: the PCIe endpoint splits a larger request (R44); what another agent sends is one access. -/
def windowPackets (req : Req) (off n : Nat) : List (Nat × Nat) := if req = .host then alignedPieces n off n else [(off, n)]

/-- One packet of a write that reaches tile t: it waits for MAP_HOLD to end, is applied, or is discarded and recorded (R31, R42). -/
def packetWrite (req : Req) (t off : Nat) (data : List Byte) (ep : Bool) (s : State) : State :=
  if t < numTiles && tileState s t = 2 then holdAccess t { req := req, off := off, len := data.length, write := true, data := data, ep := ep } s
  else (winWrite req t off (markBytes ep data) s).2

/-- The packets of a read of tile t's window, in order (R42, R44). -/
def packetReads (req : Req) (t off n : Nat) (s : State) : PBytes × State :=
  (windowPackets req off n).foldl (fun r p => let q := winRead req t p.1 p.2 r.2; (r.1 ++ q.1, q.2)) ([], s)

/-- WINDOW_READ (R42): `errs` lists words that have come to hold an error; the read meets those of its range. -/
def execWindowRead (req : Req) (t off len : Nat) (errs : List (Nat × Nat)) (s : State) : Out :=
  .next (
    if t < numTiles && tileState s t = 2 && off < 0x100000 then holdAccess t { req := req, off := off, len := len, write := false, data := [] } s
    else
      let (d, s) := packetReads req t off len (strike t winTop errs s)
      deliver d s)

/-- WINDOW_WRITE (R42, R44). -/
def execWindowWrite (req : Req) (t off : Nat) (data : List Byte) (ep : Bool) (s : State) : Out :=
  .next ((windowPackets req off data.length).foldl (fun s p =>
    let d := (data.drop (p.1 - off)).take p.2
    if p.1 < 0x100000 then packetWrite req t p.1 d ep s else (winWrite req t p.1 (markBytes ep d) s).2) s)

/-- A write of TILE_SEQ_CODE (R87). -/
def writeSeqCode (req : Req) (t : Nat) (v : Word) (s : State) : State :=
  if bits v 5 0 + bits v 11 8 + 1 ≤ 64 then plainWrite .TILE_SEQ_CODE t 0 v s
  else recRegRefused req (reg .TILE_SEQ_CODE t).off v s

/-- A 64-bit register write that waits for MAP_HOLD to end (R31): offsets from 0x10_0000 on stand for the tile's register block. -/
def heldWrite (req : Req) (o : Nat) (v : Word) : HeldAcc := { req := req, off := 0x100000 + o, len := 8, write := true, data := leBytes 8 v.toNat }

/-- TILE_SEQ_CODE_WRITE (R87); a tile in MAP_HOLD answers after the hold (R31). -/
def execTileSeqCodeWrite (req : Req) (t : Nat) (v : Word) (s : State) : Out :=
  .next (if t ≥ numTiles then s else if tileState s t = 2 then holdAccess t (heldWrite req 0x100 v) s else writeSeqCode req t v s)

/-! ### Map moves (R30, R404, R407) -/

/-- The registers of a taint log and its bits, as an ERRLOG copy: 64 entries after the head entry (R404, R411). -/
def taintCopy (t : Nat) (s : State) : Nat × State :=
  let idx := rbits s (reg .ERR_HEAD) 17 0
  let head := [BitVec.ofNat 64 (0x0E02 + 2 * 2 ^ 16 + dieOfTile t * 2 ^ 24 + t * 2 ^ 32), coxEpoch s, 0#64, 0#64,
    rget s (reg .TILE_TAINT_FLAGS t), rget s (reg .TILE_TAINT_LO t), rget s (reg .TILE_TAINT_HI t), 0#64]
  let words := (List.range 64).map (fun w => rget s (reg .TILE_TAINT t w))
  let s := errWrite head s
  (idx, words.foldl (fun s w => errWrite [w, 0#64, 0#64, 0#64, 0#64, 0#64, 0#64, 0#64] s) s)

/-- Clear a taint log (R404). -/
def taintClear (t : Nat) (s : State) : State :=
  let s := rset (reg .TILE_TAINT_FLAGS t) 0#64 (rset (reg .TILE_TAINT_LO t) 0xFFFFFFFFFFFF#64 (rset (reg .TILE_TAINT_HI t) 0#64 s))
  (List.range 64).foldl (fun s w => rset (reg .TILE_TAINT t w) 0#64 s) s

/-- Physical distance of two positions. -/
def physDist (a b : Nat × Nat) : Nat := (a.1 - b.1) + (b.1 - a.1) + ((a.2 - b.2) + (b.2 - a.2))

/-- A spare is the nearest usable one to tile t (R407). -/
def nearestSpare (s : State) (t : Nat) (p : Nat × Nat) : Bool :=
  (usableSpares s (dieOfTile t)).contains p &&
  (usableSpares s (dieOfTile t)).all (fun q => decide (physDist (physPos s t) p ≤ physDist (physPos s t) q))

/-- A tile is quiet: nothing runs, its deque is empty, no group is open (R30, R406). -/
def quiet (s : State) (t : Nat) : Bool :=
  let x := tileOf s t
  x.seq == .idle && x.dq.isEmpty && x.groups.isEmpty && x.drained && x.steal.answer.isNone

/-- The approved or decided retirement of a tile. -/
def retirement (s : State) (t : Nat) : Option Proposal := s.cox.proposals.find? (fun p => p.kind == 4 && p.a == t && p.decided)

/-- What a SPARE_TILE asked for: the command and the position, none where the cox picks. -/
def spareAsked (s : State) (t : Nat) : Bool := s.cox.moveCmd.any (fun e => e.1 == t)

/-- The tile's own scan, scheduled before its retirement, is still to come or under way (R401). -/
def ownScanDue (s : State) (t : Nat) : Bool :=
  match retirement s t with
  | some p => p.b == 1 && (tileOf s t).scan != 0 && (tileOf s t).scan != 4
  | none => false

/-- A spare passed its scan in the current or the last sweep (R407). -/
def spareFresh (s : State) (p : Nat × Nat) : Bool :=
  let n := SMap.get 0 s.cox.spareSwept (posKey p.1 p.2)
  n != 0 && decide (rbits s (reg .ERR_SCAN_POS) 47 16 ≤ n)

/-- A retirement waits for a spare that is to be scanned first (R407). -/
def spareWanted (s : State) (p : Nat × Nat) : Bool :=
  !spareFresh s p && s.cox.proposals.any (fun q => q.kind == 4 && q.decided && nearestSpare s q.a p)

/-- MAP_MOVE (R30 steps 1 to 5): the quiet tile's stores are copied to the spare and every router is given the new coordinates. A
move whose old stores cannot be read reports its contents lost. -/
def execMapMove (t px py : Nat) (readable : Bool) (s : State) : Out :=
  .next (
    let fits := if spareAsked s t then
        (match s.cox.movePos.find? (fun e => e.1 == t) with
         | some e => decide ((px, py) = e.2) && (usableSpares s (dieOfTile t)).contains (px, py)
         | none => nearestSpare s t (px, py))
      else nearestSpare s t (px, py) && spareFresh s (px, py)
    if t ≥ numTiles || ownScanDue s t || !(spareAsked s t || (retirement s t).isSome) || tileState s t = 2 || tileState s t = 4 || (tileState s t = 3 && (tileOf s t).scan ≠ 4) || !quiet s t || !fits then s
    else
      let old := physPos s t
      let s := (taintCopy t s).2
      let s := taintClear t s
      let keep := fun (o : Nat) => readable && decide (o < 0xC0000)
      let s := finishOpt (tileOf s t).scanCmd stABORTED 0 0#64 s
      let s := modTile t (fun x => { x with
        mem := x.mem.filter (fun e => keep e.1), poison := x.poison.filter (fun e => keep (e.1 * 8)), soft := x.soft.filter (fun e => e.2 != 1 && keep (e.1 * 8)),
        dqFar := 0, dqMem := [], pre := [], v := [], vpois := [], m := [], cache := [], scan := 0, scanCmd := none }) s
      let n := rbits s (reg .TILE_MAP t) 63 32
      let s := rset (reg .TILE_MAP t) (w64 (px + py * 2 ^ 8 + (if (px, py) = factoryPos t then 0 else 2 ^ 16) + ((n + 1) % 2 ^ 32) * 2 ^ 32)) s
      let s := { s with retired := SMap.put false s.retired (posKey old.1 old.2) true }
      let s := setTileState t 2 s
      let s := if readable then s else recOther .cox 30 (w64 t) s
      event 0x0405 (dieOfTile t) t (w64 (old.1 + old.2 * 2 ^ 8)) (w64 (px + py * 2 ^ 8)) s)

/-- Tiles at positions that the pass-through routers cut off (R32). -/
def cutTiles (s : State) : List Nat :=
  if s.passThrough.length ≤ 1 then [] else (List.range numTiles).filter (fun t => tileState s t != 4 && cutOff s (physPos s t))

/-- A router stops making turns and serving its tile, which is retired (R32). -/
def passRouter (p : Pos) (s : State) : State :=
  let s := { s with passThrough := SMap.put false s.passThrough (posKey p.1 p.2) true }
  match tileAt s p with
  | some t => retireTile t 4 s
  | none => s

/-- ROUTER_CHECK_FAILURE (R32): the router goes into pass-through and its tile is retired, and so is every tile at a position that is now cut off. -/
def execRouterCheckFailure (px py : Nat) (s : State) : Out :=
  .next (
    if px ≥ 48 || py ≥ 26 then s else
    (cutTiles (passRouter (px, py) s)).foldl (fun s t => retireTile t 4 s) (passRouter (px, py) s))

end Sys2Proof.Machine
end

