-- ==== Sys2Proof/Machine/Wire.lean ====
section
/-! DEFINITION. Flits on the wire (R280, R281): the 272 bytes of a flit and its CRC. -/

namespace Sys2Proof.Machine
open Sys2Proof

/-- CRC-32C of bytes (R281): polynomial 0x1EDC6F41 with input and output reflected, so its reflection 0x82F63B78 shifts right. -/
def crc32c (bs : List Byte) : BitVec 32 :=
  let step := fun (c : BitVec 32) (_ : Nat) => if c.getLsbD 0 then (c >>> 1) ^^^ 0x82F63B78#32 else c >>> 1
  ~~~(bs.foldl (fun c b => (List.range 8).foldl step (c ^^^ b.setWidth 32)) 0xFFFFFFFF#32)

/-- Bytes 0 to 7 of a flit (R280); a virtual channel and the last flit of a packet are marked for DATA, sequence 0 for IDLE. -/
def flitHead (kind : Nat) (f : Flit) : Nat :=
  kind % 16 + (if kind = 1 then (f.vc % 8) * 2 ^ 4 + b2n f.last * 2 ^ 7 else 0) + (if kind = 0 then 0 else (f.seq % 4096) * 2 ^ 8) +
  (f.ack % 4096) * 2 ^ 20 + b2n f.ackValid * 2 ^ 32 +
  (if kind = 1 || kind = 2 then (f.dst % 4096) * 2 ^ 36 + (f.src % 4096) * 2 ^ 48 else 0)

/-- Bytes 8 to 11: credit slots A and B (R280, R286). -/
def flitCredits (f : Flit) : Nat :=
  f.credA.1 % 8 + (f.credA.2 % 4096) * 2 ^ 3 + (f.credB.1 % 8) * 2 ^ 15 + (f.credB.2 % 4096) * 2 ^ 18

/-- The body of a flit, 256 bytes. -/
def flitBody (f : Flit) : List Byte := (List.range 256).map (fun i => nth 0#8 f.body i)

/-- Bytes 0 to 267 of a flit, which its CRC covers (R280). -/
def flitImage (kind : Nat) (f : Flit) : List Byte := leBytes 8 (flitHead kind f) ++ leBytes 4 (flitCredits f) ++ flitBody f

/-- A received flit of a type passes its CRC (R281). -/
def flitOk (kind : Nat) (f : Flit) : Bool := crc32c (flitImage kind f) == f.crc

/-- A flit with the CRC that its sender gives it. -/
def Flit.sealed (kind : Nat) (f : Flit) : Flit := { f with crc := crc32c (flitImage kind f) }

/-- Received bytes fail as a flit (R281): their CRC does not match, or their type is reserved. -/
def rawReserved (raw : List Byte) : Bool := decide (6 ≤ (nth 0#8 raw 0).toNat % 16)
def rawFails (raw : List Byte) : Bool :=
  leNat ((List.range 4).map (fun i => nth 0#8 raw (268 + i))) != (crc32c ((List.range 268).map (fun i => nth 0#8 raw i))).toNat || rawReserved raw

/-- The bytes that a flit carries, each with its poison: of a packet, 256 (R288). -/
def TxFlit.part (f : TxFlit) : List (Byte × Bool) := if f.kind = 1 then (f.bytes.drop (256 * f.idx)).take 256 else f.bytes

/-- A flit as this device sends it: of a packet, the 256 bytes that are its own (R288). -/
def TxFlit.flit (f : TxFlit) : Flit :=
  { vc := f.vc, last := f.last, seq := f.seq, ack := f.ack, ackValid := f.ackValid, dst := f.dst, src := f.src, credA := f.credA, credB := f.credB
    body := f.part.map (·.1), pois := f.part.map (·.2) }

/-- The 272 bytes of a flit that this device sends, the CRC last, little-endian (R280, R281). -/
def TxFlit.wire (f : TxFlit) : List Byte :=
  let i := flitImage f.kind f.flit
  i ++ leBytes 4 (crc32c i).toNat

end Sys2Proof.Machine
end

