-- ==== Sys2Proof/Machine/Route.lean ====
section
/-! DEFINITION. The fabric's geometry and routes (R278, R279, R289, R292, R295, R298), flits waiting and sent (R282, R286 to R288). -/

namespace Sys2Proof.Machine
open Sys2Proof

/-! ### Coordinates and bonds -/

def linkOf (s : State) (l : Nat) : Link := SMap.get {} s.fab.links l
def setLink (l : Nat) (k : Link) (s : State) : State := { s with fab := { s.fab with links := SMap.put {} s.fab.links l k } }

/-- This device's id, its coordinate and the group size in dimension d (R301). -/
def ownId (s : State) : Nat := rbits s (reg .FAB_COORD) 23 12
def ownCoord (s : State) (d : Nat) : Nat := rbits s (reg .FAB_COORD) (4 * d + 3) (4 * d)
def groupSize (s : State) (d : Nat) : Nat := rbits s (reg .FAB_COORD) (4 * d + 27) (4 * d + 24) + 1

/-- Coordinate d of a device id (R278). -/
def coordOf (id d : Nat) : Nat := (id / 16 ^ d) % 16

/-- A device id with coordinate d replaced. -/
def withCoord (id d c : Nat) : Nat := id - coordOf id d * 16 ^ d + c * 16 ^ d

/-- Offsets of the extra ports: the list D, without n ÷ 2 or with it first, then ±1, ±2, … (R279). -/
def extraOffsets (n r : Nat) : List Nat :=
  let pm := (List.range n).flatMap (fun k => [k + 1, n - (k + 1)])
  if r % 2 = 1 then ((n / 2) :: pm).take r else pm.take r

/-- Extra ports r′ (R279). -/
def extraCount (n : Nat) : Nat := let p := n - 1; if n % 2 = 0 then 15 % p else 15 % p - 1

/-- Offset served by port j in a dimension of size n; none where the rule assigns none (R279). -/
def portOffset (n j : Nat) : Option Nat :=
  if n < 2 || j ≥ 15 then none else
  let p := n - 1
  let b := 15 / p
  if j < p * b then some (1 + j % p)
  else if j - p * b < extraCount n then (extraOffsets n (extraCount n))[j - p * b]? else none

/-- The peer's port that port j is cabled to (R279). -/
def peerPort (n j : Nat) : Nat :=
  let p := n - 1
  let b := 15 / p
  if j < p * b then p * (j / p) + (n - 1 - (1 + j % p))
  else
    let ds := extraOffsets n (extraCount n)
    p * b + findIdx (fun d => d == (n - nth 0 ds (j - p * b)) % n) ds

/-- The ports of R279 in a dimension, as a mask. -/
def portMask (n : Nat) : Nat := sumNat ((List.range 15).map (fun j => if (portOffset n j).isSome then 2 ^ j else 0))

/-- State of a link (R300): 0 DISABLED, 1 TRAINING, 2 CHECKING, 3 UP, 4 DEGRADING, 5 FAILED, 6 SOAK, 7 MISCABLED. -/
def lnkState (s : State) (l : Nat) : Nat := rbits s (reg .LNK_STAT l) 2 0

/-- The port role a link serves: its own, or the one that the spare holds; none for a port whose role has moved (R299). -/
def roleOf (s : State) (l : Nat) : Option Nat :=
  let d := l / 16
  let sp := rget s (reg .LNK_CTL (d * 16 + 15))
  if l % 16 = 15 then (if bit sp 2 then some (bits sp 7 4) else none)
  else if bit sp 2 && bits sp 7 4 == l % 16 then none else some (l % 16)

/-- The link that serves role j of dimension d. -/
def linkOfRole (s : State) (d j : Nat) : Nat :=
  let sp := rget s (reg .LNK_CTL (d * 16 + 15))
  if bit sp 2 && bits sp 7 4 == j then d * 16 + 15 else d * 16 + j

/-- Live roles of the bond to coordinate c, in increasing order (R292). -/
def liveBond (s : State) (d c : Nat) : List Nat :=
  let n := groupSize s d
  (List.range 15).filter (fun j => portOffset n j == some ((c + n - ownCoord s d) % n) && lnkState s (linkOfRole s d j) == 3)

/-- The detour coordinate that hardware chooses (R295). -/
def detourTo (s : State) (d c : Nat) : Option Nat :=
  let n := groupSize s d
  ((List.range (n - 1)).map (fun i => (ownCoord s d + i + 1) % n)).find? (fun k =>
    k != c && !(liveBond s d k).isEmpty && !SMap.get false s.fab.down (d * 256 + k * 16 + c))

/-- Rebuild FAB_ROUTE (R296, R301): live ports always; detours by hardware or left to the host (R298). -/
def rebuildRoutes (s : State) : State :=
  (List.range 48).foldl (fun s r =>
    let d := r / 16
    let c := r % 16
    let reg_ := reg .FAB_ROUTE r
    if c ≥ groupSize s d || c = ownCoord s d || groupSize s d < 2 then rset reg_ 0#64 s else
    let live := sumNat ((liveBond s d c).map (fun j => 2 ^ j))
    if assist s 9 then rsetBits reg_ 14 0 live s
    else if live ≠ 0 then rset reg_ (w64 live) s
    else match detourTo s d c with
      | some k => rset reg_ (w64 (k * 2 ^ 16 + 2 ^ 20)) s
      | none =>
        let was := bit (rget s reg_) 21
        let s := rset reg_ (w64 (2 ^ 21)) s
        if was then s else event 0x0703 0xFF 0 (w64 (d + c * 2 ^ 8)) 0#64 s) s

/-- Where a packet goes next. -/
inductive Hop where
  /-- This device. -/
  | here
  /-- Out of link l; second hop of a detour; first hop of one. -/
  | out (l : Nat) (second first : Bool)
  /-- No route (R295). -/
  | none
  deriving DecidableEq, Repr

/-- The next hop in dimension order (R292, R295); `via` is the dimension the packet arrived in, where it is in transit. -/
def nextHop (s : State) (via : Option Nat) (src dst tag : Nat) : Hop :=
  match (List.range 3).find? (fun d => coordOf dst d != ownCoord s d) with
  | none => .here
  | some d =>
    let h := (src + 3 * dst + 5 * tag) % 65536
    let c := coordOf dst d
    let pick := fun (js : List Nat) => linkOfRole s d (nth 0 js (h % js.length))
    let live := liveBond s d c
    if !live.isEmpty then .out (pick live) (via == some d) false
    else if via = some d then .none
    else
      let r := rget s (reg .FAB_ROUTE (d * 16 + c))
      let k := bits r 19 16
      if bit r 20 && !(liveBond s d k).isEmpty then .out (pick (liveBond s d k)) false true else .none

/-! ### Sending (R282, R286, R287) -/

/-- Receive buffer of a virtual channel in flits (R285). -/
def vcBuffer (v : Nat) : Nat := match v with | 0 => 16 | 1 => 128 | 2 => 128 | 3 => 384 | _ => 32

/-- A flit may leave now: a DATA flit needs credit and a link that carries DATA (R286, R297). -/
def flitReady (s : State) (l : Nat) (k : Link) (f : TxFlit) : Bool :=
  if f.kind = 1 then
    lnkState s l == 3 && decide ((SMap.get 0 k.sentCr f.vc + 4096 - SMap.get 0 k.rcvdCr f.vc % 4096) % 4096 < vcBuffer f.vc)
  else true

/-- The class of a waiting flit in the order of R287 (less is sooner); COL, RSP and REQ go round from the favoured channel. -/
def flitRank (k : Link) (f : TxFlit) : Nat :=
  match f.kind with
  | 4 => 0
  | 2 => 1
  | 5 => 2
  | 1 => if f.vc ≥ 4 then 3 else if f.vc = 0 then 4 else 5 + (k.rr + 3 - f.vc) % 3
  | _ => 9

/-- Index of the flit that leaves next: the first of its channel, ready, of the least rank. -/
def pickFlit (s : State) (l : Nat) (k : Link) : Option Nat :=
  let firsts := (List.range k.waitQ.length).filter (fun i =>
    let f := nth { kind := 0 } k.waitQ i
    flitReady s l k f && !((k.waitQ.take i).any (fun g => g.kind == f.kind && g.vc == f.vc)))
  let rank := fun (i : Nat) => flitRank k (nth { kind := 0 } k.waitQ i)
  firsts.find? (fun i => firsts.all (fun j => decide (rank i ≤ rank j)))

/-- The next channel of the packet-wise round robin: COL, RSP, REQ. -/
def nextRr (v : Nat) : Nat := if v = 3 then 2 else if v = 2 then 1 else 3

/-- The favoured channel after a flit: a packet keeps its turn until its last flit (R287). -/
def rrAfter (k : Link) (f : TxFlit) : Nat :=
  if f.kind = 1 && decide (1 ≤ f.vc) && decide (f.vc ≤ 3) then (if f.last then nextRr f.vc else f.vc) else k.rr

/-- A flit as it goes out now (R280, R283, R286): it carries the last sequence accepted in order, and the freed counts of two VCs in their
turn. A NAK names that sequence though none was accepted. -/
def stampFlit (k : Link) (seq : Nat) (f : TxFlit) : TxFlit :=
  let cr := fun (v : Nat) => (v, SMap.get 0 k.freedCr v)
  { f with seq := seq, org := none, ack := k.rxLast, ackValid := k.rxAny || f.kind == 4, credA := cr (2 * k.credTurn), credB := cr (2 * k.credTurn + 1) }

/-- What a sent flit settles at its port: the acknowledgement that was due, the turn of the credit slots. -/
def sentFlit (f : TxFlit) (k : Link) : Link := { k with wire := some f, ackDue := false, credTurn := (k.credTurn + 1) % 4 }

/-- Free the buffer flits of a packet (R286); link 48 is this device itself. -/
def freeCredits (l v n : Nat) (s : State) : State :=
  if l ≥ 48 then s else
  let k := linkOf s l
  setLink l { k with freedCr := SMap.put 0 k.freedCr v ((SMap.get 0 k.freedCr v + n) % 4096) } s

/-- A flit leaves the receive buffer that it still fills: a VC's, or, with its last copy, the PACE buffer (R286, R287). -/
def freeOrg (f : TxFlit) (s : State) : State :=
  match f.org with
  | some (m, v) =>
    if v < 8 then freeCredits m v 1 s
    else let q := linkOf s m; setLink m { q with paceBuf := SMap.put 0 q.paceBuf (v - 8) (SMap.get 0 q.paceBuf (v - 8) - 1) } s
  | none => s

/-- Send what may leave, at most n flits (R282, R287). Sent flits stand in the retry buffer. A failed port still acknowledges, but sends no
DATA (R294). -/
def pump (l : Nat) : Nat → State → State
  | 0, s => s
  | n + 1, s =>
    let k := linkOf s l
    if !outputsOn s || !bit (rget s (reg .GATE_LINK_MASK)) l || k.retry.length ≥ 512 || !([2, 3, 4, 5, 6, 7].contains (lnkState s l)) then s else
    match pickFlit s l k with
    | none => s
    | some i =>
      let f := nth { kind := 0 } k.waitQ i
      let g := stampFlit k k.txSeq f
      let k := { sentFlit g k with
        waitQ := dropNth k.waitQ i, txSeq := (k.txSeq + 1) % 4096, retry := k.retry ++ [g]
        sentCr := if f.kind = 1 then SMap.put 0 k.sentCr f.vc ((SMap.get 0 k.sentCr f.vc + 1) % 4096) else k.sentCr
        rr := rrAfter k f }
      let s := rcount (reg .LNK_TX_FLITS l) 48 1 (setLink l k s)
      let s := if f.kind = 1 then rcount (reg .PMC_LNK_VC (l * 8 + f.vc % 8)) 64 1 s else s
      pump l n (freeOrg f s)

/-- Queue flits on a link and send what may leave. -/
def pushFlits (l : Nat) (fs : List TxFlit) (s : State) : State :=
  let k := linkOf s l
  pump l (k.waitQ.length + fs.length) (setLink l { k with waitQ := k.waitQ ++ fs } s)

/-! ### Packets (R288) -/

/-- Word 0 of a packet header. -/
def pktWord (kind : Nat) (ack last : Bool) (status len tag : Nat) : Word :=
  w64 (kind + b2n last * 2 ^ 8 + b2n ack * 2 ^ 9 + status * 2 ^ 12 + ((len - 1) % 4096) * 2 ^ 16 + (tag % 65536) * 2 ^ 28)

/-- Bytes of a packet: header, then data. -/
def pktBytes (w0 w1 : Word) (d : PBytes) : PBytes := cleanBytes (leBytes 8 w0.toNat ++ leBytes 8 w1.toNat) ++ d

/-- The DATA flits of a packet: each carries the whole packet and its place in it. -/
def pktFlits (vc dst src : Nat) (bs : PBytes) (org : Option (Nat × Nat)) : List TxFlit :=
  let n := ceilDiv bs.length 256
  (List.range n).map (fun i => { kind := 1, vc := vc, dst := dst, src := src, bytes := bs, idx := i, last := i + 1 == n, org := org })

/-- The VC of a packet kind (R285): LSN and NOROUTE on CTL, PUT on REQ, PUT_ACK on RSP, COL on COL. -/
def kindVc (kind : Nat) : Nat := match kind with | 0x01 => 1 | 0x02 => 2 | 0x10 => 3 | _ => 0

/-- Words 0 and 1 of a packet. -/
def pktHead (bs : PBytes) (i : Nat) : Word := leWord (rawBytes ((bs.drop (8 * i)).take 8))
def pktKind (bs : PBytes) : Nat := bits (pktHead bs 0) 7 0
def pktTag (bs : PBytes) : Nat := bits (pktHead bs 0) 43 28

/-- A packet as it is received (R288). -/
def rxPkt (link vc flits src : Nat) (bs : PBytes) : RxPkt :=
  { link := link, vc := vc, flits := flits, src := src, w0 := pktHead bs 0, w1 := pktHead bs 1, data := bs.drop 16 }

/-- The mesh channel of a link class (R293). -/
def vcChan (v : Nat) : Chan := match v % 4 with | 0 => .ctl | 1 => .req | _ => .rsp

/-- The flits of a packet cross the mesh from the port they came in by to the one they leave by, each as one mesh packet on the channel of
its class; on a -D VC by the escape channel (R293). -/
def transitTrip (from_ l vc n : Nat) (s : State) : State :=
  let c := vcChan vc
  let w := (if vc ≥ 4 then detourRoute s c (linkPos from_) (linkPos l) else route s c (linkPos from_) (linkPos l)).2
  (List.range n).foldl (fun s _ => (meshSend w false false 256 s).2) s

/-- Send a packet from this device, or on from another (R292, R295): false where it has no route. A packet for this device itself is
received at once. -/
def sendOn (via : Option Nat) (org : Option (Nat × Nat)) (src dst : Nat) (bs : PBytes) (s : State) : Bool × State :=
  match nextHop s via src dst (pktTag bs) with
  | .here =>
    (true, { s with fab := { s.fab with rx := s.fab.rx ++ [rxPkt 48 0 0 src bs] } })
  | .out l second first =>
    let s := if first then rcount (reg .FAB_DETOURS) 48 1 s else s
    let vc := kindVc (pktKind bs) + (if second then 4 else 0)
    let s := match org with | some (m, _) => transitTrip m l vc (ceilDiv bs.length 256) s | none => s
    (true, pushFlits l (pktFlits vc dst src bs org) s)
  | .none => (false, s)

/-- Send a notice of this device: without a route it is discarded and counted (R295). -/
def sendNotice (dst : Nat) (bs : PBytes) (s : State) : State :=
  let r := sendOn none none (ownId s) dst bs s
  if r.1 then r.2 else rcount (reg .FAB_NOROUTE) 48 1 r.2

/-- Discard a packet for want of a route: counted; its source gets a NOROUTE with its tag (R295). The notice names the destination
and the kind discarded (log 34); a NOROUTE or LSN is answered by none. -/
def discardNoRoute (src dst : Nat) (bs : PBytes) (s : State) : State :=
  let s := rcount (reg .FAB_NOROUTE) 48 1 s
  let k := pktKind bs
  if k = 0x20 || k = 0x21 then s else
  sendNotice src (pktBytes (pktWord 0x21 false true 3 1 (pktTag bs)) (w64 (dst % 4096 + k * 2 ^ 16)) [(0#8, false)]) s

/-- Send a packet, or discard it (R292, R295); `via` is the dimension of a second hop. -/
def sendPacket (via : Option Nat) (src dst : Nat) (bs : PBytes) (s : State) : State :=
  let r := sendOn via none src dst bs s
  if r.1 then r.2 else discardNoRoute src dst bs r.2

/-! ### Link-state notices and failures (R294, R296) -/

/-- Send a link-state notice to every peer of dimension d (R296): bonds of this device without a live port, one bit per
coordinate (log 34). -/
def sendLsn (d : Nat) (s : State) : State :=
  let n := groupSize s d
  let peers := (List.range n).filter (fun c => c != ownCoord s d)
  let down := sumNat (peers.map (fun c => if (liveBond s d c).isEmpty then 2 ^ c else 0))
  peers.foldl (fun s c =>
    sendNotice (withCoord (ownId s) d c) (pktBytes (pktWord 0x20 false true 0 1 0) (w64 (d + ownCoord s d * 2 ^ 4 + down * 2 ^ 16)) [(0#8, false)]) s) s

/-- Change a link's state, with its event (R300, R410). -/
def setLnk (l new : Nat) (s : State) : State :=
  let old := lnkState s l
  let s := rsetBits (reg .LNK_STAT l) 2 0 new s
  if old = new then s else event 0x0701 (l / 12) l (w64 (old + new * 2 ^ 8)) (w64 (rbits s (reg .LNK_STAT l) 4 3)) s

/-- Routes and notices after a link has left or joined its bond (R296). -/
def bondChanged (l : Nat) (s : State) : State := sendLsn (l / 16) (rebuildRoutes s)

/-- A packet to be replayed on another route: replayed bit, replay port, replay sequence (R288, R294). -/
def replayHeader (bs : PBytes) (port seq : Nat) : PBytes :=
  cleanBytes (leBytes 8 (setBits (setBits (setBit (pktHead bs 0) 10 true) 49 44 port) 61 50 seq).toNat) ++ bs.drop 8

/-- Packets with a flit not acknowledged, each once, with the sequence of its last flit (R294). -/
def unacked (k : Link) : List (TxFlit × Nat) :=
  let data := k.retry.filter (fun f => f.kind == 1)
  let groups := (List.range data.length).filter (fun i =>
    let f := nth { kind := 0 } data i
    f.last || (i + 1 == data.length) || !((data.drop (i + 1)).any (fun g => g.vc == f.vc && g.idx > f.idx && g.bytes == f.bytes)))
  groups.map (fun i => let f := nth { kind := 0 } data i; (f, (f.seq + (ceilDiv f.bytes.length 256 - 1 - f.idx)) % 4096))

/-- Packets that wait whole, or of which every flit sent has been acknowledged: the first waiting flit of each, with the sequence that its last
flit would have had where it is partly sent (R294, R298). -/
def waiting (k : Link) : List (TxFlit × Option Nat) :=
  let data := k.waitQ.filter (fun f => f.kind == 1)
  (List.range data.length).filterMap (fun i =>
    let f := nth { kind := 0 } data i
    if f.idx = 0 then some (f, none)
    else if (data.take i).any (fun g => g.vc == f.vc) || k.retry.any (fun g => g.kind == 1 && g.vc == f.vc && g.bytes == f.bytes) then none
    else some (f, some ((k.txSeq + (ceilDiv f.bytes.length 256 - 1 - f.idx)) % 4096)))

/-- The packets of a port that leaves its bond, whole, each with the dimension of its hop where that was the second of a detour: those that
were sent, in whole or in part, carry the replay fields (R288, R294, R295). -/
def resend (l peer : Nat) (k : Link) : List (Option Nat × TxFlit × PBytes) :=
  ((unacked k).map (fun p => (p.1, some p.2)) ++ waiting k).map (fun p =>
    (if p.1.vc ≥ 4 then some (l / 16) else none, p.1, match p.2 with | some q => replayHeader p.1.bytes peer q | none => p.1.bytes))

/-- The transmitter of a port starts anew; its receiver goes on: each direction fails on its own (R294). -/
def Link.cutTx (k : Link) : Link :=
  { k with retry := [], waitQ := [], sentCr := [], rcvdCr := [], window := some k.lastPktSeq, soak := true, soakBad := false
           degPair := 0, degAnswered := false, drained := false }

/-- A port leaves its bonds for state `new` (R294): what it held goes on other routes, routes and notices follow; what waited gives
its receive buffers free. -/
def leaveBond (l new : Nat) (replay : Bool) (s : State) : State :=
  let k := linkOf s l
  let peer := rbits s (reg .LNK_PEER l) 17 12
  let s := k.waitQ.foldl (fun s f => freeOrg f s) (setLink l k.cutTx s)
  let s := bondChanged l (rsetBits (reg .LNK_STAT l) 10 3 0 (setLnk l new s))
  if !replay then s else (resend l peer k).foldl (fun s p => sendPacket p.1 p.2.1.src p.2.1.dst p.2.2 s) s

/-- Fail a link (R284, R294). `replay` is false for a lost die, whose held flits are lost (R408). -/
def failLink (l : Nat) (replay : Bool) (s : State) : State :=
  leaveBond l 5 replay (rset (reg .LNK_DOWN_EPOCH l) (linkEpoch s) (rsetBit (reg .LNK_ERR l) 0 true s))

end Sys2Proof.Machine
end

