-- ==== Sys2Proof/Machine/Link.lean ====
section
/-! DEFINITION. The link layer (R280 to R300): flits received, retry, credits, identity, degrade, notices; PUT and its answers. -/

namespace Sys2Proof.Machine
open Sys2Proof

/-! ### Receiving a flit (R281, R283, R286) -/

/-- A link takes flits: outputs are enabled, the port is past training and its die stands (R366, R289, R408). A port whose own direction
has failed still receives (R294). -/
def linkTakes (s : State) (l : Nat) : Bool :=
  decide (l < 48) && outputsOn s && [2, 3, 4, 5, 6, 7].contains (lnkState s l) && !bit (rget s (reg .ERR_DIE_LOST)) (l / 12)

/-- Cumulative acknowledgement (R283): flits up to the acknowledged sequence leave the retry buffer; an advance ends the run of lapses (R284). -/
def readAck (l : Nat) (f : Flit) (s : State) : State :=
  let k := linkOf s l
  let keep := k.retry.filter (fun t => !decide ((f.ack + 4096 - t.seq) % 4096 < 2048))
  if !f.ackValid || keep.length = k.retry.length then s
  else rsetBits (reg .LNK_STAT l) 10 9 0 (setLink l { k with retry := keep } s)

/-- Credit slots A and B carry cumulative counts (R286). -/
def readCredits (l : Nat) (f : Flit) (s : State) : State :=
  let k := linkOf s l
  setLink l { k with rcvdCr := SMap.put 0 (SMap.put 0 k.rcvdCr (f.credA.1 % 8) (f.credA.2 % 4096)) (f.credB.1 % 8) (f.credB.2 % 4096) } s

/-- Send what waits on a link and may leave. -/
def pumpAll (l : Nat) (s : State) : State := pump l (linkOf s l).waitQ.length s

/-- What is read from every flit that passes its CRC (R283). -/
def readFields (l : Nat) (f : Flit) (s : State) : State := pumpAll l (readCredits l f (readAck l f s))

/-- One NAK until the expected flit arrives or its hold-off ends (R283). -/
def sendNak (l : Nat) (s : State) : State :=
  let k := linkOf s l
  if k.nakOut then s else pushFlits l [{ kind := 4 }] (setLink l { k with nakOut := true } s)

/-- A flit treated as failing its CRC (R281, R286). -/
def crcFail (l : Nat) (protocol : Bool) (s : State) : State :=
  let s := rcount (reg .LNK_CRC_ERR l) 48 1 s
  sendNak l (if protocol then rsetBit (reg .LNK_ERR l) 5 true s else s)

/-- A sequenced flit: its fields are read; it is accepted in order or discarded with a NAK (R283). -/
def rxFlit (l : Nat) (f : Flit) (s : State) : Bool × State :=
  let s := readFields l f s
  let k := linkOf s l
  if f.seq ≠ k.rxExp then (false, sendNak l s)
  else (true, rcount (reg .LNK_RX_FLITS l) 48 1 (setLink l { k with rxExp := (f.seq + 1) % 4096, rxLast := f.seq, rxAny := true, ackDue := true, nakOut := false } s))

/-- Buffer flits of a VC that are occupied (R286). -/
def vcUsed (k : Link) (v : Nat) : Nat := (SMap.get 0 k.accCr v + 4096 - SMap.get 0 k.freedCr v) % 4096

/-- An acknowledgement still due goes out in an IDLE (R283); an IDLE has no sequence number and no retry (R282). -/
def settleAck (l : Nat) (s : State) : State :=
  let k := linkOf s l
  if !k.ackDue || !bit (rget s (reg .GATE_LINK_MASK)) l then s else setLink l (sentFlit (stampFlit k 0 { kind := 0 }) k) s

/-- A received flit of a type: its CRC decides (R281); what it sets off may send, and an acknowledgement left over goes out (R283). -/
def takeFlit (l kind : Nat) (f : Flit) (g : State → State) (s : State) : State :=
  if !linkTakes s l then s
  else if !flitOk kind f then crcFail l false s
  else settleAck l (g s)

/-- FLIT_CRC_FAILURE (R281): the 272 bytes received fail their CRC or have a reserved type, or `codewords` uncorrectable codewords touched
them. A soak in progress has not been passed (R296). -/
def execFlitCrcFailure (l : Nat) (raw : List Byte) (codewords : Nat) (s : State) : Out :=
  .next (
    if !linkTakes s l || (codewords = 0 && !rawFails raw) then s else
    let s := if codewords = 0 then s else
      let s := rsetBit (reg .LNK_ERR l) 3 true (rcount (reg .LNK_FEC_UNCORR l) 48 codewords s)
      if lnkState s l = 6 then setLink l { linkOf s l with soakBad := true } s else s
    crcFail l (codewords = 0 && rawReserved raw) s)

/-! ### Packets received (R288, R292, R294) -/

/-- The replayed packet has been delivered before, as the failed link's window tells (R294): the window opens at the last complete
packet where the port's session still stands. -/
def replaySeen (p : Nat) (seq : Nat) (s : State) : Bool × State :=
  let k := linkOf s p
  let k' := if k.window.isNone && [3, 4].contains (lnkState s p) then { k with window := some k.lastPktSeq, part := [] } else k
  match k'.window with
  | some w => let d := (seq + 4096 - w) % 4096; (!(decide (1 ≤ d) && decide (d ≤ 2048)), setLink p k' s)
  | none => (true, s)

/-- Take a packet out of its receive buffer: its credits are freed (R286). -/
def rxTake (p : RxPkt) (s : State) : State := freeCredits p.link p.vc p.flits { s with fab := { s.fab with rx := s.fab.rx.erase p } }

/-! ### Staging (R302, R306) -/

/-- The engine that handles a segment index: index mod 4, over the surviving engines (R302, R408). -/
def engineOf (s : State) (i : Nat) : Nat :=
  let live := (List.range 4).filter (fun d => !bit (rget s (reg .ERR_DIE_LOST)) d)
  nth 0 live (i % live.length)

/-- The edge router by which engine d handles a segment: rows 0 to 3 of its die's side edge (R40). -/
def enginePos (d i : Nat) : Pos := (if d % 2 = 0 then 0 else 47, d / 2 * 13 + i / 4 % 4)

/-- The slots of an engine's staging set, 4 KiB for one COL packet each: logical tile, window offset (R302, R321). -/
def stageSlots (s : State) (d : Nat) : List (Nat × Nat) :=
  let w := rget s (reg .COL_STAGE d)
  (List.range (bits w 15 12 + 1)).flatMap (fun k => (List.range (16 + 2 * bits w 39 36)).map (fun j => (bits w 10 0 + k, bits w 35 16 + 0x1000 * j)))

/-- A slot that holds no packet, in a tile that is neither held for a move nor absent (R31, R313). -/
def stageSlot (s : State) (d : Nat) : Option (Nat × Nat) :=
  (stageSlots s d).find? (fun p => !s.fab.staged.any (fun g => g.tile == p.1 && g.off == p.2) && tileState s p.1 != 2 && tileState s p.1 != 4)

/-- A COL packet moves from its receive buffer to a free slot of its engine's staging set, and its credits are freed; with none free
it stays (R302, R306). -/
def stageOne (p : RxPkt) (s : State) : State :=
  let i := leNat (rawBytes ((p.data.drop 4).take 4))
  let e := engineOf s i
  match stageSlot s e with
  | none => s
  | some (t, o) =>
    let d := p.data.drop 16
    let m := tileTrip (enginePos e i) (physPos s t) false d.length 0 (rxTake p s)
    let g : Staged := { eng := e, tile := t, off := o, len := d.length, src := p.src, head := rawBytes (p.data.take 16) }
    winPoke t o (poisonFlit m.1 d) { m.2 with fab := { m.2.fab with staged := m.2.fab.staged ++ [g] } }

/-- Every COL packet that a staging set has room for moves there, oldest first (R306). -/
def stageIn (s : State) : State := (s.fab.rx.filter (fun p => bits p.w0 7 0 == 0x10)).foldl (fun s p => stageOne p s) s

/-- Take a packet out of staging: its payload, poisoned where its words are. A slot whose tile is gone has lost it (R43). -/
def unstage (g : Staged) (s : State) : PBytes × State :=
  let s := { s with fab := { s.fab with staged := s.fab.staged.erase g } }
  if tileState s g.tile = 4 then (List.replicate g.len (0xFF#8, true), s) else
  let m := tileTrip (enginePos g.eng (leNat ((g.head.drop 4).take 4))) (physPos s g.tile) false 0 g.len s
  (poisonFlit m.1 ((tileOf m.2 g.tile).read g.off g.len), meetWords g.tile g.off g.len m.2)

/-! ### Packets in transit and arrived -/

/-- Forward or keep a packet (R292, R295). A reserved kind has no effect and is recorded. -/
def packetGo (l vc n dst src : Nat) (bs : PBytes) (s : State) : State :=
  if dst = ownId s then
    if [0x01, 0x02, 0x10, 0x20, 0x21].contains (pktKind bs) then
      stageIn { s with fab := { s.fab with rx := s.fab.rx ++ [rxPkt l vc n src bs] } }
    else freeCredits l vc n (recOther (.put src) 288 (w64 (pktKind bs)) s)
  else
    let r := sendOn (some (l / 16)) (some (l, vc)) src dst bs s
    if r.1 then r.2 else freeCredits l vc n (discardNoRoute src dst bs r.2)

/-- A packet received whole (R294). A replayed packet is judged where it comes in over the dimension of the link that failed. -/
def packetIn (l vc n dst src : Nat) (bs : PBytes) (s : State) : State :=
  let w0 := pktHead bs 0
  let p := bits w0 49 44
  let d := p / 16
  if bit w0 10 && d == l / 16 && decide (p < 48) && coordOf dst d == ownCoord s d then
    let r := replaySeen p (bits w0 61 50) s
    if r.1 then freeCredits l vc n (rcount (reg .FAB_DUP) 48 1 r.2) else packetGo l vc n dst src bs r.2
  else packetGo l vc n dst src bs s

/-- The body of a received flit with the poison of its bytes (R25). -/
def flitData (f : Flit) : PBytes := (List.range 256).map (fun i => (nth 0#8 f.body i, nth false f.pois i))

/-- The bytes of a packet: its header and D data bytes (R288). -/
def packetOf (raw : PBytes) : PBytes :=
  let d := bits (pktHead raw 0) 27 16 + 1
  (List.range (16 + d)).map (fun i => nth (0#8, false) raw i)

/-- DATA_FLIT (R283, R286, R288). On a MISCABLED port it is acknowledged and carries nothing (R289). -/
def execDataFlit (l : Nat) (f : Flit) (s : State) : Out :=
  .next (takeFlit l 1 f (fun s =>
    let v := f.vc % 8
    if f.seq = (linkOf s l).rxExp && vcUsed (linkOf s l) v ≥ vcBuffer v then crcFail l true (readFields l f s) else
    let r := rxFlit l f s
    if !r.1 then r.2 else
    let k := linkOf r.2 l
    let raw := SMap.get [] k.part v ++ flitData f
    let k := { k with accCr := SMap.put 0 k.accCr v ((SMap.get 0 k.accCr v + 1) % 4096) }
    if lnkState s l = 7 then freeCredits l v 1 (setLink l k r.2)
    else if !f.last then setLink l { k with part := SMap.put [] k.part v raw } r.2
    else packetIn l v (raw.length / 256) f.dst f.src (packetOf raw) (setLink l { k with part := SMap.put [] k.part v [], lastPktSeq := f.seq } r.2)) s)

/-! ### Flits without packets (R282 to R284) -/

/-- IDLE_FLIT (R283): acknowledgement and credits are read. -/
def execIdleFlit (l : Nat) (f : Flit) (s : State) : Out := .next (takeFlit l 0 f (readFields l f) s)

/-- BEAT_FLIT (R282). -/
def execBeatFlit (l : Nat) (f : Flit) (s : State) : Out := .next (takeFlit l 3 f (fun s => (rxFlit l f s).2) s)

/-- BEAT_TIMER (R282): not while a flit could leave instead, nor while the retry buffer is full. -/
def execBeatTimer (l : Nat) (s : State) : Out :=
  .next (if linkTakes s l && !(linkOf s l).waitQ.any (fun f => f.kind == 3) then pushFlits l [{ kind := 3 }] s else s)

/-- Replay the retry buffer: every flit is sent again with the acknowledgement and credits of now, and counted (R283, R284, R300). -/
def replayFlits (l : Nat) (s : State) : State :=
  let k := linkOf s l
  if k.retry.isEmpty then s else
  let k' := k.retry.foldl (fun (k : Link) f => let g := stampFlit k f.seq f; { sentFlit g k with retry := k.retry ++ [g] }) { k with retry := [] }
  rcount (reg .LNK_REPLAYS l) 48 k.retry.length (setLink l k' s)

/-- NAK_FLIT (R283): flits after the named sequence are replayed; the NAK itself is a sequenced flit. -/
def execNakFlit (l : Nat) (f : Flit) (s : State) : Out :=
  .next (takeFlit l 4 f (fun s => replayFlits l (rxFlit l { f with ackValid := true } s).2) s)

/-- NAK_HOLDOFF_EXPIRY (R283). -/
def execNakHoldoffExpiry (l : Nat) (s : State) : Out :=
  .next (if linkTakes s l then setLink l { linkOf s l with nakOut := false } s else s)

/-- ACK_DEADLINE_LAPSE (R284): the third consecutive lapse fails the link. -/
def execAckDeadlineLapse (l : Nat) (s : State) : Out :=
  .next (
    if !linkTakes s l || lnkState s l = 5 || (linkOf s l).retry.isEmpty then s else
    let n := rbits s (reg .LNK_STAT l) 10 9 + 1
    let s := rsetBits (reg .LNK_STAT l) 10 9 n (rcount (reg .LNK_ACK_LAPSE l) 48 1 s)
    if n ≥ 3 then failLink l true s else replayFlits l s)

/-- REPLAY_WINDOW_EXPIRY (R294). -/
def execReplayWindowExpiry (l : Nat) (s : State) : Out :=
  .next (if l < 48 then setLink l { linkOf s l with window := none } s else s)

/-! ### Training and identity (R289, R290, R296) -/

/-- The 32-bit digest of the fabric section of the committed configuration (R289, R385). -/
def fabricDigest (s : State) : Nat :=
  let sec := SMap.getList 0#8 s.cox.active 0x40 64
  leNat ((sha384 ([0#8, 0#8, 0#8] ++ sec.drop 3)).take 4)

/-- The body of an identity (R290). -/
def idBody (s : State) (id l role : Nat) : List Byte :=
  [1#8, BitVec.ofNat 8 role] ++ leBytes 2 id ++
  [BitVec.ofNat 8 l, BitVec.ofNat 8 (groupSize s 0 - 1), BitVec.ofNat 8 (groupSize s 1 - 1), BitVec.ofNat 8 (groupSize s 2 - 1)] ++ leBytes 4 (fabricDigest s)

/-- This port's own identity: the role it holds, or 15 where it serves as itself (R289). -/
def ownIdentity (s : State) (l : Nat) : List Byte :=
  idBody s (ownId s) l (if l % 16 = 15 then (roleOf s l).getD 15 else 15)

/-- The identity that the peer of link l should send (R278, R279, R299); none for a port that the rule assigns to no peer. -/
def peerIdentity (s : State) (l : Nat) : Option (List Byte) :=
  let d := l / 16
  let n := groupSize s d
  match (roleOf s l).bind (fun j => (portOffset n j).map (fun o => (j, o))) with
  | none => none
  | some (j, o) =>
    let id := withCoord (ownId s) d ((ownCoord s d + o) % n)
    if l % 16 = 15 then some (idBody s id (d * 16 + 15) (peerPort n j)) else some (idBody s id (d * 16 + peerPort n j) 15)

/-- The fields of an identity body (R290). -/
def idFields (b : List Byte) : List Nat :=
  let g := fun i => (nth 0#8 b i).toNat
  [g 1 % 16, (g 2 + g 3 * 256) % 4096, g 4 % 64, g 5 % 16, g 6 % 16, g 7 % 16, leNat ((b.drop 8).take 4)]

/-- Send a LINKCTL flit. -/
def sendCtl (l : Nat) (body : List Byte) (s : State) : State := pushFlits l [{ kind := 5, bytes := cleanBytes body }] s

/-- Enter CHECKING and send the identity (R289). -/
def checkLink (l : Nat) (s : State) : State := sendCtl l (ownIdentity s l) (setLnk l 2 s)

/-- Lane lock bits of a width code. -/
def lockOf (w : Nat) : Nat := match w with | 1 => 3 | 2 => 12 | 3 => 15 | _ => 0

/-- The Gate blocks an enabled port: outside the mask, or at full rate where that is not allowed (R362). -/
def gateBlocks (s : State) (l : Nat) : Bool :=
  bit (rget s (reg .LNK_CTL l)) 0 &&
    (!bit (rget s (reg .GATE_LINK_MASK)) l || (bit (rget s (reg .GATE_LANE_RATE)) 0 && !bit (rget s (reg .LNK_CTL l)) 1))

/-- A port may train: enabled, allowed by the Gate, serving a role or 15 with one (R299, R362). -/
def mayTrain (s : State) (l : Nat) : Bool := bit (rget s (reg .LNK_CTL l)) 0 && !gateBlocks s l && (roleOf s l).isSome

/-- Start training (R289). What the Gate blocks is counted and reported, and the port's state does not change (R362). -/
def trainLink (l : Nat) (s : State) : State :=
  if mayTrain s l then rsetBits (reg .LNK_STAT l) 10 3 0 (setLnk l 1 s)
  else if gateBlocks s l then event 0x0201 0xFF 0 (w64 2) (w64 l) (rcount (reg .GATE_LINK_BLOCKED) 48 1 s)
  else rsetBits (reg .LNK_STAT l) 10 3 0 (setLnk l 0 s)

/-- Outputs come on: each enabled port that is not up trains (R289). -/
def trainLinks (s : State) : State :=
  (List.range 48).foldl (fun s l => if lnkState s l == 3 && mayTrain s l then s else trainLink l s) s

/-- Outputs go off: a port in use falls to FAILED; its packets wait for the next UP (R294, R298). -/
def holdLink (l : Nat) (s : State) : State :=
  if lnkState s l = 0 || lnkState s l = 5 then s else
  let k := linkOf s l
  let again := (resend l (rbits s (reg .LNK_PEER l) 17 12) k).flatMap (fun p => pktFlits p.2.1.vc p.2.1.dst p.2.1.src p.2.2 none)
  let s := rset (reg .LNK_DOWN_EPOCH l) (linkEpoch s) (rsetBit (reg .LNK_ERR l) 0 true s)
  let s := k.waitQ.foldl (fun s f => freeOrg f s) (setLink l { k.cutTx with waitQ := again } s)
  rsetBits (reg .LNK_STAT l) 10 3 0 (setLnk l 5 s)

def holdLinks (s : State) : State := (List.range 48).foldl (fun s l => holdLink l s) s

/-- LINK_TRAINING_COMPLETE (R289): `lanes` is the width reached, as LNK_STAT codes it. A new session begins. -/
def execLinkTrainingComplete (l lanes : Nat) (s : State) : Out :=
  .next (
    if l ≥ 48 || !outputsOn s || lnkState s l ≠ 1 || lanes = 0 || lanes > 3 then s else
    let k := linkOf s l
    let s := setLink l { window := k.window, lastPktSeq := if k.window.isSome then k.lastPktSeq else 0, soak := k.soak || l % 16 == 15, waitQ := k.waitQ.filter (fun f => f.kind == 1) } s
    checkLink l (rsetBits (reg .LNK_STAT l) 8 5 (lockOf lanes) (rsetBits (reg .LNK_STAT l) 4 3 lanes s)))

/-- A link that has passed its check joins its bond (R289, R296). -/
def linkUp (l : Nat) (s : State) : State := pumpAll l (bondChanged l (setLnk l 3 s))

/-- Compare a received identity (R289). -/
def checkIdentity (l : Nat) (b : List Byte) (s : State) : State :=
  let want := peerIdentity s l
  let g := idFields b
  if want.map idFields = some g then
    let s := rset (reg .LNK_PEER l) (w64 (nth 0 g 1 + nth 0 g 2 * 2 ^ 12 + 2 ^ 18)) s
    if (linkOf s l).soak then setLnk l 6 s else linkUp l s
  else
    let word := fun (x : List Byte) => leWord ((x.drop 1).take 8)
    event 0x0702 (l / 12) l (word (want.getD [])) (word b) (setLnk l 7 (rsetBit (reg .LNK_ERR l) 2 true s))

/-- IDENTITY (R289, R290): a LINKCTL flit of a reserved subtype is acknowledged and sets LNK_ERR bit 5. -/
def execIdentity (l : Nat) (f : Flit) (s : State) : Out :=
  .next (takeFlit l 5 f (fun s =>
    let r := rxFlit l f s
    if !r.1 then r.2
    else if nth 0#8 f.body 0 ≠ 1#8 then (if nth 0#8 f.body 0 = 2#8 then r.2 else rsetBit (reg .LNK_ERR l) 5 true r.2)
    else if lnkState r.2 l = 2 then checkIdentity l f.body r.2 else r.2) s)

/-- LINK_RETRAIN_TIMER (R296). -/
def execLinkRetrainTimer (l : Nat) (s : State) : Out :=
  .next (if l < 48 && outputsOn s && lnkState s l == 5 then trainLink l s else s)

/-- SOAK_COMPLETE (R296): 10 s have passed; a soak that saw an uncorrectable codeword begins again. -/
def execSoakComplete (l : Nat) (s : State) : Out :=
  .next (
    if l ≥ 48 || !outputsOn s || lnkState s l ≠ 6 then s
    else if (linkOf s l).soakBad then setLink l { linkOf s l with soakBad := false } s
    else linkUp l (setLink l { linkOf s l with soak := false } s))

/-- LSN_REPEAT (R296). -/
def execLsnRepeat (dim : Nat) (s : State) : Out :=
  .next (if dim < 3 && outputsOn s && (List.range 15).any (fun j => (portOffset (groupSize s dim) j).isSome && lnkState s (linkOfRole s dim j) != 3)
    then sendLsn dim s else s)

/-! ### Degrade (R297) -/

/-- Stop new DATA and send a DEGRADE naming the pair to keep (R297). -/
def startDegrade (l pair : Nat) (answer : Bool) (s : State) : State :=
  let s := rset (reg .LNK_DOWN_EPOCH l) (linkEpoch s) (rsetBit (reg .LNK_ERR l) 1 true s)
  let s := setLink l { linkOf s l with degPair := pair, degAnswered := answer, drained := false } s
  bondChanged l (sendCtl l [2#8, BitVec.ofNat 8 (pair + (if answer then 128 else 0))] (setLnk l 4 s))

/-- DEGRADE (R290, R297). Requests that cross keep the lower pair. -/
def execDegrade (l : Nat) (f : Flit) (s : State) : Out :=
  .next (takeFlit l 5 f (fun s =>
    let r := rxFlit l f s
    if !r.1 then r.2 else
    let b1 := (nth 0#8 f.body 1).toNat
    let pair := b1 % 4
    if nth 0#8 f.body 0 ≠ 2#8 then (if nth 0#8 f.body 0 = 1#8 then r.2 else rsetBit (reg .LNK_ERR l) 5 true r.2)
    else if pair = 0 || pair = 3 then rsetBit (reg .LNK_ERR l) 5 true r.2
    else
      let k := linkOf r.2 l
      if b1 ≥ 128 then (if lnkState r.2 l = 4 then setLink l { k with degAnswered := true } r.2 else r.2)
      else if lnkState r.2 l = 3 then startDegrade l pair true r.2
      else if lnkState r.2 l = 4 && !k.degAnswered then
        sendCtl l [2#8, BitVec.ofNat 8 (pair + 128)] (setLink l { k with degPair := min k.degPair pair, degAnswered := true } r.2)
      else r.2) s)

/-- DEGRADE_WINDOW (R297): symbol errors by lane, symbols corrected. -/
def execDegradeWindow (l : Nat) (syms : List Nat) (corrected : Nat) (s : State) : Out :=
  .next (
    if !linkTakes s l then s else
    let g := fun i => min 0xFFFF (nth 0 syms i)
    let s := rset (reg .LNK_LANE_SYM l) (w64 (g 0 + g 1 * 2 ^ 16 + g 2 * 2 ^ 32 + g 3 * 2 ^ 48)) s
    let s := rcount (reg .LNK_FEC_CORR l) 48 corrected s
    let thr := rbits s (reg .LNK_DEGRADE_THR l) 15 0
    let worse := fun i => thr != 0 && decide (nth 0 syms i > thr)
    if lnkState s l ≠ 3 || rbits s (reg .LNK_STAT l) 4 3 ≠ 3 then s
    else if (worse 0 || worse 1) && !worse 2 && !worse 3 then startDegrade l 2 false s
    else if (worse 2 || worse 3) && !worse 0 && !worse 1 then startDegrade l 1 false s
    else s)

/-- DEGRADE_DRAINED (R297). -/
def execDegradeDrained (l : Nat) (s : State) : Out :=
  .next (
    let k := linkOf s l
    if linkTakes s l && lnkState s l == 4 && k.degAnswered && k.retry.isEmpty then setLink l { k with drained := true } s else s)

/-- DEGRADE_COMPLETE (R297): two lanes, then the identity check. -/
def execDegradeComplete (l : Nat) (s : State) : Out :=
  .next (
    let k := linkOf s l
    if !linkTakes s l || lnkState s l ≠ 4 || !k.drained then s else
    let s := setLink l { k with drained := false, degAnswered := false } s
    checkLink l (rsetBits (reg .LNK_STAT l) 8 5 (lockOf k.degPair) (rsetBits (reg .LNK_STAT l) 4 3 k.degPair s)))

/-! ### Packets for this device (R288, R295, R296) -/

/-- The oldest packet received of a kind. -/
def rxFind (s : State) (kind : Nat) : Option RxPkt := s.fab.rx.find? (fun p => bits p.w0 7 0 == kind)

/-- Where a PUT lands (R288): stack memory, or one tile's window; none elsewhere. -/
def putPlace (s : State) (a n : Nat) : Option Loc :=
  if a < stackTop then (if a + n ≤ stackTop && (linesOf a n).all (fun l => stkPresent s l) then some (.stk a) else none)
  else if winBase ≤ a && a < winBase + 0x48000000 then
    let t := (a - winBase) / 0x100000
    let o := (a - winBase) % 0x100000
    if o + n ≤ winTop && tileState s t ≠ 4 then some (.win t o) else none
  else none

/-- A write must wait: a tile in MAP_HOLD (R31), a stack at its critical step (R241). -/
def putWaits (s : State) (a n : Nat) : Bool :=
  match putPlace s a n with
  | some (.win t _) => tileState s t == 2
  | some (.stk b) => stkWaits s b n
  | none => false

/-- A write to stack memory is discarded with its stack (R408). -/
def writeLost (s : State) (a n : Nat) : Bool := a < stackTop && (linesOf a n).any (fun l => placeLost s (physOf s (backing s false l)))

/-- Write the data of a PUT: status 0 OK, 1 ADDRESS, 2 POISON (R288). -/
def putWrite (src a : Nat) (d : PBytes) (s : State) : Nat × State :=
  let bad := anyPoison d
  match putPlace s a d.length with
  | none => (1, recUnmapped (.put src) a true s)
  | some (.win t o) => let r := winWrite (.put src) t o d s; ((if r.1 then (if bad then 2 else 0) else 1), r.2)
  | some (.stk b) =>
    ((if writeLost s b d.length then 1 else if bad then 2 else 0), stkWrite (.put src) b d s)

/-- The data of a PUT and its acknowledgement cross the mesh from and to its port's edge router (R34, R39, R40). -/
def putTrip (l a n : Nat) (s : State) : Bool × State :=
  if l ≥ 48 then (false, s) else
  match putPlace s a n with
  | some (.win t _) => tileTrip (linkPos l) (physPos s t) false n 0 s
  | some (.stk b) => stackTrip (linkPos l) false (physStack (physOf s (backing s false b))) n 0 s
  | none => (false, s)

/-- PUT (R288); the poison of its data comes with them (R25). -/
def execPutPacket (s : State) : Out :=
  .next (
    match rxFind s 0x01 with
    | none => s
    | some p =>
      let a := bits p.w1 47 0
      if putWaits s a p.data.length then s else
      let m := putTrip p.link a p.data.length (rxTake p s)
      let r := putWrite p.src a (poisonFlit m.1 p.data) m.2
      if bit p.w0 9 then sendPacket none (ownId s) p.src (pktBytes (pktWord 0x02 false true r.1 1 (bits p.w0 43 28)) 0#64 [(0#8, false)]) r.2 else r.2)

/-- The final frame of an acknowledged PUT_SEND (R392): the status in the detail. -/
def putDone (src tag : Nat) (status detail : Nat) (s : State) : State :=
  match s.fab.puts.find? (fun w => w.dst == src && w.tag == tag) with
  | none => s
  | some w => finishCmd w.cmd status detail 0#64 { s with fab := { s.fab with puts := s.fab.puts.erase w } }

/-- PUT_ACK (R288, R392). -/
def execPutAckPacket (s : State) : Out :=
  .next (
    match rxFind s 0x02 with
    | none => s
    | some p =>
      let st := bits p.w0 15 12
      putDone p.src (bits p.w0 43 28) (if st = 0 then stOK else if st = 1 then stREFUSED_ADDR else if st = 2 then stPOISON else stUNREACHABLE) st (rxTake p s))

/-- LSN (R295, R296): the sender's bonds without a live port, in the layout of this device's own notices (log 34). -/
def execLsnPacket (s : State) : Out :=
  .next (
    match rxFind s 0x20 with
    | none => s
    | some p =>
      let d := bits p.w1 1 0
      let k := bits p.w1 7 4
      let s := rxTake p s
      if d ≥ 3 then s else
      let down := (List.range 16).foldl (fun m c => SMap.put false m (d * 256 + k * 16 + c) ((bits p.w1 31 16).testBit c)) s.fab.down
      rebuildRoutes { s with fab := { s.fab with down := down } })

end Sys2Proof.Machine
end

