-- ==== Sys2Proof/Machine/Pmc.lean ====
section
/-! DEFINITION. Performance counters: freezes and snapshots (R332, R417), clears, sampling, the configuration lock (R414 to R421). -/

namespace Sys2Proof.Machine
open Sys2Proof

/-! ### Freezes (R417) -/

/-- A register whose value a freeze keeps. -/
def frozenOff (o : Nat) : Bool :=
  (decide (0x110000 ≤ o) && decide (o < 0x120000)) ||
  (decide (0x1000000 ≤ o) && decide (o < 0x2200000) &&
    (let q := o % 0x4000
     (decide (0x3000 ≤ q) && decide (q < 0x3040)) ||
     [RegName.TILE_F_BUSY, .TILE_GX_BUSY, .TILE_GW_BUSY, .TILE_VEC_BUSY, .TILE_SEQ_DISPATCHED].any (fun n => (reg n 0).off % 0x4000 == q)))

/-- Snapshot every counter at an instant (R417). -/
def fireFreeze (instant : Word) (s : State) : State :=
  let n := (rbits s (reg .PMC_FREEZE_SEQ) 31 0 + 1) % 2 ^ 32
  let s := rset (reg .PMC_FREEZE_EPOCH) instant (rset (reg .PMC_FREEZE_SEQ) (w64 n) s)
  { s with snap := { seq := n, at_ := instant, regs := s.regs.filter (fun e => frozenOff e.1), cyc := s.ep.cyc } }

/-- A register as the last freeze kept it. -/
def snapReg (s : State) (r : Reg) : Word := SMap.get r.rst s.snap.regs r.off

/-- Word j of TILE_PMC_SNAP[t] (R417). -/
def tileSnapWord (s : State) (t j : Nat) : Word :=
  match j with
  | 0 => w64 s.snap.seq
  | 1 => s.snap.at_
  | 2 => w64 (SMap.get 0 s.snap.cyc (dieOfTile t))
  | 11 => snapReg s (reg .TILE_F_BUSY t)
  | 12 => snapReg s (reg .TILE_GX_BUSY t)
  | 13 => snapReg s (reg .TILE_GW_BUSY t)
  | 14 => snapReg s (reg .TILE_VEC_BUSY t)
  | 15 => snapReg s (reg .TILE_SEQ_DISPATCHED t)
  | j => snapReg s (reg .TILE_PMC_CTR t (j - 3))

/-- Word j of PMC_DEV_SNAP (R417). -/
def devSnapWord (s : State) (j : Nat) : Word :=
  if j = 0 then w64 s.snap.seq
  else if j = 1 then s.snap.at_
  else if j < 66 then snapReg s (reg .PMC_STK_SLOT (j - 2))
  else if j < 450 then snapReg s (reg .PMC_LNK_VC (j - 66))
  else 0#64

/-- An armed freeze whose instant has come fires (R332). -/
def freezeDue (s : State) : State :=
  let at_ := rget s (reg .EPOCH_FREEZE_AT)
  if bit (rget s (reg .EPOCH_FREEZE_CTL)) 0 && decide (at_.toNat ≤ (epoch s).toNat) then
    let s := rsetBits (reg .EPOCH_FREEZE_CTL) 1 0 2 s
    fireFreeze (if (epoch s).toNat ≤ at_.toNat + 11 then at_ else epoch s) s
  else s

/-- Arm the freeze; an instant already past sets EPOCH_ERR bit 3 (R332). -/
def armFreeze (s : State) : State :=
  let s := rsetBit (reg .EPOCH_FREEZE_CTL) 0 true s
  if (rget s (reg .EPOCH_FREEZE_AT)).toNat < (epoch s).toNat then rsetBit (reg .EPOCH_ERR) 3 true s else s

/-- FREEZE_ARM (R332). -/
def execFreezeArm (_req : Req) (s : State) : Out := .next (armFreeze s)

/-- COUNTER_FREEZE (R332, R417). -/
def execCounterFreeze (s : State) : Out := .next (if s.gate.st = .off then s else freezeDue s)

/-- PMC_FREEZE_NOW (R417). -/
def execPmcFreezeNow (_req : Req) (s : State) : Out := .next (fireFreeze (epoch s) s)

/-! ### Configuration (R414, R419, R421) -/

/-- The counter configuration is locked (R421). -/
def pmcLocked (s : State) : Bool := bit (rget s (reg .PMC_CTL)) 0

/-- Clear tile counters (R414). -/
def clearCounters (req : Req) (t : Nat) (v : Word) (s : State) : State :=
  if pmcLocked s then recRegRefused req (reg .TILE_PMC_CLR t).off v s
  else (List.range 8).foldl (fun s k => if bit v k then rset (reg .TILE_PMC_CTR t k) 0#64 s else s) s

/-- COUNTER_CLEAR (R414): a tile in MAP_HOLD answers after the hold (R31). -/
def execCounterClear (req : Req) (t : Nat) (v : Word) (s : State) : Out :=
  .next (if t ≥ numTiles then s else if tileState s t = 2 then holdAccess t (heldWrite req 0xA18 v) s else clearCounters req t v s)

/-- A write of PMC_SAMPLE loads every tile's LFSR (R419). -/
def writePmcSample (req : Req) (v : Word) (s : State) : State :=
  if pmcLocked s then recRegRefused req (reg .PMC_SAMPLE).off v s
  else
    let seed := bits v 63 32
    (List.range numTiles).foldl (fun s t => modTile t (fun x => { x with lfsr := BitVec.ofNat 32 (seed ^^^ t) }) s) (plainWrite .PMC_SAMPLE 0 0 v s)

/-- PMC_SAMPLE_WRITE (R419). -/
def execPmcSampleWrite (req : Req) (v : Word) (s : State) : Out := .next (writePmcSample req v s)

/-- PMC_CONFIG_LOCK (R421). -/
def execPmcConfigLock (_req : Req) (s : State) : Out := .next (rsetBit (reg .PMC_CTL) 0 true s)

/-! ### Sample records (R419, R420) -/

/-- Instruction number n of a tile has not completed. -/
def Tile.inFlight (x : Tile) (n : Nat) : Bool :=
  x.loads.any (fun o => o.hdr.sn == n) || x.stores.any (fun h => h.sn == n) || x.move.any (fun o => o.hdr.sn == n) ||
  (x.qF ++ x.qGX ++ x.qGW).any (fun o => o.hdr.sn == n) || x.vec.any (fun o => o.hdr.sn == n) || x.drains.any (fun d => d.hdr.sn == n) ||
  x.inits.any (fun i => i.hdr.sn == n)

/-- Records of the ring (R420). -/
def sampleCap (s : State) : Nat := 64 * 2 ^ rbits s (reg .PMC_SRING) 51 48

/-- SAMPLE_RECORD_WRITE (R419, R420): `ok` tells whether the ring write succeeds. -/
def execSampleRecordWrite (t : Nat) (ok : Bool) (s : State) : Out :=
  .next (
    let x := tileOf s t
    match x.samples with
    | [] => s
    | p :: ps =>
      if x.inFlight p.sn then s else
      let s := setTile t { x with samples := ps } s
      let w := rbits s (reg .PMC_SRING_WR) 31 0
      let drop := rcount (reg .PMC_SAMPLE_DROP) 48 1
      if (w + 2 ^ 32 - rbits s (reg .PMC_SRING_RD) 31 0) % 2 ^ 32 ≥ sampleCap s then drop s else
      let a := rbits s (reg .PMC_SRING) 47 12 * 4096 + (w % sampleCap s) * 64
      if !ok || !stkPresent s a || stackLost s (physStack (physOf s (backing s false a))) then drop (recOther .engine 420 (w64 a) s) else
      rset (reg .PMC_SRING_WR) (w64 ((w + 1) % 2 ^ 32)) (stkWrite .engine a (cleanBytes p.bytes) s))

end Sys2Proof.Machine
end

