-- ==== Sys2Proof/Machine/Time.lean ====
section
/-! DEFINITION. Clocks and time: PLL locks (R323, R334), the epoch counter and its alignment (R326 to R331), a reference-clock cycle. -/

namespace Sys2Proof.Machine
open Sys2Proof

/-! ### PLLs (R323, R334) -/

/-- The die of a PLL, by its bit of CLK_LOCK: 0xFF for those of no die. -/
def pllDie (p : Nat) : Nat :=
  if p < 4 then p else if p < 12 then (p - 4) / 2 else if p < 20 then (p - 12) / 2 else if p < 24 then p - 20 else 0xFF

/-- PLL_LOCK (R323). -/
def execPllLock (pll : Nat) (s : State) : Out :=
  .next (if pll < 26 && s.gate.st != .off then rsetBit (reg .CLK_LOCK) pll true s else s)

/-- PLL_UNLOCK (R334). -/
def execPllUnlock (pll : Nat) (s : State) : Out :=
  .next (
    if pll ≥ 26 || !bit (rget s (reg .CLK_LOCK)) pll then s else
    event 0x0A01 (pllDie pll) 0 (w64 5) (w64 pll) (rsetBit (reg .CLK_UNLOCK) pll true (rsetBit (reg .CLK_LOCK) pll false s)))

/-! ### Alignment (R328 to R331) -/

/-- Host-assisted epoch mode (R331). -/
def epochAssisted (s : State) : Bool := assist s 13

/-- EPOCH_STAT [1:0]: 0 FREE, 1 ACQUIRING, 2 LOCKED, 3 HOLDOVER. -/
def epochState (s : State) : Nat := rbits s (reg .EPOCH_STAT) 1 0
def setEpochState (v : Nat) (s : State) : State := rsetBits (reg .EPOCH_STAT) 1 0 v s

/-- A signed value saturated to 32 bits. -/
def sat32 (e : Int) : Nat := ofSigned 32 (max (-2147483648) (min 2147483647 e))

/-- Record an epoch event with its error (R410). -/
def epochEvent (kind : Nat) (e : Int) (s : State) : State := event 0x0B01 0xFF 0 (w64 kind) (w64 (ofSigned 64 e)) s

/-- Set the counter as a step (R329, R331); a step over an armed instant fires the freeze (R332). -/
def stepEpoch (v : Word) (e : Int) (s : State) : State :=
  let s := rset (reg .EPOCH_NOW) v { s with ep := { s.ep with phase := 0 } }
  let s := rsetBit (reg .EPOCH_ERR) 1 true (rcount (reg .EPOCH_STEPS) 48 1 s)
  freezeDue (epochEvent 2 e s)

/-- An accepted edge (R328): the phase term takes e, the rate term is learned (a free value within ±100 ppm) from the second edge on,
the target advances by a second unless the cox wrote the next one in this cycle. -/
def acceptEdge (target : Word) (e : Int) (first : Bool) (s : State) : State :=
  let s := { s with ep := { s.ep with phase := e * 100000000, outl := [] } }
  let s := if s.ep.target.isSome then s else rset (reg .EPOCH_NEXT_SEC) (target + 1000000000#64) s
  if first then s else
  let f := takeFresh s
  rsetBits (reg .EPOCH_RATE) 31 0 (ofSigned 32 (((f.1.toNat % 200001 : Nat) : Int) - 100000)) f.2

/-- An edge that is no outlier (R328, R329): four in a row within 5 ns lock, a wider error unlocks. -/
def alignEdge (at_ target : Word) (e : Int) (s : State) : State :=
  let first := epochState s == 0
  let good := if e.natAbs ≤ 5 then (if first then 0 else s.ep.good) + 1 else 0
  let s := if e.natAbs > 1000000 then
      acceptEdge target 0 first (stepEpoch (epoch s + (target - at_)) e s)
    else acceptEdge target e first s
  setEpochState (if good ≥ 4 then 2 else 1) { s with ep := { s.ep with good := good } }

/-- The errors of three outliers in a row agree within 1 µs (R329). -/
def outliersAgree (es : List Int) : Bool :=
  decide (es.length ≥ 3) && es.all (fun a => es.all (fun b => decide ((a - b).natAbs ≤ 1000)))

/-- PPS_EDGE (R328 to R331): the converter times the edge `sub` ns, 0 to 9, into the present reference cycle. A target that the cox wrote in
this cycle is the next edge's. -/
def execPpsEdge (sub : Nat) (s : State) : Out :=
  .next (
    if s.gate.st = .off then s else
    let at_ := epoch s + w64 (sub % 10)
    let target := s.ep.target.getD (rget s (reg .EPOCH_NEXT_SEC))
    let e : Int := (at_ - target).toInt
    let s := rsetBits (reg .EPOCH_PPS_ERR) 31 0 (sat32 e) (rset (reg .EPOCH_PPS_LAST) at_ s)
    if epochAssisted s then s
    else if epochState s ≠ 2 then alignEdge at_ target e s
    else if e.natAbs ≤ 5 then acceptEdge target e false s
    else if e.natAbs ≤ 1000 then alignEdge at_ target e s
    else
      let os := (s.ep.outl ++ [e]).drop (s.ep.outl.length + 1 - 3)
      let s := rsetBit (reg .EPOCH_ERR) 2 true (rcount (reg .EPOCH_OUTLIERS) 48 1 { s with ep := { s.ep with outl := os } })
      let s := epochEvent 3 e s
      if outliersAgree os then alignEdge at_ target e { s with ep := { s.ep with outl := [], good := 0 } } else s)

/-- HOLDOVER_ENTRY (R330): 1.5 s without an accepted edge. -/
def execHoldoverEntry (s : State) : Out :=
  .next (
    if s.gate.st = .off || epochAssisted s || epochState s = 0 || epochState s = 3 then s else
    let s := setEpochState 3 (rsetBit (reg .EPOCH_ERR) 0 true { s with ep := { s.ep with phase := 0, good := 0, outl := [] } })
    epochEvent 1 (toSigned 32 (rbits s (reg .EPOCH_PPS_ERR) 31 0)) s)

/-- A write of EPOCH_SET (R331). -/
def writeEpochSet (req : Req) (v : Word) (s : State) : State :=
  if epochAssisted s then stepEpoch v ((epoch s - v).toInt) s
  else recRegRefused req (reg .EPOCH_SET).off v s

/-- EPOCH_SET (R331). -/
def execEpochSet (req : Req) (v : Word) (s : State) : Out := .next (writeEpochSet req v s)

/-! ### A reference cycle (R323, R326, R332, R354) -/

/-- The correction of this cycle: rate and phase terms gathered until they make 1 ns (R326, R328). -/
def correction (s : State) : Int × State :=
  if epochAssisted s then (0, s) else
  let rate := toSigned 32 (rbits s (reg .EPOCH_RATE) 31 0)
  let ph : Int := if s.ep.phase > 0 then min s.ep.phase 500000 else max s.ep.phase (-500000)
  let acc := s.ep.acc + rate - ph
  let c : Int := if acc ≥ 100000000 then 1 else if acc ≤ -100000000 then -1 else 0
  (c, { s with ep := { s.ep with phase := s.ep.phase - ph, acc := acc - c * 100000000 } })

/-- Tiles that have a counter selected. -/
def selectedTiles (s : State) : List Nat :=
  s.regs.filterMap (fun e => if 0x1000000 ≤ e.1 && e.1 < 0x2200000 && e.1 % 0x4000 = 0xA00 then some ((e.1 - 0x1000000) / 0x4000) else none)

/-- Tile cycles of a die in one reference cycle: 10 ns at its clock, stretched periods 1.3 times as long (R354). -/
def dieTick (d : Nat) (s : State) : State :=
  if bit (rget s (reg .ERR_DIE_LOST)) d then s else
  let x := SMap.get ({} : Die) s.gov.dies d
  let acc := SMap.get 0 s.ep.cycAcc d + rbits s (reg .CLK_DIE_F d) 10 0 * (if x.stretch then 10 else 13)
  let n := acc / 1300
  let s := { s with ep := { s.ep with cycAcc := SMap.put 0 s.ep.cycAcc d (acc % 1300), cyc := SMap.put 0 s.ep.cyc d ((SMap.get 0 s.ep.cyc d + n) % 2 ^ 64) } }
  let s := if x.stretch then rcount (reg .CLK_STRETCH_CNT d) 48 n s else s
  ((selectedTiles s).filter (fun t => dieOfTile t == d)).foldl (fun s t =>
    let s := pmcCount t 1 n s
    let s := if x.stretch then pmcCount t 2 n s else s
    match (tileOf s t).seq with | .waiting _ => pmcCount t 6 n s | _ => s) s

/-- One reference-clock cycle: what an empty queue does (log 7). -/
def tick (s : State) : State :=
  if s.gate.st = .off then s else
  let c := correction s
  let s := rset (reg .EPOCH_NOW) (epoch s + BitVec.ofInt 64 (10 + c.1)) { c.2 with ep := { c.2.ep with ref := c.2.ep.ref + 1, target := none } }
  freezeDue ((List.range 4).foldl (fun s d => dieTick d s) s)

end Sys2Proof.Machine
end

