-- ==== Sys2Proof/Machine/Gov.lean ====
section
/-! DEFINITION. The rating governor, AVSBus and catch stretch (R335 to R355). -/

namespace Sys2Proof.Machine
open Sys2Proof

def dieG (s : State) (d : Nat) : Die := SMap.get {} s.gov.dies d
def setDie (d : Nat) (x : Die) (s : State) : State := { s with gov := { s.gov with dies := SMap.put {} s.gov.dies d x } }

/-! ### Operating points (R339) -/

/-- Nodes: MHz and mV. -/
def clockNodes : List (Nat × Nat) := [(600, 550), (700, 560), (800, 575), (900, 590), (1000, 605), (1100, 620), (1200, 680), (1300, 750)]

/-- Voltage of the lowest node whose frequency is not below the clock. -/
def nodeVolt (f : Nat) : Nat := ((clockNodes.find? (fun n => decide (f ≤ n.1))).map (·.2)).getD 750

/-- The next node below and above a clock. -/
def nodeBelow (f : Nat) : Nat := if f ≤ 700 then 600 else (f - 1) / 100 * 100
def nodeAbove (f : Nat) : Nat := min 1300 (f / 100 * 100 + 100)

/-- A multiple of 10 MHz within the operating points (R339). -/
def clipClock (f : Nat) : Nat := max 600 (min 1300 (f / 10 * 10))

def dieClock (s : State) (d : Nat) : Nat := rbits s (reg .CLK_DIE_F d) 10 0
def dieTarget (s : State) (d : Nat) : Nat := rbits s (reg .CLK_DIE_F d) 21 11

/-- Voltage of a clock on die d in mV, trim included (R339). -/
def dieVolt (d f : Nat) : Nat := nodeVolt f + (Config.dieTrim d).val

/-- Voltage last confirmed on die d, and its target (R357). -/
def dieV (s : State) (d : Nat) : Nat := rbits s (reg .CLK_DIE_V d) 9 0
def dieVt (s : State) (d : Nat) : Nat := rbits s (reg .CLK_DIE_V d) 19 10

/-! ### Power predicted and learned (R342, R348, R350) -/

/-- Package power predicted for die d in its dominant phase at a clock, at the voltage of that clock (R344). -/
def predict (s : State) (d f : Nat) : Nat := Config.predictedPower s.fresh d (dieG s d).dom f (dieVolt d f)

/-- Clocks from hi down to 600 MHz in steps of 10. -/
def clocksDown (hi : Nat) : List Nat := (List.range ((hi - 600) / 10 + 1)).map (fun i => hi - 10 * i)

/-- Highest clock whose predicted power is at or below w; 600 MHz where none is. -/
def powerClock (s : State) (d w : Nat) : Nat := ((clocksDown 1300).find? (fun f => decide (predict s d f ≤ w))).getD 600

/-- A ceiling less the margin of GOV_CTL (R342). -/
def lessMargin (s : State) (w : Nat) : Nat := w * (1000 - rbits s (reg .GOV_CTL) 31 24) / 1000

/-- What the governor has learned of a tag on a die (R348). -/
def learnOf (s : State) (d k : Nat) : Learn := SMap.get {} s.gov.learn (d * 16 + k)
def setLearn (d k : Nat) (x : Learn) (s : State) : State := { s with gov := { s.gov with learn := SMap.put {} s.gov.learn (d * 16 + k) x } }

/-- The efficiency choice for a tag on a die: its fixed clock, or the node that the search uses (R348). -/
def tagClock (s : State) (d k : Nat) : Nat :=
  let fix := rbits s (reg .GOV_TAG_FIX k) 10 0
  if fix ≠ 0 then clipClock fix else
  let l := learnOf s d k
  if l.trying then l.node - 100 else l.node

/-- Of each tag sequence that has been seen three times in a row, the shortest first, the last repeat with its oldest occurrence first (R350). -/
def repeats (past : List (Nat × Nat × Nat)) : List (List (Nat × Nat × Nat)) :=
  let tags := past.map (·.1)
  (((List.range 32).map (· + 1)).filter (fun n => decide (3 * n ≤ past.length) && (tags.take (2 * n) == (tags.drop n).take (2 * n)))).map (fun n => (past.take n).reverse)

/-- The last repeat of the shortest of them. -/
def lastRepeat (past : List (Nat × Nat × Nat)) : Option (List (Nat × Nat × Nat)) := (repeats past).head?

/-- Duration (µs) and energy (µJ) of a sequence of occurrences. -/
def seqDur (p : List (Nat × Nat × Nat)) : Nat := sumNat (p.map (·.2.1))
def seqEnergy (p : List (Nat × Nat × Nat)) : Nat := sumNat (p.map (·.2.2))

/-! ### Limits (R342 to R352) -/

/-- The facility budget in force: one written during a shed waits for its end (R346, R355). -/
def budgetOf (s : State) : Nat := if s.gov.shed then s.gov.budget else rbits s (reg .GOV_BUDGET) 11 0

/-- The shed level less the margin (R345). -/
def shedLevel (s : State) : Nat := lessMargin s (rbits s (reg .GATE_SHED) 11 0)

/-- What a shed or a clamp allows die d (R345, R363): its shed clock; once the voltage has fallen to the node of the clock, the highest within the shed
level. -/
def shedLimit (s : State) (d : Nat) : Nat :=
  if dieV s d ≤ dieVolt d (dieClock s d) && decide (dieClock s d ≤ (dieG s d).shedClk) then powerClock s d (shedLevel s) else (dieG s d).shedClk

/-- The bound published at least 1 s earlier for the slot of a moment, with the tolerance (R351). -/
def boundAt (s : State) (now : Nat) : Option Nat :=
  if !bit (rget s (reg .GOV_CTL)) 40 then none else
  (s.gov.fcast.find? (fun p => decide (p.1 + 1000000000 ≤ now))).bind (fun p =>
    let i := (now - p.1) / 100000000
    if i < 100 then some (nth 0 p.2 i + rbits s (reg .GOV_CTL) 51 44) else none)

/-- The bound for the present slot. -/
def forecastBound (s : State) : Option Nat := boundAt s (epoch s).toNat

/-- Before a known fall of power, the power from which the down-ramp still reaches the next phase's in the time that is left (R344). -/
def fallPower (s : State) (d : Nat) : Option Nat :=
  let x := dieG s d
  match lastRepeat x.past with
  | some ((k, dur, _) :: (_, dur2, e2) :: _) =>
    if k = x.tag then some (e2 / max dur2 1 + rbits s (reg .GOV_CTL) 23 12 * (dur - (x.occ + x.candOcc)) / 1000) else none
  | _ => none

/-- Active limits of a die with their rows of R343. -/
def dieLimits (s : State) (d : Nat) : List (Nat × Nat) :=
  let x := dieG s d
  let ceil100 := rbits s (reg .GATE_PWR_CEIL) 11 0
  let budget := budgetOf s
  let tagB := rbits s (reg .GOV_TAG_BUDGET x.dom) 11 0
  (if s.gov.clamp then [(1, x.shedClk)] else []) ++ (if s.gov.shed then [(2, shedLimit s d)] else []) ++
  [(3, powerClock s d (lessMargin s (rbits s (reg .GATE_PWR_CEIL) 27 16))), (4, x.capTherm), (5, x.capHeat)] ++
  (if budget ≠ 0 then [(6, powerClock s d (min budget ceil100))] else []) ++
  [(7, powerClock s d (lessMargin s ceil100))] ++ ((fallPower s d).map (fun w => (8, powerClock s d w))).toList ++
  [(9, if x.hostCap ≠ 0 then min x.capPace (clipClock x.hostCap) else x.capPace)] ++
  ((forecastBound s).map (fun b => (10, powerClock s d b))).toList ++
  (if assist s 5 && tagB ≠ 0 then [(11, powerClock s d tagB)] else [])

/-- The governor chooses in UNDERWAY and EASY only (R339). -/
def governing (s : State) : Bool := outputsOn s && (s.gate.st == .underway || s.gate.st == .easy)

/-- The least of limits. -/
def leastLimit (ls : List (Nat × Nat)) : Nat := ls.foldl (fun m l => min m l.2) 1300

/-- The clock that the limits and the efficiency choice, a node lower while a catch stretch is sustained, give a die, and the cause that sets it,
0 the efficiency choice (R343, R354). -/
def wantedClock (s : State) (d : Nat) : Nat × Nat :=
  let c := min (tagClock s d (dieG s d).dom) (dieG s d).capStretch
  let ls := dieLimits s d
  let m := leastLimit ls
  if c ≤ m then (c, 0) else (m, ((ls.filter (fun l => l.2 == m)).map (·.1)).foldl min 15)

/-- What a ramp limit in W per ms allows since the governor's last change, a share of it for each die that stands (R344). -/
def rampShare (s : State) (perMs : Nat) : Nat :=
  perMs * ((epoch s).toNat - s.gov.changedAt) / (1000000 * max 1 ((List.range 4).filter (fun d => !dieGone s d)).length)

/-- The clock that a die should run at and its cause: the wanted one as far as the ramp allows (R343, R344). A rise beyond it goes node by node; a fall
beyond it stops short, but never above the limits of rows 1 to 4. -/
def chosenClock (s : State) (d : Nat) : Nat × Nat :=
  if !governing s then (600, 0) else
  let w := wantedClock s d
  let p0 := (dieG s d).planned
  let up := p0 + rampShare s (rbits s (reg .GOV_CTL) 11 0)
  let down := rampShare s (rbits s (reg .GOV_CTL) 23 12)
  if up < predict s d w.1 then
    ((((clockNodes.map (·.1)).reverse.filter (fun f => decide (f < w.1))).find? (fun f => decide (predict s d f ≤ up))).getD 600, 8)
  else if predict s d w.1 + down < p0 then
    let hard := leastLimit ((dieLimits s d).filter (fun l => decide (l.1 ≤ 4)))
    let f := (((clocksDown (dieTarget s d)).reverse.filter (fun f => decide (w.1 ≤ f))).find? (fun f => decide (p0 ≤ predict s d f + down))).getD (dieTarget s d)
    if max w.1 (min f hard) = w.1 then w else (min f hard, 8)
  else w

/-- The array duty that a facility budget below the reach of 0.60 GHz needs (R346). -/
def budgetDuty (s : State) (d : Nat) : Nat :=
  let b := budgetOf s
  let w := min b (rbits s (reg .GATE_PWR_CEIL) 11 0)
  if governing s && b ≠ 0 && decide (w < predict s d 600) then (Config.dutyFor s.fresh d w).val else 8

/-- Array duty in force: the shed duty while shed or clamped (R345), the budget's (R346), 0 in a trip (R364). -/
def chosenDuty (s : State) (d : Nat) : Nat :=
  if s.gate.trip then 0 else min (if s.gov.shed || s.gov.clamp then (dieG s d).shedDuty else 8) (budgetDuty s d)

/-- Set a die's voltage target; a new one is not confirmed yet. -/
def setVolt (d mv : Nat) (s : State) : State :=
  if dieVt s d = mv then s else setDie d { dieG s d with settled := false } (rsetBits (reg .CLK_DIE_V d) 19 10 mv s)

/-- Set a die's target clock (R340): the voltage target rises before the clock does, and falls no lower than the clock that still runs needs. -/
def setTarget (d f : Nat) (s : State) : State :=
  let s := rsetBits (reg .CLK_DIE_F d) 21 11 f s
  if f > dieClock s d then setVolt d (dieVolt d f) s else setVolt d (min (dieVt s d) (dieVolt d (dieClock s d))) s

/-- Re-evaluate one die: target, duty, planned power; whether the target changed. -/
def retargetDie (d f : Nat) (s : State) : State :=
  let u := chosenDuty s d
  let s := if u < 8 && !s.gate.trip then rsetBit (reg .GOV_ERR) 1 true s else s
  let low := decide (u < rbits s (reg .CLK_DIE_F d) 27 24)
  let s := if dieTarget s d = f then s else { s with gov := { s.gov with changedAt := (epoch s).toNat } }
  let s := rsetBits (reg .CLK_DIE_F d) 27 24 u (setTarget d f s)
  let s := setDie d { dieG s d with planned := predict s d f } s
  if low then { s with gov := { s.gov with lowered := true } } else s

/-- Re-evaluate every die (R343): targets, duties, the limiting cause. -/
def retarget (s : State) : State :=
  let cs := ((List.range 4).filter (fun d => !dieGone s d)).map (fun d => (d, chosenClock s d))
  let low := cs.foldl (fun m c => min m c.2.1) 1300
  let cause := ((cs.filter (fun c => c.2.1 == low)).map (·.2.2)).foldl min 15
  let s := cs.foldl (fun s c => retargetDie c.1 c.2.1 s) s
  rsetBits (reg .GOV_STATE) 4 0 (cause % 16 + b2n s.gov.shed * 16) { s with fresh := s.fresh + 1 }

/-- Outside UNDERWAY and EASY every die is held at 0.60 GHz and 0.55 V plus trim (R339). -/
def holdClocks (s : State) : State := retarget s

/-! ### Power samples and the clamp (R341, R344, R363) -/

/-- A die's estimate as calibrated against its rail's current (R341). -/
def calibrated (x : Die) (w : Nat) : Nat := match x.gain with | some (m, e) => w * m / max 1 e | none => w

/-- Mean of the newest n samples, or of those there are. -/
def meanOf (n : Nat) (ws : List Nat) : Nat := sumNat (ws.take n) / max 1 (min n ws.length)

/-- POWER_SAMPLE (R341): the estimates of the dies, and those of stack, link and controller activity, make one sample; the averages are over 10 µs, 2 ms and 100 ms of samples. A fall
beyond the down-ramp that no lowered clock or duty explains is counted (R344). -/
def execPowerSample (dies : List Nat) (stackW linkW ctrlW : Nat) (s : State) : Out :=
  .next (
    if s.gate.st = .off then s else
    let live := (List.range 4).filter (fun d => !dieGone s d)
    let a := stackW + linkW + ctrlW + sumNat (live.map (fun d => calibrated (dieG s d) (nth 0 dies d)))
    let s := live.foldl (fun s d => setDie d { dieG s d with est := nth 0 dies d } s) s
    let old := s.gov.samples.headD a
    let fell := !s.gov.lowered && decide ((old - a) * 100 > rbits s (reg .GOV_CTL) 23 12)
    let ws := (a :: s.gov.samples).take 10000
    let avg2 := meanOf 200 ws
    let avg100 := meanOf 10000 ws
    let s := { s with gov := { s.gov with samples := ws, lowered := false, slotSum := s.gov.slotSum + a, slotNo := s.gov.slotNo + 1 } }
    let s := rset (reg .GOV_PWR) (w64 (a % 65536 + (avg2 % 65536) * 2 ^ 16 + (avg100 % 65536) * 2 ^ 32)) s
    let s := if fell then event 0x0A01 0xFF 0 (w64 2) (w64 0xFF) (rsetBit (reg .GOV_ERR) 0 true (rcount (reg .GOV_RAMP_EXCEED) 48 1 s)) else s
    let above := decide (avg2 > rbits s (reg .GATE_PWR_CEIL) 27 16) || decide (avg100 > rbits s (reg .GATE_PWR_CEIL) 11 0)
    let s := if above && !s.gov.clamp then
        event 0x0202 0xFF 0 (w64 (avg2 % 65536 + (avg100 % 65536) * 2 ^ 16)) 0#64 (rcount (reg .GATE_PWR_CLAMPS) 48 1 { s with gov := { s.gov with clamp := true } })
      else s
    retarget s)

/-- CLAMP_END (R363): both averages have stayed at least 5 % below their ceilings. -/
def execClampEnd (s : State) : Out :=
  .next (
    if s.gov.clamp && decide (rbits s (reg .GOV_PWR) 31 16 * 100 ≤ rbits s (reg .GATE_PWR_CEIL) 27 16 * 95) &&
        decide (rbits s (reg .GOV_PWR) 47 32 * 100 ≤ rbits s (reg .GATE_PWR_CEIL) 11 0 * 95)
    then retarget { s with gov := { s.gov with clamp := false } } else s)

/-! ### AVSBus (R338, R340) -/

/-- AVS_CURRENT_READ (R338, R341): currents in A by die; the power they make at the confirmed voltage calibrates the estimate of the last sample, and
those that follow. -/
def execAvsCurrentRead (amps : List Nat) (s : State) : Out :=
  .next (
    if s.gate.st = .off then s else
    (List.range 4).foldl (fun s d => if dieGone s d then s else setDie d { dieG s d with amps := nth 0 amps d, gain := some (nth 0 amps d * dieV s d / 1000, (dieG s d).est) } s) s)

/-- VOLTAGE_SETTLED (R338): a voltage that reads back more than 10 mV off its target is a fault too. -/
def execVoltageSettled (die mv : Nat) (fault : Bool) (s : State) : Out :=
  .next (
    if die ≥ 4 || dieGone s die || s.gate.st = .off then s else
    let tgt := dieVt s die
    if fault || (mv - tgt) + (tgt - mv) > 10 then
      event 0x0A01 die 0 (w64 3) (w64 die) (rsetBit (reg .GOV_ERR) 3 true (setDie die { dieG s die with avsFault := true } s))
    else rsetBits (reg .CLK_DIE_V die) 9 0 mv (setDie die { dieG s die with avsFault := false, settled := true } s))

/-- A rise may go ahead: no clamp, no AVSBus fault, and the change to the voltage of the target is complete (R338, R340, R355, R363). -/
def mayRaise (s : State) (d : Nat) : Bool :=
  !s.gov.clamp && !(dieG s d).avsFault && (dieG s d).settled && decide (dieVolt d (dieTarget s d) ≤ dieVt s d)

/-- A die's clock falls (R340): the voltage target follows when the target clock is reached. -/
def lowerClock (d f : Nat) (s : State) : State :=
  let s := rsetBits (reg .CLK_DIE_F d) 10 0 f { s with gov := { s.gov with lowered := true } }
  if f = dieTarget s d then setVolt d (dieVolt d f) s else s

/-- FREQUENCY_STEP (R340, R355): at most 100 MHz, not during a stretch. -/
def execFrequencyStep (die : Nat) (s : State) : Out :=
  .next (
    if die ≥ 4 || dieGone s die || (dieG s die).stretch || s.gate.st = .off then s else
    let f := dieClock s die
    let tg := dieTarget s die
    if tg < f then lowerClock die (max tg (f - 100)) s
    else if f < tg && mayRaise s die then rsetBits (reg .CLK_DIE_F die) 10 0 (min tg (f + 100)) s
    else s)

/-- A thermal trip forces a die to 0.60 GHz, and its voltage follows (R339, R340, R364). -/
def tripClock (d : Nat) (s : State) : State := lowerClock d 600 (rsetBits (reg .CLK_DIE_F d) 21 11 600 s)

/-! ### Tags and learning (R348, R349) -/

/-- Learn from one occurrence of tag k at the clock that it ran at (R348): recorded there; three at the adopted node have the next try the node
below; a trial that lasts no longer than the slack allows and takes less energy is adopted, any other ends the search; one at the adopted node that
exceeds its record by more than the slack is a change of workload and restarts it. -/
def learnOcc (s : State) (d k f dur e : Nat) : Learn :=
  let l := learnOf s d k
  let slack := 1000 + rbits s (reg .GOV_CTL) 39 32
  let r := SMap.get (0, 0, 0) l.recs f
  let l' := { l with recs := SMap.put (0, 0, 0) l.recs f (r.1 + 1, dur, e) }
  let here := SMap.get (0, 0, 0) l.recs l.node
  if l.trying && f + 100 = l.node then
    if dur * 1000 ≤ here.2.1 * slack && e < here.2.2 then { l' with node := f, trying := false }
    else { l' with trying := false, final := true }
  else if f ≠ l.node then l'
  else if r.1 > 0 && dur * 1000 > r.2.1 * slack then {}
  else { l' with trying := l.trying || (decide (r.1 + 1 ≥ 3) && !l.final && decide (l.node > 600)) }

/-- Write a tag's line of the mirror (R349). -/
def govMirror (k : Nat) (s : State) : State :=
  let m := rget s (reg .GOV_MIRROR)
  if !bit m 0 then s else
  let a := bits m 47 8 * 256 + k * 16
  if !stkPresent s a || stackLost s (physStack (physOf s (backing s false a))) then rsetBit (reg .GOV_ERR) 4 true s
  else stkWrite .engine a (cleanBytes (leBytes 2 (rbits s (reg .GOV_TAG k) 10 0) ++ leBytes 1 (rbits s (reg .GOV_TAG k) 13 12) ++ List.replicate 13 0#8)) s

/-- Show a tag's choice, and mirror it where it changes (R349, R356). -/
def showTag (k clk arrays watts : Nat) (s : State) : State :=
  let old := rget s (reg .GOV_TAG k)
  let new : Word := w64 (clk % 2048 + (arrays % 4) * 2 ^ 12 + (watts % 65536) * 2 ^ 16)
  let s := rset (reg .GOV_TAG k) new s
  if bits old 13 0 = bits new 13 0 then s else govMirror k s

/-- Show the clock of tag k on every die, with its arrays and power as they were: a fixed clock, or that of a restarted search (R348, R356). -/
def showClock (k clk : Nat) (s : State) : State := showTag k clk (rbits s (reg .GOV_TAG k) 13 12) (rbits s (reg .GOV_TAG k) 31 16) s

/-- A fixed clock replaces the search for a tag (R348). -/
def showFixed (k : Nat) (s : State) : State :=
  let f := rbits s (reg .GOV_TAG_FIX k) 10 0
  if f = 0 then s else showClock k (clipClock f) s

/-- The forward arrays that the governor allows a tag (R349): where two and three give energies within 1 % of each other, the number whose predicted
power is nearer the mean of the preceding repeat of the tag sequence; else three. -/
def arraysFor (s : State) (d k : Nat) : Nat :=
  match lastRepeat (dieG s d).past with
  | none => 3
  | some p =>
    let two := Config.arrayModel s.fresh k 2
    let three := Config.arrayModel s.fresh k 3
    let mean := seqEnergy p / max 1 (seqDur p)
    let far := fun (w : Nat) => (w - mean) + (mean - w)
    if ((two.1 - three.1) + (three.1 - two.1)) * 100 ≤ max two.1 three.1 && decide (far two.2 < far three.2) then 2 else 3

/-- End the present occurrence of a die (R348), if there was one: learned where it kept one clock, shown, and added to the tag sequence. -/
def closeOcc (d : Nat) (x : Die) (s : State) : State :=
  if x.occ = 0 then s else
  let k := x.tag
  let s := if rbits s (reg .GOV_TAG_FIX k) 10 0 ≠ 0 || x.mixed || x.occClk = 0 then s else setLearn d k (learnOcc s d k x.occClk x.occ x.occE) s
  let s := setDie d { dieG s d with past := ((k, x.occ, x.occE) :: (dieG s d).past).take 96 } s
  showTag k (tagClock s d k) (arraysFor s d k) (x.occE / x.occ) s

/-- The dominant tag of an interval (R348): the most busy cycles, the lowest of several; IDLE where nothing is busy. -/
def dominantTag (tiles : List Nat) (notes colls : Nat) : Nat :=
  let n := fun (k : Nat) => nth 0 tiles k + (if k = 5 then notes else 0) + (if k = 6 then colls else 0)
  (List.range 16).foldl (fun m k => if n m < n k then k else m) 0

/-- The stretched cycles of an interval are judged (R354): more than a quarter lowers the die one node, with an event; else it may go back a node. -/
def judgeStretch (d : Nat) (s : State) : State :=
  let x := dieG s d
  let c := SMap.get 0 s.ep.cyc d
  let t := (rget s (reg .CLK_STRETCH_CNT d)).toNat
  let bad := decide (((t + 2 ^ 48 - x.stretchMark) % 2 ^ 48) * 4 > (c + 2 ^ 64 - x.cycMark) % 2 ^ 64)
  let cap := if bad then nodeBelow (min x.capStretch (dieClock s d)) else nodeAbove x.capStretch
  let s := setDie d { x with cycMark := c, stretchMark := t, sustained := bad, capStretch := cap } s
  if bad then event 0x0A01 d 0 (w64 4) (w64 d) s else s

/-- The present occurrence goes on for an interval (R348): its clock is that of its second interval, if it does not change after. -/
def goOn (d e : Nat) (s : State) : State :=
  let x := dieG s d
  let f := dieClock s d
  setDie d { x with
    occ := x.occ + x.candOcc + 100, occE := x.occE + x.candE + e, candOcc := 0, candE := 0
    occClk := if x.occClk = 0 then f else x.occClk, mixed := x.mixed || (x.occClk != 0 && x.occClk != f) } s

/-- TAG_INTERVAL (R348, R349, R354): busy cycles of a die in 100 µs, by the phase tag of its tiles, of the base-note engines of its two stacks and of its
collective engine. The energy is that of the interval's ten samples. A run shorter than 1 ms joins the run before it. -/
def execTagInterval (die : Nat) (tiles : List Nat) (notes0 notes1 colls : Nat) (s : State) : Out :=
  .next (
    if die ≥ 4 || dieGone s die || !governing s then s else
    let tag := dominantTag tiles (notes0 + notes1) colls
    let e := 10 * sumNat (s.gov.samples.take 10)
    let s := judgeStretch die s
    let x := { dieG s die with dom := tag }
    let s := setDie die x s
    retarget (
      if tag = x.tag then goOn die e s
      else if tag = x.cand && x.candOcc > 0 then
        if x.candOcc + 100 ≥ 1000 then
          closeOcc die x (setDie die { x with tag := tag, occ := x.candOcc + 100, occE := x.candE + e, candOcc := 0, candE := 0, occClk := dieClock s die, mixed := false } s)
        else setDie die { x with candOcc := x.candOcc + 100, candE := x.candE + e } s
      else setDie die { x with occ := x.occ + x.candOcc, occE := x.occE + x.candE, cand := tag, candOcc := 100, candE := e } s))

/-! ### Heat (R343, R347) -/

/-- JUNCTION_SAMPLE (R343): one node down for each 1 ms above the target; one node up for each 1 ms at or below it (log 40). -/
def execJunctionSample (die : Nat) (temps : List Int) (s : State) : Out :=
  .next (
    if die ≥ 4 || dieGone s die || temps.isEmpty then s else
    let hot := temps.foldl max (-273)
    let x := dieG s die
    let above := decide (hot > (rbits s (reg .GOV_TJ) 7 0 : Nat))
    let n := x.thermFor + 1
    let cap := if n < 10 then x.capTherm else if above then nodeBelow (min x.capTherm (dieClock s die)) else nodeAbove x.capTherm
    let restart := n ≥ 10 || above != decide (x.hottest > (rbits s (reg .GOV_TJ) 7 0 : Nat))
    retarget (setDie die { x with hottest := hot, thermFor := if restart then 0 else n, capTherm := cap } s))

/-- STACK_HEAT_THROTTLE (R347): every 100 ms. -/
def execStackHeatThrottle (die : Nat) (s : State) : Out :=
  .next (
    if die ≥ 4 || dieGone s die then s else
    let x := dieG s die
    let step := fun n => rbits s (reg .STK_TEMP n) 9 8
    let late := [2 * die, 2 * die + 1].any (fun n => decide (step n ≥ 2) && decide (SMap.get 0 s.stk.hot n ≥ 100000))
    let cool := [2 * die, 2 * die + 1].all (fun n => decide (step n < 2))
    let cap := if late then max 800 (nodeBelow (min x.capHeat (dieClock s die))) else if cool then nodeAbove x.capHeat else x.capHeat
    retarget (setDie die { x with capHeat := cap } s))

/-! ### Forecast (R350, R351) -/

/-- Energy of the first t µs of a repeated sequence of occurrences (W × µs), each at its learned power. -/
def energyTo (p : List (Nat × Nat × Nat)) (t : Nat) : Nat :=
  t / max 1 (seqDur p) * seqEnergy p +
  (p.foldl (fun (r : Nat × Nat) o => (r.1 - o.2.1, r.2 + o.2.2 * min r.1 o.2.1 / max 1 o.2.1)) (t % max 1 (seqDur p), 0)).2

/-- The limit that the slots are clipped to: the lower of the Gate's 100 ms ceiling and the facility budget (R350). -/
def slotLimit (s : State) : Nat :=
  let c := rbits s (reg .GATE_PWR_CEIL) 11 0
  if budgetOf s = 0 then c else min (budgetOf s) c

/-- The slots from now (R350): mean power of a learned sequence of a die, from where its present occurrence is; the limit until a period has been seen
three times. -/
def forecast (die pick : Nat) (s : State) : List Nat :=
  let x := if dieGone s die then {} else dieG s die
  match (repeats x.past)[pick % (repeats x.past).length]? with
  | none => List.replicate 100 (slotLimit s)
  | some p =>
    let o := min (x.occ + x.candOcc) ((p.head?.map (·.2.1)).getD 0)
    (List.range 100).map (fun i => min (slotLimit s) ((energyTo p (o + (i + 1) * 100000) - energyTo p (o + i * 100000)) / 100000))

/-- FORECAST_PUBLISH (R350, R351): the slot that ends is judged against the bound that held in it, then 100 slots are published from now. The rule does
not say whose sequence is taken, nor which where several repeat: the command names the die and the sequence. -/
def execForecastPublish (die pick : Nat) (s : State) : Out :=
  .next (
    if s.gate.st = .off then s else
    let now := (epoch s).toNat
    let s := match boundAt s (now - 1) with
      | some b => if s.gov.slotNo ≠ 0 && decide (s.gov.slotSum > b * s.gov.slotNo) then rsetBit (reg .GOV_ERR) 2 true s else s
      | none => s
    let ws := forecast die pick s
    let s := rset (reg .GOV_FCAST_EPOCH) (w64 now) { s with gov := { s.gov with fcast := ((now, ws) :: s.gov.fcast).take 12, slotSum := 0, slotNo := 0 } }
    ws.zipIdx.foldl (fun s p => rset (reg .GOV_FCAST p.2) (w64 p.1) s) s)

/-! ### Shed (R345) -/

/-- SHED_REQ_N (R345): the facility budget in force stays so (R355). -/
def execShedReqN (s : State) : Out :=
  .next (
    if s.gate.st = .off then s else
    let s := rcount (reg .GOV_SHED_EVENTS) 48 1 { s with gov := { s.gov with shed := true, budget := budgetOf s } }
    retarget (event 0x0A01 0xFF 0 (w64 1) (w64 0xFF) s))

/-- The shed clock of a die (R345): the highest clock that its present voltage allows, at the power predicted there for an activity and a temperature. -/
def shedClock (s : State) (d act : Nat) (temp : Int) : Nat :=
  let v := dieV s d
  ((clocksDown 1300).find? (fun f => decide (dieVolt d f ≤ v) && decide (Config.activePower s.fresh d act temp f v ≤ shedLevel s))).getD 600

/-- The array duty that a shed needs, where 0.60 GHz does not reach its level (R345). -/
def shedDutyOf (s : State) (d act : Nat) (temp : Int) : Nat :=
  if shedLevel s < Config.activePower s.fresh d act temp 600 (dieV s d) then (Config.dutyFor s.fresh d (shedLevel s)).val else 8

/-- SHED_CLOCK_UPDATE (R345): every 100 µs, at the present activity and temperature of each die. -/
def execShedClockUpdate (acts : List Nat) (temps : List Int) (s : State) : Out :=
  .next (
    if s.gate.st = .off then s else
    retarget (((List.range 4).filter (fun d => !dieGone s d)).foldl (fun s d =>
      setDie d { dieG s d with shedClk := shedClock s d (nth 0 acts d) (nth 0 temps d), shedDuty := shedDutyOf s d (nth 0 acts d) (nth 0 temps d) } s) s))

/-- SHED_END (R345): SHED_REQ_N has been high for 1 ms. -/
def execShedEnd (s : State) : Out := .next (if s.gov.shed then retarget { s with gov := { s.gov with shed := false } } else s)

/-! ### Catch stretch (R353, R354) -/

/-- The die's voltage target less its threshold, `plus` half per cents higher, in µV × 200 (R353, R354). -/
def thrLevel (s : State) (d plus : Nat) : Nat := dieVt s d * 1000 * (200 + plus - rbits s (reg .CLK_DROOP_THR d) 4 0)

/-- CATCH_STRETCH (R353): the detector of a droop region reads a supply in µV below its threshold. -/
def execCatchStretch (trip : Droop) (s : State) : Out :=
  .next (
    let d := trip.region / 26
    if trip.region ≥ 104 || dieGone s d || s.gate.st = .off || decide (thrLevel s d 0 ≤ trip.uv * 200) then s else
    let s := setDie d { dieG s d with stretch := true, holding := false } s
    rsetBit (reg .CLK_DROOP_REGION d) (trip.region - d * 26) true (rcount (reg .CLK_STRETCH_EVT d) 48 1 s))

/-- STRETCH_RECOVERY (R354): the 26 detectors of the die, in µV, are all above the threshold plus 1 %. -/
def execStretchRecovery (seen : Detectors) (s : State) : Out :=
  .next (
    let die := seen.die
    let low := (List.range 26).any (fun r => decide (nth 0 seen.uvs r * 200 ≤ thrLevel s die 2))
    if die < 4 && (dieG s die).stretch && !(dieG s die).holding && !low then setDie die { dieG s die with holding := true } s else s)

/-- STRETCH_END (R354): the cycles since recovery have reached 64, and the hold ends. -/
def execStretchEnd (die cycles : Nat) (s : State) : Out :=
  .next (if (dieG s die).holding && decide (64 ≤ cycles) then setDie die { dieG s die with stretch := false, holding := false } s else s)

end Sys2Proof.Machine
end

