-- ==== Sys2Proof/Machine/Gate.lean ====
section
/-! DEFINITION. The Gate and the resets (R358 to R372): bounds, images, trips, watchdog, cox restarts. -/

namespace Sys2Proof.Machine
open Sys2Proof

/-! ### Entering and leaving HOLD -/

/-- Enter HOLD: outputs drop, links are held, clocks fall back (R366, R368, R369). -/
def goHold (cause : Nat) (s : State) : State :=
  let on := outputsOn s
  let s := enterHold cause s
  retarget (if on then holdLinks s else s)

/-- GATE_STAT (R361): the Gate's state as one word. -/
def gateStat (s : State) : Word :=
  let g := s.gate
  w64 (g.st.code + b2n (outputsOn s) * 2 ^ 3 + b2n g.coxValid * 2 ^ 4 + b2n g.checkOk * 2 ^ 5 + b2n g.trip * 2 ^ 6 + b2n g.intake * 2 ^ 7 +
    g.cause * 2 ^ 8 + b2n g.image * 2 ^ 12 + b2n g.frozen * 2 ^ 13)

/-- GATE_WINDOW (R361): ms of the always-on oscillator left, at its nominal rate (log 41). -/
def gateWindow (s : State) : Word := if s.gate.open_ then w64 (10000 - s.ep.ref / 100000) else 0#64

/-! ### Gate-write messages (R359, R432) -/

/-- A value a GL register may take, given the others in force (R361). -/
def glRangeOk (s : State) (n : RegName) (v : Word) : Bool :=
  let c100 := bits v 11 0
  let c2 := bits v 27 16
  let within := fun (a x b : Nat) => decide (a ≤ x) && decide (x ≤ b)
  match n with
  | .GATE_PWR_CEIL => within 400 c100 1500 && within c100 c2 1650 && decide (rbits s (reg .GATE_SHED) 11 0 ≤ c100)
  | .GATE_SHED => within 300 c100 (rbits s (reg .GATE_PWR_CEIL) 11 0)
  | .GATE_TRIP => within 95 (bits v 7 0) 105 && within 106 (bits v 15 8) 115
  | .GATE_WDOG => within 10 (bits v 13 0) 10000
  | _ => true

/-- The completion code of a Gate-write message (R432). -/
def gateWriteCode (s : State) (off : Nat) (v : Word) : Nat :=
  match (if off < 0x10000 then regAt off else none) with
  | none => 3
  | some (n, _, _) =>
    let m := (regInfo n).gl
    if m = 0#64 then 3 else if !s.gate.open_ then 1 else if v &&& ~~~m ≠ 0#64 || !glRangeOk s n v then 2 else 0

/-- Answer on the management port. -/
def reply (bs : List Byte) (s : State) : State := { s with ports := { s.ports with reply := bs } }

/-- Close the gate-open window (R358). -/
def closeWindow (byTimeout : Bool) (s : State) : State :=
  rsetBit (reg .GATE_LOCK) (b2n byTimeout) true { s with gate := { s.gate with open_ := false } }

/-- A Gate-write message: it takes effect whole, or is refused and counted (R359). -/
def gateWrite (off : Nat) (v : Word) (s : State) : State :=
  let c := gateWriteCode s off v
  if c ≠ 0 then reply [BitVec.ofNat 8 c] (event 0x0201 0xFF 0 (w64 1) (w64 (off % 65536)) (rcount (reg .GATE_GL_REFUSED) 48 1 s))
  else
    let s := if off = 0 then (if bit v 0 then closeWindow false s else s)
      else match regAt off with
        | some (n, i, j) => rset (reg n i j) v s
        | none => s
    reply [0#8] s

/-- The management port takes PLDM and vendor messages: the device is powered and has an endpoint ID (R431). -/
def mgmtReady (s : State) : Bool := s.gate.st != .off && rbits s (reg .MGMT_STAT) 15 8 != 0

/-- GATE_WRITE (R359). -/
def execGateWrite (off : Nat) (v : Word) (s : State) : Out := .next (if mgmtReady s then gateWrite off v s else s)

/-- GATE_LOCK (R358): a Gate-write of 1 to GATE_LOCK. -/
def execGateLock (s : State) : Out := .next (if mgmtReady s then gateWrite 0 1#64 s else s)

/-- GATE_WINDOW_TIMEOUT (R358). -/
def execGateWindowTimeout (s : State) : Out := .next (if s.gate.st != .off && s.gate.open_ then closeWindow true s else s)

/-! ### Images (R360, R371, R372, R435) -/

/-- An image's digest is allowed: in a valid slot, or, with none valid, equal to its header's (R360). -/
def digestAllowed (s : State) (digest header : Word) : Bool :=
  let v := rbits s (reg .GATE_DIGEST_VALID) 7 0
  if v = 0 then digest == header else (List.range 8).any (fun k => v.testBit k && rget s (reg .GATE_DIGEST k) == digest)

/-- The Gate has read an image: digest, header digest and version are kept, the slot's validity shown (R361, R440). -/
def imageRead (img : Bool) (digest header : Word) (version : Nat) (s : State) : State :=
  let i := b2n img
  let s := rset (reg .GATE_IMG_DIGEST i) digest s
  let s := rsetBit (reg .FLASH_STAT) i (digest == header) s
  { s with gate := { s.gate with digests := SMap.set s.gate.digests i header }, ports := { s.ports with versions := SMap.put 0 s.ports.versions i version } }

/-- Count and report a refused image (R361, R410). -/
def imageRefused (img : Bool) (s : State) : State :=
  event 0x0201 0xFF 0 (w64 3) (w64 (b2n img)) (rcount (reg .GATE_IMG_REFUSED) 48 1 s)

/-- BOOT_IMAGE_CHECK (R371): the first image is the one GATE_POLICY bit 2 names. -/
def execBootImageCheck (digest header : Word) (version : Nat) (s : State) : Out :=
  .next (
    if s.gate.st != .dry || s.gate.boot > 1 then s else
    let img := bit (rget s (reg .GATE_POLICY)) 2 != (s.gate.boot == 1)
    let s := imageRead img digest header version s
    if digestAllowed s digest header then { s with gate := { s.gate with boot := 2, image := img } }
    else imageRefused img { s with gate := { s.gate with boot := if s.gate.boot = 0 then 1 else 3 } })

/-- Raise vector 63 when MBX_STAT bit 0 or 1 changes (R428). -/
def intakeChanged (old : State) (s : State) : State :=
  if old.gate.intake == s.gate.intake && old.gate.switching.isSome == s.gate.switching.isSome then s else msixRaise 63 s

/-- The switch of a cox-only reset begins (R372): cause 1 command, 2 watchdog, 3 lockstep. -/
def beginSwitch (img : Bool) (cmd : Option CmdRef) (cause : Nat) (s : State) : State :=
  let old := s
  let s := { s with gate := { s.gate with switching := some (img, cmd), staging := none, intake := true, image := img } }
  intakeChanged old (event 0x0C01 0xFF 0 (w64 cause) (w64 (b2n img)) (rcount (reg .GATE_COX_RESTARTS) 48 1 s))

/-- STAGING_COMPLETE (R372). -/
def execStagingComplete (digest header : Word) (version : Nat) (s : State) : Out :=
  .next (
    match s.gate.staging with
    | none => s
    | some (img, cmd) =>
      let s := imageRead img digest header version { s with gate := { s.gate with staging := none } }
      if digestAllowed s digest header then beginSwitch img cmd (if cmd.isSome || s.ports.activating then 1 else 2) s
      else
        let s := finishOpt cmd stIMAGE_REFUSED 0 0#64 (imageRefused img s)
        if s.ports.activating then reply [1#8] { s with ports := { s.ports with activating := false } } else s)

/-- The frames of every ring that waited for a switch to end follow (R372). -/
def flushAll (s : State) : State := (List.range 8).foldl (fun s c => cplFlush c (SMap.get [] s.cox.held c).length s) s

/-- COX_SWITCH_END (R372): commands are served again, frames that waited are posted; after a watchdog restart intake waits for the first toggle
(R370). The answer to an activation follows the switch (R435). -/
def execCoxSwitchEnd (s : State) : Out :=
  .next (
    match s.gate.switching with
    | none => s
    | some (_, cmd) =>
      let t := { s with gate := { s.gate with switching := none, intake := cmd.isNone && !s.ports.activating, boot := 2 } }
      let t := finishOpt cmd stOK 0 0#64 (flushAll (intakeChanged s t))
      if t.ports.activating then reply [0#8] { t with ports := { t.ports with activating := false } } else t)

/-! ### Watchdog and lockstep (R370, R409) -/

/-- A miss (R370): intake held, restart into the running image, then into the other one, then no more. -/
def wdogMiss (within1s : Bool) (cmd : Option CmdRef) (s : State) : State :=
  let n := if within1s then s.gate.misses + 1 else 1
  let old := s
  let img := if n = 2 then !s.gate.image else s.gate.image
  let s := { s with gate := { s.gate with misses := n, intake := true } }
  let s := event 0x0204 0xFF 0 (w64 n) (w64 (b2n img)) (rcount (reg .GATE_WDOG_MISS) 48 1 (intakeChanged old s))
  if n = 1 then beginSwitch img cmd 2 s
  else if n = 2 then { s with gate := { s.gate with staging := some (img, cmd) } }
  else s

/-- WATCHDOG_MISS (R370): the watchdog is suspended during a switch (R372). -/
def execWatchdogMiss (within1s : Bool) (s : State) : Out :=
  .next (if s.gate.st = .off || s.gate.boot ≠ 2 || s.gate.switching.isSome then s else wdogMiss within1s none s)

/-- SWITCH_TIMEOUT (R372): a switch of more than 60 ms counts as a miss. -/
def execSwitchTimeout (s : State) : Out :=
  .next (
    match s.gate.switching with
    | none => s
    | some (_, cmd) => wdogMiss (decide (s.gate.misses > 0)) cmd { s with gate := { s.gate with switching := none } })

/-- WATCHDOG_TOGGLE (R370): the first toggle of a restarted cox ends the hold, but for a third miss. -/
def execWatchdogToggle (s : State) : Out :=
  .next (
    if s.gate.intake && s.gate.switching.isNone && s.gate.staging.isNone && s.gate.misses < 3 then
      intakeChanged s { s with gate := { s.gate with intake := false } }
    else s)

/-- COX_LOCKSTEP_DISAGREEMENT (R409): a cox-only reset into the running image. -/
def execCoxLockstepDisagreement (s : State) : Out :=
  .next (if s.gate.st = .off || s.gate.boot ≠ 2 || s.gate.switching.isSome then s else beginSwitch s.gate.image none 3 s)

/-! ### Trips and the ceiling (R363, R364) -/

/-- THERMAL_TRIP (R364): a junction sensor (die × 16 + sensor) or a stack sensor at its trip temperature. -/
def execThermalTrip (stackSensor : Bool) (index : Nat) (temp : Int) (s : State) : Out :=
  .next (
    let lim := if stackSensor then rbits s (reg .GATE_TRIP) 15 8 else rbits s (reg .GATE_TRIP) 7 0
    if s.gate.st = .off || s.gate.trip || decide (temp < (lim : Nat)) || index ≥ (if stackSensor then 8 else 64) then s else
    let die := if stackSensor then index / 2 else index / 16
    let on := outputsOn s
    let s := if stackSensor then rsetBits (reg .STK_TEMP index) 7 0 (ofSigned 8 temp) s
      else setDie die { dieG s die with hottest := max temp (dieG s die).hottest } s
    let s := { s with gate := { s.gate with trip := true, thermLow := bit (rget s (reg .GATE_POLICY)) 1 } }
    let s := rcount (reg .GATE_TRIPS) 48 1 s
    let a := b2n stackSensor + (if stackSensor then index else index % 16) * 2 ^ 8 + ofSigned 16 temp * 2 ^ 16
    let s := event 0x0203 die (if stackSensor then index else 0) (w64 a) 0#64 s
    let held := [DevState.rigged, .underway, .easy].contains s.gate.st || (s.gate.st == .moored && s.cox.lock.isSome)
    let s := if held then enterHold (if stackSensor then 4 else 3) s else s
    let s := retarget (if on then holdLinks s else s)
    ((List.range 4).filter (fun d => !dieGone s d)).foldl (fun s d => tripClock d s) s)

/-- CEILING_BREACH (R363): the 100 ms average is still above its ceiling after 1 s of clamping. -/
def execCeilingBreach (s : State) : Out :=
  .next (
    if s.gov.clamp && decide (rbits s (reg .GOV_PWR) 47 32 > rbits s (reg .GATE_PWR_CEIL) 11 0) &&
        [DevState.rigged, .underway, .easy].contains s.gate.st then goHold 5 s
    else s)

/-! ### Cold and warm resets (R371) -/

/-- Everything cleared (R371): what the host holds in its own memory and the commands that wait are not the device's. -/
def clearAll (s : State) : State :=
  { pending := s.pending, fresh := s.fresh, cox := { hostMem := s.cox.hostMem, slots := s.cox.slots } }

/-- A cold reset from a device state (R371, R436): the window opens; a flash without octal DTR sets FLASH_ERR bit 2. -/
def coldReset (octal : Bool) (cause : Nat) (s : State) : State :=
  let old := s.gate.st
  let s := clearAll s
  let s := setDev .dry cause { s with gate := { s.gate with st := old } }
  if octal then s else rsetBit (reg .FLASH_ERR) 2 true s

/-- POWER_GOOD (R368). -/
def execPowerGood (octal : Bool) (s : State) : Out := .next (if s.gate.st = .off then coldReset octal 16 s else s)

/-- COLD_RST_N (R371). -/
def execColdRstN (octal : Bool) (s : State) : Out := .next (if s.gate.st = .off then s else coldReset octal 24 s)

/-- RAIL_LOSS (R368): the device is off and holds nothing. -/
def execRailLoss (s : State) : Out :=
  .next (let s := clearAll s; { s with gate := { s.gate with st := .off } })

/-- Registers that a warm reset keeps: the always-on domain's, those that count since the cold reset, what stays a fact of the part. -/
def warmKeeps (s : State) (o : Nat) : Bool :=
  decide (o < 0x10000) ||
  (match regAt o with
   | some (n, i, _) => [RegName.MGMT_STAT, .FLASH_STAT, .FLASH_ERR, .ERR_COUNT, .ERR_PORT_LOST, .ERR_DIE_LOST, .TSC_ADV, .PMC_FREEZE_SEQ, .BLT_ZERO, .BLT_SAT, .BLT_NONFIN, .BLT_TOTAL, .TILE_MAP, .CLK_DIE_V].contains n ||
      (n == .TILE_STATE && tileState s i == 4)
   | none => false)

/-- A register as a warm reset leaves it: of TILE_STATE only ABSENT stays (R45, R371). -/
def warmValue (o : Nat) (v : Word) : Word :=
  match regAt o with
  | some (.TILE_STATE, _, _) => w64 (bits v 2 0)
  | _ => v

/-- A warm reset (R371): committing groups flip, combining buffers are written out, then every domain but the always-on one resets. -/
def warmReset (s : State) : State :=
  let s := (List.range 16).foldl (fun s g => if cgState s g = 1 then commitFlip g s else s) s
  let g := s.gate
  let old := s
  let s : State := {
    pending := s.pending, fresh := s.fresh, regs := (s.regs.filter (fun e => warmKeeps old e.1)).map (fun e => (e.1, warmValue e.1 e.2))
    stk := { mem := s.stk.mem, flips := s.stk.flips, poison := s.stk.poison, remap := s.stk.remap, badSpare := s.stk.badSpare, redirect := s.stk.redirect, pages := s.stk.pages, withdrawn := s.stk.withdrawn, gone := s.stk.gone }
    blt := { kept := s.blt.kept }
    ep := { cyc := s.ep.cyc, cycAcc := s.ep.cycAcc, ref := s.ep.ref }
    gate := { st := g.st, open_ := g.open_, boot := g.boot, trip := g.trip, thermLow := g.thermLow, cause := g.cause, image := g.image, staging := g.staging.map (fun p => (p.1, none)), digests := g.digests, buf := g.buf }
    cox := { hostMem := s.cox.hostMem, slots := s.cox.slots }
    rec_ := { port := s.rec_.port, sent := s.rec_.sent }
    ports := { s.ports with rdata := [], rpoison := false, msixPend := [], msixHold := [], msixMerged := [], ready := false }
    passThrough := s.passThrough, retired := s.retired }
  let s := (List.range 4).foldl (fun s d => rsetBits (reg .CLK_DIE_V d) 19 10 (550 + (Config.dieTrim d).val) s) s
  setDev .dry 25 s

/-- WARM_RST_N (R371). -/
def execWarmRstN (s : State) : Out := .next (if s.gate.st = .off then s else warmReset s)

/-- WARM_RESET (R394): posts OK; the reset it starts is part of its effect. -/
def execWarmReset (ring : Nat) (f : Frame) (s : State) : Out :=
  .next (serve ring 0x0902 f {} (fun r s => warmReset (postFrame r stOK 0 0#64 s)) s)

/-- STARTUP_TESTS_COMPLETE (R368): an image runs and its start-up tests are complete; usable stack memory is shown (R243). -/
def execStartupTestsComplete (s : State) : Out :=
  .next (
    if s.gate.st != .dry || s.gate.boot ≠ 2 then s
    else showReserve (sumNat (s.stk.pages.map (·.2))) s.stk.gone.length (setDev .moored 17 s))

/-! ### PCIe resets (R371, R429) -/

/-- Registers of the MBX block that a PCIe reset clears: ring registrations and the endpoint's own. -/
def pcieClears (o : Nat) : Bool :=
  decide (0x10000 ≤ o) && decide (o < 0x20000) &&
  ((decide (0x11000 ≤ o) && decide (o < 0x11800)) ||
   (match regAt o with
    | some (n, _, _) => [RegName.MBX_CMD_BASE, .MBX_CMD_CFG, .MBX_CMD_HEAD, .MBX_CMD_STAT, .MBX_CPL_BASE, .MBX_CPL_CFG, .MBX_CPL_TAIL, .PCIE_LINK, .PCIE_BAR2_BASE, .PCIE_BAR2_SIZE, .PCIE_ERR].contains n
    | none => false))

/-- A PCIe reset: completions are held until the host registers its rings again (R371, R382). -/
def pcieReset (s : State) : State :=
  if s.gate.st = .off then s else
  { s with
    regs := s.regs.filter (fun e => !pcieClears e.1)
    cox := { s.cox with tails := [], stopped := [], cplHead := [], cplUsed := [], phase := [], unreg := (List.range 8).map (fun c => (c, true)) }
    ports := { s.ports with rdata := [], rpoison := false, msixPend := [], msixHold := [], msixMerged := [], ready := false } }

/-- PERST_N (R371). -/
def execPerstN (s : State) : Out := .next (pcieReset s)
/-- HOT_RESET (R371): a hot reset or link disable from the host. -/
def execHotReset (s : State) : Out := .next (pcieReset s)
/-- FUNCTION_LEVEL_RESET (R429): the scope of the PCIe reset. -/
def execFunctionLevelReset (s : State) : Out := .next (pcieReset s)

/-- PCIE_LINK_UP (R429, R440): rate and width as PCIE_LINK codes them. -/
def execPcieLinkUp (rate width : Nat) (flitMode : Bool) (s : State) : Out :=
  .next (
    if s.gate.st = .off || rate = 0 || rate > 3 then s else
    rset (reg .PCIE_LINK) (w64 (rate + (width % 32) * 2 ^ 2 + b2n flitMode * 2 ^ 7 + 2 ^ 8)) { s with ports := { s.ports with ready := true } })

/-- PCIE_LINK_DOWN (R440). -/
def execPcieLinkDown (s : State) : Out :=
  .next (
    if !bit (rget s (reg .PCIE_LINK)) 8 then s
    else rsetBit (reg .PCIE_ERR) 2 true (rsetBit (reg .PCIE_LINK) 8 false { s with ports := { s.ports with ready := false } }))

end Sys2Proof.Machine
end

