-- ==== Sys2Proof/Machine/Commit.lean ====
section
/-! DEFINITION. The configuration: its checks, its commit through the Gate, the commands that build it, and the fabric commands
that change roles and routes (R224, R278, R298, R299, R302, R303, R365 to R367, R385 to R392). -/

namespace Sys2Proof.Machine
open Sys2Proof

/-! ### Reading a configuration (R385) -/

/-- A copy of the configuration: bytes by offset. -/
abbrev CfgBytes := SMap Byte

/-- Bytes of a configuration. -/
def cfgLen : Nat := 960

def cfgAll (m : CfgBytes) : List Byte := SMap.getList 0#8 m 0 cfgLen
def cfgWord (m : CfgBytes) (o : Nat) : Word := leWord (SMap.getList 0#8 m o 8)
def cfgByte (m : CfgBytes) (o : Nat) : Nat := (SMap.get 0#8 m o).toNat

/-- Group size of dimension d. -/
def cfgSize (m : CfgBytes) (d : Nat) : Nat := cfgByte m (0x43 + d)

/-- Role of the spare of dimension d. -/
def cfgRole (m : CfgBytes) (d : Nat) : Option Nat :=
  let w := cfgWord m 0x90
  if bit w (8 * d + 4) then some (bits w (8 * d + 3) (8 * d)) else none

/-- Heat-slice members. -/
def cfgHeat (m : CfgBytes) (t : Nat) : Bool := (cfgByte m (0x140 + t / 8)).testBit (t % 8)

/-! ### The checks of R365 -/

/-- Fields that R385 does not list are 0 (code 0x01): the bits of word k that a section may set. -/
def cfgMask (o : Nat) : Word :=
  if o = 0 then 0xFFFFFFFF#64
  else if o = 0x40 then 0xFFFFFFFFFFFF#64
  else if o = 0x80 || o = 0x88 then 0xFFFFFFFFFFFF#64
  else if o = 0x90 then 0x1F1F1F#64
  else if o = 0xC0 || o = 0xC8 then maskAll
  else if o = 0x100 then 0xFF0FFF#64
  else if 0x140 ≤ o && o < 0x1D0 then maskAll
  else if 0x200 ≤ o && o < 0x220 then 0xFFFFFFF7FF#64
  else if 0x240 ≤ o && o < 0x340 then (if o % 16 = 0 then 0x7FFFFE0001#64 else 0x3F#64)
  else if 0x340 ≤ o && o < 0x3C0 then 0xFFFFFF1#64
  else 0#64

/-- Code 0x01. -/
def formatOk (m : CfgBytes) : Bool :=
  cfgByte m 0 + 256 * cfgByte m 1 == 2 && cfgByte m 2 + 256 * cfgByte m 3 == cfgLen &&
  (List.range 120).all (fun k => cfgWord m (8 * k) &&& ~~~(cfgMask (8 * k)) == 0#64)

/-- Code 0x02. -/
def digestOk (s : State) (m : CfgBytes) (digest : Word) : Bool :=
  let d := shortDigest (cfgAll m)
  d == digest && (!bit (rget s (reg .GATE_POLICY)) 0 || d == rget s (reg .GATE_CFG_PIN))

/-- Code 0x03 (R278, R279): the ports of the rule, and spares in a role. -/
def fabricOk (m : CfgBytes) : Bool :=
  let en := cfgWord m 0x80
  (List.range 3).all (fun d =>
    let n := cfgSize m d
    decide (1 ≤ n) && decide (n ≤ 16) && decide (cfgByte m (0x40 + d) < n) &&
    bits en (16 * d + 14) (16 * d) == portMask n &&
    (match cfgRole m d with
     | some j => decide (j < 15) && bit en (16 * d + 15)
     | none => !bit en (16 * d + 15)))

/-- Code 0x04. -/
def linksOk (s : State) (m : CfgBytes) : Bool :=
  let en := cfgWord m 0x80
  (en &&& ~~~(rget s (reg .GATE_LINK_MASK))) == 0#64 &&
  (!bit (rget s (reg .GATE_LANE_RATE)) 0 || (en &&& ~~~(cfgWord m 0x88)) == 0#64)

/-- Code 0x05. -/
def heatOk (s : State) (m : CfgBytes) : Bool :=
  let ts := (List.range numTiles).filter (cfgHeat m)
  decide (ts.length ≤ 128) && ts.length % 8 == 0 && ts.all (fun t => tileState s t == 0)

/-- Code 0x06 (R302, R321): the staging set of each engine that is not lost. -/
def stagingOk (s : State) (m : CfgBytes) : Bool :=
  (List.range 4).all (fun d =>
    let w := cfgWord m (0x200 + 8 * d)
    let t := bits w 10 0
    let n := bits w 15 12 + 1
    let o := bits w 35 16
    let z := bits w 39 36
    dieGone s d || (decide (z ≤ 8) && decide (d * 288 ≤ t) && decide (t + n ≤ d * 288 + 288) && decide (0x80000 ≤ o) && o % 8 == 0 &&
      decide (o + 0x10000 + z * 0x2000 ≤ 0xC0000) && (List.range n).all (fun i => !cfgHeat m (t + i))))

/-- Code 0x07: local regions (R224). -/
def localsOk (m : CfgBytes) : Bool :=
  let rs := (List.range 16).filterMap (fun r =>
    let b := cfgWord m (0x240 + 16 * r)
    if bit b 0 then some (bits b 38 17 * 2 ^ 17, bits (cfgWord m (0x248 + 16 * r)) 5 0) else none)
  rs.all (fun r => decide (17 ≤ r.2) && decide (r.2 ≤ 32) && r.1 % (8 * 2 ^ r.2) == 0 && decide (r.1 + 8 * 2 ^ r.2 ≤ reserveBase)) &&
  rs.zipIdx.all (fun a => rs.zipIdx.all (fun b => a.2 == b.2 || !rangesMeet a.1.1 (8 * 2 ^ a.1.2) b.1.1 (8 * 2 ^ b.1.2)))

/-- Code 0x07: communicators are boxes of the fabric (R303). -/
def commsOk (m : CfgBytes) : Bool :=
  (List.range 16).all (fun c =>
    let w := cfgWord m (0x340 + 8 * c)
    !bit w 0 || (List.range 3).all (fun d => decide (bits w (4 * d + 7) (4 * d + 4) + bits w (4 * d + 19) (4 * d + 16) + 1 ≤ cfgSize m d)))

/-- Code 0x08. -/
def powerOk (s : State) (m : CfgBytes) : Bool :=
  let b := bits (cfgWord m 0x100) 11 0
  (b == 0 || (decide (400 ≤ b) && decide (b ≤ 1500) && decide (b ≤ rbits s (reg .GATE_PWR_CEIL) 11 0))) &&
  decide (bits (cfgWord m 0x100) 23 16 + 2 ≤ rbits s (reg .GATE_TRIP) 7 0)

/-- Code 0x09. -/
def modesOk (m : CfgBytes) : Bool := bits (cfgWord m 0xC0) 63 16 == 0

/-- The first check that fails (R365); `gate` for those that the Gate repeats. 0 when all pass. -/
def cfgError (s : State) (m : CfgBytes) (digest : Word) (gate : Bool) : Nat :=
  if !formatOk m then 1 else if !digestOk s m digest then 2
  else if !gate && !fabricOk m then 3 else if !linksOk s m then 4
  else if !gate && !heatOk s m then 5 else if !gate && !stagingOk s m then 6
  else if !gate && !(localsOk m && commsOk m) then 7 else if !powerOk s m then 8 else if !modesOk m then 9 else 0

/-! ### Quiescent fields (R367, R385) -/

/-- Offset of a quiescent byte. -/
def quiescent (o : Nat) : Bool :=
  (decide (0x40 ≤ o) && decide (o < 0xC0)) || (decide (0xC8 ≤ o) && decide (o < 0xD0)) || (decide (0x140 ≤ o) && decide (o < 0x240))

/-- A quiescent field of staging differs from the active configuration. -/
def changesQuiescent (s : State) : Bool :=
  (List.range cfgLen).any (fun o => quiescent o && SMap.get 0#8 s.cox.staging o != SMap.get 0#8 s.cox.active o)

/-! ### A configuration comes into force (R367, R384, R386) -/

/-- LNK_CTL of every port: enabled, reduced rate, the spare's role (R300). -/
def applyLinks (m : CfgBytes) (s : State) : State :=
  (List.range 48).foldl (fun s l =>
    let role := if l % 16 = 15 then (match cfgRole m (l / 16) with | some j => 4 + j * 16 + 1 | none => 0) else 0
    rset (reg .LNK_CTL l) (w64 ((b2n (bit (cfgWord m 0x80) l) ||| role) + b2n (bit (cfgWord m 0x88) l) * 2)) s) s

/-- FAB_COORD (R301). -/
def applyFabric (m : CfgBytes) (s : State) : State :=
  let c := fun d => cfgByte m (0x40 + d)
  rset (reg .FAB_COORD) (w64 (c 0 + c 1 * 16 + c 2 * 256 + (c 2 * 256 + c 1 * 16 + c 0) * 2 ^ 12 +
    (cfgSize m 0 - 1) * 2 ^ 24 + (cfgSize m 1 - 1) * 2 ^ 28 + (cfgSize m 2 - 1) * 2 ^ 32)) s

/-- Mode bits: all at the first configuration after a reset, later those that change at the commit (R384). -/
def applyModes (m : CfgBytes) (s : State) : State :=
  let new := bits (cfgWord m 0xC0) 15 0
  let late := 0x8017
  let old := rbits s (reg .MBX_ASSIST) 15 0
  let v := if s.cox.hasActive then (new &&& (0xFFFF - late)) ||| (old &&& late) else new
  let s := rset (reg .MBX_ASSIST) (w64 v) s
  let s := rsetBit (reg .EPOCH_STAT) 2 (v.testBit 13) s
  if v.testBit 13 then rsetBits (reg .EPOCH_RATE) 31 0 0 { s with ep := { s.ep with phase := 0, acc := 0 } } else s

/-- The staging bytes become the active configuration (R386). -/
def applyConfig (m : CfgBytes) (s : State) : State :=
  let differs := fun (lo hi : Nat) => !s.cox.hasActive || (List.range (hi - lo)).any (fun i => SMap.get 0#8 m (lo + i) != SMap.get 0#8 s.cox.active (lo + i))
  let s := if differs 0x100 0x108 then
      rsetBits (reg .GOV_TJ) 7 0 (bits (cfgWord m 0x100) 23 16) (rsetBits (reg .GOV_BUDGET) 11 0 (bits (cfgWord m 0x100) 11 0) s) else s
  let s := if differs 0x140 0x200 then
      (List.range numTiles).foldl (fun s t => if isHeat s t == cfgHeat m t then s else rsetBit (reg .TILE_STATE t) 3 (cfgHeat m t) s) s else s
  let s := if differs 0x80 0xC0 then applyLinks m s else s
  let s := applyModes m (applyFabric m s)
  let s := (List.range 4).foldl (fun s d => rset (reg .COL_STAGE d) (cfgWord m (0x200 + 8 * d)) s) s
  let s := (List.range 16).foldl (fun s r =>
    rset (reg .COL_COMM r) (cfgWord m (0x340 + 8 * r)) (rset (reg .MEM_LOC_SIZE r) (cfgWord m (0x248 + 16 * r)) (rset (reg .MEM_LOC_BASE r) (cfgWord m (0x240 + 16 * r)) s))) s
  { s with cox := { s.cox with active := m, hasActive := true } }

/-! ### The commit (R365 to R369, R386) -/

/-- End a commit: its slot is freed, staging is unlocked, the final frame posted. -/
def endCommit (status detail : Nat) (s : State) : State :=
  match s.cox.lock with
  | none => s
  | some c => finishCmd c status detail 0#64 (freeGroup s.cox.commitSlot { s with cox := { s.cox with lock := none } })

/-- A commit fails its validation: cause 2 the cox's, 1 the Gate's (R367, R368). -/
def failCommit (code cause : Nat) (s : State) : State :=
  let s := if [1, 2, 4, 8, 9].contains code then rset (reg .GATE_CHECK_ERR) (w64 code) s else s
  let s := endCommit stREFUSED_CHECK code s
  if s.gate.st == .moored || s.gate.st == .rigged then goHold cause s else s

/-- CFG_COMMIT (R386, R388): the cox validates, writes the Gate's buffer and asserts valid. -/
def execCfgCommit (ring : Nat) (f : Frame) (s : State) : Out :=
  .next (serve ring 0x0104 f { ops := [maskAll] } (fun r s =>
    let st := s.gate.st.code
    if s.cox.lock.isSome then postFrame r stREFUSED_STATE st 0#64 s
    else if changesQuiescent s && (s.gate.st == .underway || s.gate.st == .easy || (s.gate.st == .hold && s.gate.frozen)) then
      postFrame r stREFUSED_STATE st 0#64 s
    else match freeSlot s with
    | none => postFrame r stQUEUE_FULL 16 0#64 s
    | some g =>
      let s := acceptCmd r 0#64 (openSlot g 0 0 true none s)
      let s := { s with cox := { s.cox with lock := some r, commitSlot := g } }
      let e := cfgError s s.cox.staging f.w1 false
      if e ≠ 0 then failCommit e 2 s
      else { s with gate := { s.gate with buf := s.cox.staging, coxValid := true } }) s)

/-- Ports train where outputs have come on or their settings have changed (R289). -/
def retrain (was : State) (s : State) : State :=
  if !outputsOn s then s else
  let all := !outputsOn was || rget was (reg .FAB_COORD) != rget s (reg .FAB_COORD)
  let s := (List.range 48).foldl (fun s l =>
    if all || rget was (reg .LNK_CTL l) != rget s (reg .LNK_CTL l) then trainLink l s else s) s
  rebuildRoutes s

/-- GATE_CHECK (R365 to R368): the Gate checks its buffer; outputs-enable rises, or the device enters HOLD. -/
def execGateCheck (s : State) : Out :=
  .next (
    if s.cox.lock.isNone then s else
    let m := s.gate.buf
    let d := shortDigest (cfgAll m)
    let was := s
    let s := rset (reg .GATE_CFG_DIGEST) d s
    let e := cfgError s m d true
    if e ≠ 0 then
      let running := s.gate.st == .underway || s.gate.st == .easy
      let s := if running then { s with gate := { s.gate with buf := s.cox.active } } else { s with gate := { s.gate with checkOk := false } }
      failCommit e 1 s
    else
      let s := applyConfig m { s with gate := { s.gate with checkOk := true } }
      let s := if !s.gate.trip && (s.gate.st == .moored || s.gate.st == .hold) then setDev .rigged 18 s else s
      endCommit stOK 0 (retarget (retrain was s)))

/-- Every sensor of the dies and stacks that are not lost last read 5 °C or more below its trip temperature (R364). -/
def belowTrip (s : State) : Bool :=
  (List.range 4).all (fun d => dieGone s d || decide ((dieG s d).hottest + 5 ≤ (rbits s (reg .GATE_TRIP) 7 0 : Nat))) &&
  (List.range 8).all (fun n => stackLost s n || decide (toSigned 8 (rbits s (reg .STK_TEMP n) 7 0) + 5 ≤ (rbits s (reg .GATE_TRIP) 15 8 : Nat)))

/-- TRIP_RELEASE (R364): in MOORED the outputs that a passed commit waits for come on now (R366, R368). -/
def execTripRelease (s : State) : Out :=
  .next (
    if !s.gate.trip || !belowTrip s then s else
    let t := { s with gate := { s.gate with trip := false, thermLow := false } }
    if t.gate.st == .moored && outputsOn t then retarget (retrain s (setDev .rigged 18 t)) else retarget t)

/-! ### Building a configuration (R388, R391, R392) -/

/-- Serve a command that changes staging: refused while a commit holds it (R382). -/
def stagingCmd (ring opc : Nat) (f : Frame) (k : CmdForm) (body : CmdRef → State → State) (s : State) : State :=
  serve ring opc f k (fun r s => if s.cox.lock.isSome then postFrame r stREFUSED_STATE s.gate.st.code 0#64 s else body r s) s

/-- Write bytes into staging. -/
def stagingWrite (o : Nat) (bs : List Byte) (s : State) : State := { s with cox := { s.cox with staging := SMap.putList 0#8 s.cox.staging o bs } }

/-- CFG_BEGIN (R388). -/
def execCfgBegin (ring : Nat) (f : Frame) (s : State) : Out :=
  .next (stagingCmd ring 0x0101 f { ops := [maskBits 0 0] } (fun r s =>
    postFrame r stOK 0 0#64 { s with cox := { s.cox with staging := if bit f.w1 0 then s.cox.active else [] } }) s)

/-- CFG_WRITE (R388). -/
def execCfgWrite (ring : Nat) (f : Frame) (s : State) : Out :=
  .next (stagingCmd ring 0x0102 f { ops := [maskBits 15 0], buf := true } (fun r s =>
    let o := bits f.w1 15 0
    let n := bufLen f
    if o + n > cfgLen then postFrame r stREFUSED_FORM 0 0#64 s
    else if !bufOk f n s then postFrame r stREFUSED_ADDR 0 0#64 s
    else let d := bufRead f n s; postFrame r stOK 0 0#64 (stagingWrite o (rawBytes d.1) d.2)) s)

/-- CFG_READ (R388): from the offset to the end of the configuration or of the buffer. -/
def execCfgRead (ring : Nat) (f : Frame) (s : State) : Out :=
  .next (serve ring 0x0103 f { ops := [maskBits 16 0], buf := true } (fun r s =>
    let o := bits f.w1 15 0
    let m := if bit f.w1 16 then s.cox.active else s.cox.staging
    if o + bufLen f > cfgLen then postFrame r stREFUSED_FORM 0 0#64 s
    else bufAnswer r f (cleanBytes (SMap.getList 0#8 m o (bufLen f))) s) s)

/-- CFG_RELEASE (R388): the configuration is withdrawn. -/
def execCfgRelease (ring : Nat) (f : Frame) (s : State) : Out :=
  .next (serve ring 0x0105 f {} (fun r s =>
    if s.gate.st != .rigged || s.gate.frozen || s.cox.lock.isSome then postFrame r stREFUSED_STATE s.gate.st.code 0#64 s else
    let s := setDev .moored 22 (holdLinks { s with gate := { s.gate with coxValid := false, checkOk := false } })
    postFrame r stOK 0 0#64 (retarget s)) s)

/-- The device description (R389). -/
def description (s : State) : List Word :=
  let st := Config.stepping % 256
  let active := ((List.range numTiles).filter (fun t => tileState s t != 4)).length
  let spares := sumNat ((List.range 4).map (fun d => min 255 (usableSpares s d).length * 256 ^ d))
  let live := 512 - s.stk.gone.length - 64 * ((List.range 8).filter (stackLost s)).length
  let ver := fun (i : Bool) => SMap.get 0 s.ports.versions (b2n i) % 2 ^ 32
  [w64 (4 + st * 2 ^ 8 + active * 2 ^ 16 + 1248 * 2 ^ 32), w64 (spares + 48 * 2 ^ 32),
   w64 (rbits s (reg .MEM_RESERVE) 63 32 + live * 2 ^ 32), w64 (ver s.gate.image + ver (!s.gate.image) * 2 ^ 32),
   w64 (15570 + 7780 * 2 ^ 16 + 1950 * 2 ^ 32 + 162 * 2 ^ 48), w64 (16400 + 100 * 2 ^ 16 + 15 * 2 ^ 32 + 8 * 2 ^ 40),
   w64 (1400 + 1500 * 2 ^ 12 + 1650 * 2 ^ 24 + 95 * 2 ^ 36 + 500 * 2 ^ 48),
   w64 (50 + 65 * 2 ^ 8 + 105 * 2 ^ 16 + 15 * 2 ^ 24 + 8960 * 2 ^ 32 + 110 * 2 ^ 48 + 4 * 2 ^ 56)]

/-- CFG_QUERY (R388, R389). -/
def execCfgQuery (ring : Nat) (f : Frame) (s : State) : Out :=
  .next (serve ring 0x0100 f { buf := true } (fun r s => bufAnswer r f (cleanBytes (wordBytes (description s))) s) s)

/-- MEM_LOCAL_SET (R224, R391). -/
def execMemLocalSet (ring : Nat) (f : Frame) (s : State) : Out :=
  .next (stagingCmd ring 0x0300 f { ops := [maskBits 3 0, maskAll, maskBits 5 0] } (fun c s =>
    let r := bits f.w1 3 0
    let p := bits f.w3 5 0
    let b := f.w2.toNat
    let m := SMap.putList 0#8 s.cox.staging (0x240 + 16 * r) (leBytes 8 (b + 1) ++ leBytes 8 p)
    if b % 2 ^ 17 ≠ 0 || b ≥ stackTop || !localsOk m then postFrame c stREFUSED_FORM 0 0#64 s
    else postFrame c stOK 0 0#64 { s with cox := { s.cox with staging := m } }) s)

/-- MEM_LOCAL_CLEAR (R391). -/
def execMemLocalClear (ring : Nat) (f : Frame) (s : State) : Out :=
  .next (stagingCmd ring 0x0301 f { ops := [maskBits 3 0] } (fun c s =>
    postFrame c stOK 0 0#64 (stagingWrite (0x240 + 16 * bits f.w1 3 0) (List.replicate 16 0#8) s)) s)

/-- COMM_SET (R392): w2 in the layout of COL_COMM. -/
def execCommSet (ring : Nat) (f : Frame) (s : State) : Out :=
  .next (stagingCmd ring 0x0400 f { ops := [maskBits 3 0, 0xFFFFFF1#64] } (fun c s =>
    postFrame c stOK 0 0#64 (stagingWrite (0x340 + 8 * bits f.w1 3 0) (leBytes 8 f.w2.toNat) s)) s)

/-- COMM_CLEAR (R392). -/
def execCommClear (ring : Nat) (f : Frame) (s : State) : Out :=
  .next (stagingCmd ring 0x0401 f { ops := [maskBits 3 0] } (fun c s =>
    postFrame c stOK 0 0#64 (stagingWrite (0x340 + 8 * bits f.w1 3 0) (List.replicate 8 0#8) s)) s)

/-! ### Routes and spares (R298, R299, R392) -/

/-- Dimension and coordinate of a route command name another coordinate of the group. -/
def routeFormOk (s : State) (d c : Nat) : Bool := decide (d < 3) && decide (c < groupSize s d) && c != ownCoord s d

/-- ROUTE_SET (R298, R392). -/
def execRouteSet (ring : Nat) (f : Frame) (s : State) : Out :=
  .next (serve ring 0x0405 f { ops := [0xFF3#64] } (fun r s =>
    let d := bits f.w1 1 0
    let c := bits f.w1 7 4
    let k := bits f.w1 11 8
    if !assist s 9 then postFrame r stREFUSED_MODE 0 0#64 s
    else if !routeFormOk s d c || !routeFormOk s d k || k = c then postFrame r stREFUSED_FORM 0 0#64 s
    else postFrame r stOK 0 0#64 (rsetBits (reg .FAB_ROUTE (d * 16 + c)) 21 16 (k + 16) s)) s)

/-- ROUTE_CLEAR (R298, R392). -/
def execRouteClear (ring : Nat) (f : Frame) (s : State) : Out :=
  .next (serve ring 0x0406 f { ops := [0xF3#64] } (fun r s =>
    let d := bits f.w1 1 0
    let c := bits f.w1 7 4
    if !assist s 9 then postFrame r stREFUSED_MODE 0 0#64 s
    else if !routeFormOk s d c then postFrame r stREFUSED_FORM 0 0#64 s
    else postFrame r stOK 0 0#64 (rsetBits (reg .FAB_ROUTE (d * 16 + c)) 21 16 0 s)) s)

/-- Word 2 of the links section with the spare of dimension d given a role, in both copies (R386). -/
def setRole (d : Nat) (role : Option Nat) (s : State) : State :=
  let upd := fun (m : CfgBytes) =>
    SMap.put 0#8 m (0x90 + d) (BitVec.ofNat 8 (match role with | some j => j + 16 | none => 0))
  { s with cox := { s.cox with staging := upd s.cox.staging, active := upd s.cox.active } }

/-- A port goes idle: a live one leaves its bond first (R294, R299). -/
def idlePort (l : Nat) (s : State) : State :=
  let s := if lnkState s l == 3 || lnkState s l == 4 then leaveBond l 0 true s else s
  rsetBits (reg .LNK_STAT l) 10 3 0 (setLnk l 0 s)

/-- SPARE_ASSIGN (R299, R392). -/
def execSpareAssign (ring : Nat) (f : Frame) (s : State) : Out :=
  .next (serve ring 0x0407 f { ops := [0xF3#64] } (fun r s =>
    let d := bits f.w1 1 0
    let j := bits f.w1 7 4
    let l := d * 16 + 15
    if d = 3 || j = 15 then postFrame r stREFUSED_FORM 0 0#64 s
    else if !bit (rget s (reg .GATE_LINK_MASK)) l then postFrame r stREFUSED_GATE 0 0#64 s
    else if bit (rget s (reg .LNK_CTL l)) 2 then postFrame r stREFUSED_STATE (rbits s (reg .LNK_CTL l) 7 4) 0#64 s
    else
      let s := setRole d (some j) (idlePort (d * 16 + j) s)
      let s := rset (reg .LNK_CTL l) (w64 (5 + j * 16 + rbits s (reg .LNK_CTL l) 1 1 * 2)) s
      let s := if outputsOn s then trainLink l s else s
      postFrame r stOK 0 0#64 (rebuildRoutes s)) s)

/-- SPARE_RELEASE (R299, R392). -/
def execSpareRelease (ring : Nat) (f : Frame) (s : State) : Out :=
  .next (serve ring 0x0408 f { ops := [maskBits 1 0] } (fun r s =>
    let d := bits f.w1 1 0
    let l := d * 16 + 15
    if d = 3 then postFrame r stREFUSED_FORM 0 0#64 s
    else if !bit (rget s (reg .LNK_CTL l)) 2 then postFrame r stREFUSED_STATE 0 0#64 s
    else
      let j := rbits s (reg .LNK_CTL l) 7 4
      let s := setRole d none (idlePort l s)
      let s := rset (reg .LNK_CTL l) (w64 (rbits s (reg .LNK_CTL l) 1 1 * 2)) s
      let s := if outputsOn s then trainLink (d * 16 + j) s else s
      postFrame r stOK 0 0#64 (rebuildRoutes s)) s)

end Sys2Proof.Machine
end

