-- ==== Sys2Proof/Machine/Coll.lean ====
section
/-! DEFINITION. Collectives (R302 to R313, R320), pace frames (R314 to R319), NOROUTE (R295) and PUT_SEND (R392). -/

namespace Sys2Proof.Machine
open Sys2Proof

/-! ### Communicators (R303) -/

/-- Lowest coordinate and count of communicator c in dimension d. -/
def commLo (s : State) (c d : Nat) : Nat := rbits s (reg .COL_COMM c) (4 * d + 7) (4 * d + 4)
def commN (s : State) (c d : Nat) : Nat := rbits s (reg .COL_COMM c) (4 * d + 19) (4 * d + 16) + 1

/-- Members of a communicator. -/
def commSize (s : State) (c : Nat) : Nat := commN s c 0 * commN s c 1 * commN s c 2

/-- Relative coordinate d of a rank. -/
def rankCoord (s : State) (c r d : Nat) : Nat :=
  if d = 0 then r % commN s c 0 else if d = 1 then r / commN s c 0 % commN s c 1 else r / (commN s c 0 * commN s c 1)

/-- A rank with relative coordinate d replaced. -/
def rankWith (s : State) (c r d k : Nat) : Nat :=
  let w := if d = 0 then 1 else if d = 1 then commN s c 0 else commN s c 0 * commN s c 1
  r - rankCoord s c r d * w + k * w

/-- Device id of a rank. -/
def rankId (s : State) (c r : Nat) : Nat :=
  sumNat ((List.range 3).map (fun d => (commLo s c d + rankCoord s c r d) * 16 ^ d))

/-- Rank of a device, none outside the box. -/
def idRank (s : State) (c id : Nat) : Option Nat :=
  let rel := fun (d : Nat) => coordOf id d - commLo s c d
  if (List.range 3).all (fun d => decide (commLo s c d ≤ coordOf id d) && decide (rel d < commN s c d)) then
    some (rel 2 * (commN s c 0 * commN s c 1) + rel 1 * commN s c 0 + rel 0)
  else none

/-! ### Records (R304) -/

def Coll.op (c : Coll) : Nat := bits (c.word 0) 3 0
def Coll.inF (c : Coll) : Nat := bits (c.word 0) 11 8
def Coll.inA (c : Coll) : Nat := bits (c.word 0) 13 12
def Coll.outF (c : Coll) : Nat := bits (c.word 0) 17 14
def Coll.outA (c : Coll) : Nat := bits (c.word 0) 19 18
def Coll.els (c : Coll) : Nat := bits (c.word 8) 47 0
def Coll.src (c : Coll) : Nat := bits (c.word 0x10) 47 0
def Coll.srcScale (c : Coll) : Nat := bits (c.word 0x18) 47 0
def Coll.dst (c : Coll) : Nat := bits (c.word 0x20) 47 0
def Coll.dstScale (c : Coll) : Nat := bits (c.word 0x28) 47 0
def Coll.inTs (c : Coll) : Half := BitVec.ofNat 32 (bits (c.word 0x30) 31 0)
def Coll.outTs (c : Coll) : Half := BitVec.ofNat 32 (bits (c.word 0x30) 63 32)
def Coll.root (c : Coll) : Nat := bits (c.word 0x38) 11 0
def Coll.doneWord (c : Coll) : Nat := bits (c.word 0x50) 47 0
def Coll.due (c : Coll) : Nat := (c.word 0x58).toNat
def Coll.silence (c : Coll) : Nat := let n := bits (c.word 0x60) 31 0; if n = 0 then 1000 else n
def Coll.tag (c : Coll) : Nat := bits (c.word 0x60) 63 32

/-- The operation reduces; gathers. -/
def Coll.reduces (c : Coll) : Bool := c.op == 1 || c.op == 2
def Coll.gathers (c : Coll) : Bool := c.op != 2

/-- The collective with an id. -/
def collOf (s : State) (id : Nat) : Option Coll := s.fab.colls.find? (fun c => c.id == id)

/-- Replace the records; COL_STAT shows their number on every die (R321). -/
def setColls (cs : List Coll) (s : State) : State :=
  (List.range 4).foldl (fun s d => rsetBits (reg .COL_STAT d) 5 0 cs.length s) { s with fab := { s.fab with colls := cs } }

/-- Replace one record. -/
def setColl (c : Coll) (s : State) : State :=
  { s with fab := { s.fab with colls := s.fab.colls.map (fun k => if k.id = c.id then c else k) } }

/-- The collective's own rank. -/
def myRank (s : State) (c : Coll) : Nat := (idRank s c.comm (ownId s)).getD 0

/-! ### Formats (R305) -/

/-- Elements per block of an arrangement; 0 for plain. -/
def arrBlock (a : Nat) : Nat := if a = 1 then 16 else if a = 2 then 32 else 0

/-- A format and arrangement of R145 or R150. -/
def pairExists (f a : Nat) : Bool := a == 0 || (decide (a ≤ 2) && (f == FP4 || isFP6 f || isFP8 f))

/-- The pair is accepted (R305). -/
def colPairOk (op fi ai fo ao : Nat) : Bool :=
  let wide := fun (f a : Nat) => a == 0 && (f == FP32 || f == BF16)
  let blk := fun (f a : Nat) => isFP8 f && (a == 1 || a == 2)
  if op = 1 || op = 2 then
    (wide fi ai && wide fo ao) || (fi == FP32 && ai == 0 && blk fo ao) ||
    (blk fi ai && ((fo == FP32 && ao == 0) || (fo == fi && ao == ai)))
  else decide (3 ≤ op) && decide (op ≤ 5) && pairExists fi ai && fo == fi && ao == ai

/-- Elements of a segment by payload format (R307). -/
def segEls (f : Nat) : Nat := if packBits f = 32 then 1008 else if packBits f = 16 then 2016 else 3808

/-- A unit of a split: 32 elements for block arrangements, 1 otherwise (R308). -/
def Coll.unit (c : Coll) : Nat := if c.inA ≠ 0 || c.outA ≠ 0 then 32 else 1

/-! ### Ranges and stages (R308) -/

/-- Sub-range k of n: whole units, the first (U mod n) one more. -/
def subRange (u : Nat) (p : Nat × Nat) (n k : Nat) : Nat × Nat :=
  let q := p.2 / u / n
  let r := p.2 / u % n
  (p.1 + u * (k * q + min k r), u * (q + b2n (decide (k < r))))

/-- Dimension order of part q without the dimensions of count 1. -/
def partDims (s : State) (c : Coll) (q : Nat) : List Nat :=
  ((List.range 3).map (fun i => (q + i) % 3)).filter (fun d => decide (1 < commN s c.comm d))

/-- Stages of part q: gather phase, dimension. -/
def partStages (s : State) (c : Coll) (q : Nat) : List (Bool × Nat) :=
  let ds := partDims s c q
  if c.op = 4 then (if q = 0 && decide (1 < commSize s c.comm) then [(true, 0)] else [])
  else if c.op = 5 then ds.map (fun d => (true, d))
  else (if c.reduces then ds.map (fun d => (false, d)) else []) ++ (if c.gathers then ds.reverse.map (fun d => (true, d)) else [])

/-- Reduce stages of part q. -/
def reduceStages (s : State) (c : Coll) (q : Nat) : Nat := if c.reduces then (partDims s c q).length else 0

/-- The range of part q within the buffer, or within one member's part (R308); all-to-all has one part. -/
def partRange (c : Coll) (q : Nat) : Nat × Nat :=
  if c.op = 4 then (if q = 0 then (0, c.els) else (0, 0)) else subRange c.unit (0, c.els) 3 q

/-- The range that a rank holds for part q before reduce stage i. -/
def heldRange (s : State) (c : Coll) (q r i : Nat) : Nat × Nat :=
  ((partDims s c q).take i).foldl (fun p d => subRange c.unit p (commN s c.comm d) (rankCoord s c.comm r d)) (partRange c q)

/-- The range of the result that rank r owns in part q, and its place among the ranges of the buffer. -/
def ownedRange (s : State) (c : Coll) (q r : Nat) : (Nat × Nat) × Nat :=
  let p := partRange c q
  if c.reduces then
    (heldRange s c q r (partDims s c q).length, q * commSize s c.comm + (partDims s c q).foldl (fun a d => a * commN s c.comm d + rankCoord s c.comm r d) 0)
  else if c.op = 5 then (p, q)
  else ((r * c.els + p.1, p.2), 3 * r + q)

/-- Ranks that agree with r outside the dimensions gathered before stage i of part q: the owners of what r then holds. -/
def heldOwners (s : State) (c : Coll) (q r i : Nat) : List Nat :=
  let done := ((partStages s c q).take i).filterMap (fun p => if p.1 then some p.2 else none)
  (List.range (commSize s c.comm)).filter (fun k =>
    (List.range 3).all (fun d => done.contains d || rankCoord s c.comm k d == rankCoord s c.comm r d))

/-- The peers of rank r along dimension d. -/
def dimPeers (s : State) (c : Coll) (r d : Nat) : List Nat :=
  ((List.range (commN s c.comm d)).filter (· != rankCoord s c.comm r d)).map (rankWith s c.comm r d)

/-- Broadcast: rank r holds part q before stage i (every later dimension agrees with the root's). -/
def bcastHolds (s : State) (c : Coll) (q r i : Nat) : Bool :=
  ((partDims s c q).drop i).all (fun d => rankCoord s c.comm r d == rankCoord s c.comm c.root d)

/-- A run expected from a sender: key (sender of a contribution, owner of a gathered range), range, payload pair, first segment index. -/
structure Due where
  sender : Nat
  key : Nat
  off : Nat
  len : Nat
  fmt : Nat
  arr : Nat
  idx : Nat
  deriving DecidableEq, Repr

/-- First segment index of a range (R307): rises with the offset, disjoint for ranges in order. -/
def firstIdx (f off ord : Nat) : Nat := ceilDiv off (segEls f) + ord

/-- Payload pair of a stage (R309): the input in the first reduce stage, FP32 partial sums after it, the output in the gather phase. -/
def stagePair (c : Coll) (gather : Bool) (i : Nat) : Nat × Nat :=
  if gather then (c.outF, c.outA) else if i = 0 then (c.inF, c.inA) else (FP32, 0)

/-- What stage i of part q brings the member of rank `me` (R308). -/
def stageDueAt (s : State) (c : Coll) (me q i : Nat) : List Due :=
  match (partStages s c q)[i]? with
  | none => []
  | some (gather, d) =>
    let p := stagePair c gather i
    if c.op = 4 then
      ((List.range (commSize s c.comm)).filter (· != me)).map (fun r => ⟨r, r, r * c.els, c.els, p.1, p.2, firstIdx p.1 (r * c.els) r⟩)
    else if c.op = 5 then
      if bcastHolds s c q me i || !bcastHolds s c q me (i + 1) then [] else
      let o := ownedRange s c q c.root
      [⟨rankWith s c.comm me d (rankCoord s c.comm c.root d), c.root, o.1.1, o.1.2, p.1, p.2, firstIdx p.1 o.1.1 o.2⟩]
    else if gather then
      (dimPeers s c me d).flatMap (fun r => (heldOwners s c q r i).map (fun k =>
        let o := ownedRange s c q k
        ⟨r, k, o.1.1, o.1.2, p.1, p.2, firstIdx p.1 o.1.1 o.2⟩))
    else
      let h := heldRange s c q me (i + 1)
      (dimPeers s c me d).map (fun r => ⟨r, r, h.1, h.2, p.1, p.2, firstIdx p.1 h.1 q⟩)

/-- What stage i of part q brings this member. -/
def stageDue (s : State) (c : Coll) (q i : Nat) : List Due := stageDueAt s c (myRank s c) q i

/-- Segments of a run. -/
def Due.segs (e : Due) : Nat := ceilDiv e.len (segEls e.fmt)

/-- In a stage that this member has reached, it sends the member of rank r a segment whose packet has this tag (R307, R313). -/
def sentTo (s : State) (c : Coll) (r tag : Nat) : Bool :=
  (List.range 3).any (fun q => (List.range (partStages s c q).length).any (fun i =>
    decide (i ≤ (nth {} c.parts q).stage) && (stageDueAt s c r q i).any (fun e => e.sender == myRank s c && decide ((tag + 65536 - e.idx % 65536) % 65536 < e.segs))))

/-! ### Elements in memory and in packets (R147, R150, R307) -/

/-- Element i of bytes, in a width of 4, 8, 16 or 32 bits. -/
def codeAt (w : Nat) (g : Nat → Byte) (i : Nat) : Nat :=
  if w = 4 then ((g (i / 2)).toNat / (if i % 2 = 0 then 1 else 16)) % 16
  else leNat ((List.range (w / 8)).map (fun k => g (i * (w / 8) + k)))

/-- Bytes of element codes. -/
def codeBytes (w : Nat) (cs : List Nat) : List Byte := if w = 4 then pack2 cs else cs.flatMap (leBytes (w / 8))

/-- Byte of the scale of block b: scale slots of four bytes, one per block row (R150). -/
def scaleSlot (f a b : Nat) : Nat :=
  let per := elemsPerRow f / arrBlock a
  4 * (b / per) + b % per

/-- Read n elements of a buffer at class 1 with their block scales (R302). -/
def colRead (base sbase f a off n : Nat) (ts : Half) (s : State) : Seg × State :=
  if n = 0 then ({ off := off, els := [], tsc := ts }, s) else
  let w := packBits f
  let b0 := off * w / 8
  let (d, s) := stkRead 1 (base + b0) (ceilDiv ((off + n) * w) 8 - b0) s
  let code := fun (i : Nat) => codeAt w (fun k => (nth (0#8, false) d (k - b0)).1) (off + i)
  let bad := fun (i : Nat) => (nth (0#8, false) d ((off + i) * w / 8 - b0)).2
  let blk := arrBlock a
  if blk = 0 then ({ off := off, els := (List.range n).map code, tsc := ts, pois := (List.range n).map bad }, s)
  else
    let q0 := scaleSlot f a (off / blk)
    let (e, s) := stkRead 1 (sbase + q0) (scaleSlot f a ((off + n - 1) / blk) + 1 - q0) s
    let sc := fun (b : Nat) => nth (0#8, false) e (scaleSlot f a b - q0)
    let ss := (List.range (n / blk)).map (fun b => sc (off / blk + b))
    ({ off := off, els := (List.range n).map code, scl := ss.map (·.1.toNat), tsc := ts, pois := (List.range n).map bad, spois := ss.map (·.2) }, s)

/-- Element i is poisoned: itself, or with its block's scale (R25). -/
def Seg.bad (a : Nat) (g : Seg) (i : Nat) : Bool := nth false g.pois i || nth false g.spois (i / max 1 (arrBlock a))

/-- A run meets poison. -/
def Seg.anyBad (g : Seg) : Bool := g.pois.any id || g.spois.any id

/-- Bytes of a run's elements, each with its poison. -/
def elBytes (w : Nat) (g : Seg) : PBytes :=
  (codeBytes w g.els).zipIdx.map (fun b => (b.1, if w = 4 then nth false g.pois (2 * b.2) || nth false g.pois (2 * b.2 + 1) else nth false g.pois (b.2 / (w / 8))))

/-- The bytes that a run's elements write: address, data. Elements of 4 bits that share a byte with others keep those. -/
def dataWrite (s : State) (base f : Nat) (g : Seg) : Nat × PBytes :=
  let w := packBits f
  let b0 := g.off * w / 8
  if w ≠ 4 then (base + b0, elBytes w g) else
  let n := g.els.length
  let len := ceilDiv ((g.off + n) * 4) 8 - b0
  let el := fun (e : Nat) => if g.off ≤ e ∧ e < g.off + n then nth 0 g.els (e - g.off) else codeAt 4 (fun k => stkByte s (base + k)) e
  let bad := fun (e : Nat) => decide (g.off ≤ e) && nth false g.pois (e - g.off)
  let es := (List.range (2 * len)).map (fun i => 2 * b0 + i)
  (base + b0, elBytes 4 { g with els := es.map el, pois := es.map bad })

/-- The bytes that a run's scales write, by block (R150). -/
def scaleWrites (sbase f a : Nat) (g : Seg) : List (Nat × PBytes) :=
  let blk := arrBlock a
  if blk = 0 then [] else
  (List.range (g.els.length / blk)).map (fun b => (sbase + scaleSlot f a (g.off / blk + b), [(BitVec.ofNat 8 (nth 0 g.scl b), nth false g.spois b)]))

/-- The writes of a run of the result (R302). -/
def runWrites (s : State) (c : Coll) (g : Seg) : List (Nat × PBytes) :=
  if g.els.isEmpty then [] else dataWrite s c.dst c.outF g :: scaleWrites c.dstScale c.outF c.outA g

/-- Write a run of the result as PUTs would (R302); whether a write was lost with its stack. -/
def colWrite (c : Coll) (g : Seg) (s : State) : Bool × State :=
  (runWrites s c g).foldl (fun r w => (r.1 || writeLost r.2 w.1 w.2.length, (putWrite (ownId r.2) w.1 w.2 r.2).2)) (false, s)

/-- Cut a run into segments: index, segment (R307). -/
def cutSegs (f a idx : Nat) (g : Seg) : List (Nat × Seg) :=
  let m := segEls f
  let k := m / max 1 (arrBlock a)
  (List.range (ceilDiv g.els.length m)).map (fun j =>
    (idx + j, { off := g.off + j * m, els := (g.els.drop (j * m)).take m, scl := (g.scl.drop (j * k)).take k, tsc := g.tsc
                pois := (g.pois.drop (j * m)).take m, spois := (g.spois.drop (j * k)).take k }))

/-- A COL packet (R307): poison travels with its bytes (R25, R310). -/
def colPacket (id d : Nat) (gather : Bool) (f a idx : Nat) (last : Bool) (g : Seg) : PBytes :=
  let body := cleanBytes (leBytes 4 id ++ leBytes 4 idx ++ [BitVec.ofNat 8 (d + b2n gather * 4 + f * 16), BitVec.ofNat 8 a] ++
    leBytes 2 (g.els.length - 1) ++ leBytes 4 g.tsc.toNat) ++ elBytes (packBits f) g ++
    g.scl.zipIdx.map (fun b => (BitVec.ofNat 8 b.1, nth false g.spois b.2))
  pktBytes (pktWord 0x10 false last 0 body.length idx) 0#64 body

/-- A field of a collective header (R307): n bytes at i. -/
def headNum (h : List Byte) (i n : Nat) : Nat := leNat ((h.drop i).take n)

/-- The segment that a packet's header and payload hold. -/
def pktSeg (h : List Byte) (q : PBytes) : Seg :=
  let f := headNum h 8 1 / 16
  let blk := arrBlock (headNum h 9 1 % 4)
  let n := headNum h 10 2 % 4096 + 1
  let w := packBits f
  let ss := if blk = 0 then [] else (q.drop (ceilDiv (n * w) 8)).take (n / blk)
  { off := 0, els := (List.range n).map (codeAt w (fun k => (nth (0#8, false) q k).1)), tsc := BitVec.ofNat 32 (headNum h 12 4)
    scl := ss.map (·.1.toNat), pois := (List.range n).map (fun i => (nth (0#8, false) q (i * w / 8)).2), spois := ss.map (·.2) }

/-- A contribution decoded to FP32 (R309 step 1). -/
def decodeSeg (f a : Nat) (g : Seg) : List (Half × Bool) :=
  (List.range g.els.length).map (fun i =>
    let x := decodeNum f (nth 0 g.els i)
    let b := nth 0 g.scl (i / max 1 (arrBlock a))
    let v := if a = 1 then Num.mul (Num.mul x (decodeNum UE4M3 b)) (f32 g.tsc) else if a = 2 then Num.mul x (decodeNum E8M0 b) else x
    (toF32 .even v, g.bad a i))

/-- Partial sums as a run of plain FP32. -/
def encodeVals (off : Nat) (ts : Half) (vs : List (Half × Bool)) : Seg := { off := off, els := vs.map (fun v => v.1.toNat), tsc := ts, pois := vs.map (·.2) }

/-- Convert sums to the output pair (R309 step 3): the run, which carries the sender's input tensor scale (R307), and which DQ blocks
saturated. A block with a poisoned sum is poisoned whole: its scale comes from it (R25). -/
def convertVals (c : Coll) (off : Nat) (vs : List (Half × Bool)) : Seg × List Bool :=
  let sc := if takesScale c.outF c.outA then some c.outTs else none
  let xs := vs.map (fun v => f32 v.1)
  if c.outA = 0 then ({ off := off, els := (convPlain c.outF sc (fun _ => .even) xs).els.map (·.code), tsc := c.inTs, pois := vs.map (·.2) }, []) else
  let k := arrBlock c.outA
  let us := (chunks k xs).map (copyBlock c.outF c.outA sc)
  let bad := (chunks k vs).map (fun b => b.any (·.2))
  let sat := if c.outA = 1 then (chunks 16 xs).map (fun b => (convBlock c.outF 1 none sc (fun _ => .even) (fun _ => 0) b).ovf) else []
  ({ off := off, els := us.flatMap (fun u => u.els.map (·.code)), scl := us.map (·.sb), tsc := c.inTs
     pois := bad.flatMap (List.replicate k), spois := bad }, sat)

/-! ### Sources (R302, R308, R320) -/

def Coll.part (c : Coll) (q : Nat) : Part := nth {} c.parts q
def Coll.setPart (c : Coll) (q : Nat) (p : Part) : Coll := { c with parts := setNth c.parts q p }

/-- Every part of a collective is finished. -/
def Coll.complete (c : Coll) : Bool := c.started && c.parts.all (·.finished)

/-- The segments of a run of n elements from the source: element there, place in the result, first index, ranks it goes to, kept. -/
def cutTasks (f idx src off n : Nat) (peers : List Nat) (keep : Bool) : List SrcTask :=
  let m := segEls f
  let k := ceilDiv n m
  (List.range k).map (fun j => ⟨src + j * m, off + j * m, min m (n - j * m), idx + j, j + 1 == k, peers, keep⟩)

/-- What this member reads for part q (R308): of a reduction, each peer's sub-part of the first stage, and its own; else what it gives. -/
def sourceTasks (s : State) (c : Coll) (q : Nat) : List SrcTask :=
  let me := myRank s c
  let o := ownedRange s c q me
  let idx := firstIdx c.inF o.1.1 o.2
  let peers := match (partStages s c q)[0]? with | some (_, d) => dimPeers s c me d | none => []
  if c.op = 4 then
    (if q ≠ 0 then [] else (List.range (commSize s c.comm)).flatMap (fun j =>
      cutTasks c.inF (firstIdx c.inF (me * c.els) me) (j * c.els) (me * c.els) c.els (if j = me then [] else [j]) (j == me)))
  else if c.op = 5 then (if c.root = me then cutTasks c.inF idx o.1.1 o.1.1 o.1.2 peers true else [])
  else if c.op = 3 then cutTasks c.inF idx (o.1.1 - me * c.els) o.1.1 o.1.2 peers true
  else match (partDims s c q).head? with
    | none => let p := partRange c q; cutTasks c.inF 0 p.1 p.1 p.2 [] true
    | some d =>
      let sub := fun (r : Nat) => subRange c.unit (partRange c q) (commN s c.comm d) (rankCoord s c.comm r d)
      let own := sub me
      cutTasks c.inF (firstIdx c.inF own.1 q) own.1 own.1 own.2 [] true ++
      peers.flatMap (fun r => cutTasks c.inF (firstIdx c.inF (sub r).1 q) (sub r).1 (sub r).1 (sub r).2 [r] false)

/-- Address ranges that a run of n source elements is read from: data, block scales. -/
def sourceRanges (c : Coll) (e n : Nat) : List (Nat × Nat) :=
  let w := packBits c.inF
  let blk := arrBlock c.inA
  let lo := scaleSlot c.inF c.inA (e / blk)
  if n = 0 then [] else
  [(c.src + e * w / 8, ceilDiv ((e + n) * w) 8 - e * w / 8)] ++
  (if blk = 0 then [] else [(c.srcScale + lo, scaleSlot c.inF c.inA ((e + n - 1) / blk) + 1 - lo)])

/-- A segment waits at the controller of a stack at its critical step (R320). -/
def taskWaits (s : State) (c : Coll) (t : SrcTask) : Bool := (sourceRanges c t.src t.len).any (fun r => stkWaits s r.1 r.2)

/-- Elements of the whole source. -/
def srcEls (s : State) (c : Coll) : Nat := if c.op = 4 then c.els * commSize s c.comm else c.els

/-- A collective not complete reads from a stack at a step: any source while it waits to start, those still unread later (R314). -/
def readsAt (s : State) (step : Nat) (c : Coll) : Bool :=
  let rs := if c.started then c.parts.flatMap (fun p => p.todo.flatMap (fun t => sourceRanges c t.src t.len)) else sourceRanges c 0 (srcEls s c)
  rs.any (fun r => (linesOf r.1 r.2).any (fun l => rbits s (reg .STK_TEMP (serveStack s (physOf s (backing s false l)))) 9 8 == step))

/-! ### Pace following (R317 to R319) -/

/-- The arrival depends on a stack at its critical step: its source, or its start word (R317, R320). -/
def stalled (s : State) (c : Coll) : Bool :=
  readsAt s 3 c || (!c.started && c.startWord != 0 && decide (c.startWord < stackTop) && stkWaits s c.startWord 8)

/-- A member's estimate of its own arrival (R317): the epoch, and whether it is valid. -/
def ownArrival (s : State) (c : Coll) : Nat × Bool :=
  let now := (epoch s).toNat
  if stalled s c then (now + 1000000, false)
  else if c.started || s.watch.met.contains (8, c.id) || startMet s c.startWord c.startVal then (now, true)
  else match flagWord s c.startWord, SMap.get [] s.watch.hist c.id with
    | some w, (t, v) :: _ =>
      let cur := bits w 31 0
      let dt := min (now - t) 100000
      if v < cur && 0 < dt then (now + (c.startVal - cur) * dt / (cur - v), true) else (now, false)
    | _, _ => (now, false)

/-- Latest valid arrival reported within the last 30 µs. -/
def amaxOf (s : State) (c : Coll) : Option Nat :=
  let now := (epoch s).toNat
  (c.amax.filter (fun e => decide (now ≤ e.1 + 30000))).foldl (fun m e => some (max (m.getD 0) e.2)) none

/-- The clock that pace sets for a die on account of a collective whose producers it runs, where it follows (R318). -/
def paceClock (s : State) (d : Nat) (c : Coll) : Option Nat :=
  let g := rbits s (reg .COL_PACE) 15 0 * 1000
  let own := ownArrival s c
  let now := (epoch s).toNat
  match amaxOf s c with
  | some a => if own.2 && decide (own.1 + g < a) && Config.producerDie c.id d then
      some (clipClock (max (rbits s (reg .COL_PACE) 27 16) (dieClock s d * (own.1 - now) / (a - g - now)))) else none
  | none => none

/-- Show the greatest A_max and set the pace clocks (R318, R319): recomputed on every frame and release. -/
def repace (s : State) : State :=
  let top := (s.fab.colls.filter (·.started)).foldl (fun m c => max m ((amaxOf s c).getD 0)) 0
  let s := rset (reg .COL_PACE_AMAX) (w64 top) s
  let cap := fun (d : Nat) => if assist s 14 then 1300 else (s.fab.colls.filterMap (paceClock s d)).foldl min 1300
  let caps := (List.range 4).map cap
  let s := (List.range 4).foldl (fun s d => setDie d { dieG s d with capPace := nth 1300 caps d } s) s
  retarget (rsetBit (reg .COL_PACE) 32 (!assist s 14 && s.fab.colls.any (fun c => (List.range 4).any (fun d => (paceClock s d c).isSome))) s)

/-! ### Running a part (R308, R309) -/

/-- Segments of a run that have come, in order. -/
def gotSegs (p : Part) (i : Nat) (e : Due) : List Seg :=
  (List.range e.segs).filterMap (fun j =>
    (p.got.find? (fun g => g.1 == i && g.2.1 == e.key && g.2.2.off == e.off + j * segEls e.fmt)).map (fun g => g.2.2))

/-- A run expected has come whole. -/
def dueHere (p : Part) (i : Nat) (e : Due) : Bool := sumNat ((gotSegs p i e).map (fun g => g.els.length)) == e.len

/-- Segments joined to one run. -/
def joinSegs (off : Nat) (gs : List Seg) : Seg :=
  { off := off, els := gs.flatMap (·.els), scl := gs.flatMap (·.scl), pois := gs.flatMap (·.pois), spois := gs.flatMap (·.spois)
    tsc := (gs.head?.map (fun g => g.tsc)).getD one32 }

/-- A run put in its place among runs in order of their offsets. -/
def insertSeg (g : Seg) : List Seg → List Seg
  | [] => [g]
  | h :: r => if g.off ≤ h.off then g :: h :: r else h :: insertSeg g r

/-- What this member keeps of its own source, as one run. -/
def ownRun (p : Part) : List Seg :=
  match p.pieces.foldr insertSeg [] with
  | [] => []
  | g :: r => [joinSegs g.off (g :: r)]

/-- End a collective: its frame, with the record's tag; packets of it that wait are dropped, and pace no longer follows it (R311, R318, R392). -/
def endColl (c : Coll) (status detail : Nat) (s : State) : State :=
  let mine := s.fab.rx.filter (fun p => bits p.w0 7 0 == 0x10 && headNum (rawBytes (p.data.take 4)) 0 4 == c.id)
  let s := mine.foldl (fun s p => rxTake p s) s
  let s := { s with fab := { s.fab with staged := s.fab.staged.filter (fun g => headNum g.head 0 4 != c.id) } }
  let s := { dropMet (8, c.id) s with watch := { (dropMet (8, c.id) s).watch with hist := SMap.put [] s.watch.hist c.id [] } }
  let s := stageIn s
  let s := repace (setColls (s.fab.colls.filter (fun k => k.id != c.id)) s)
  finishCmd c.cmd status detail (w64 c.tag) s

/-- A member that the next stage needs has no route: the collective ends, on the engine of the segment (R311, R321). -/
def unreachable (c : Coll) (e : Nat) (s : State) : State := endColl c stUNREACHABLE 0 (rsetBit (reg .COL_ERR e) 1 true s)

/-- What stage i of part q, after the first, makes this member send: peer rank, first index, whether it passes another member's on, run. -/
def stageSends (s : State) (c : Coll) (q i : Nat) : List (Nat × Nat × Bool × Seg) :=
  let me := myRank s c
  let p := c.part q
  match (partStages s c q)[i]? with
  | none => []
  | some (gather, d) =>
    let pr := stagePair c gather i
    if i = 0 || c.op = 4 then []
    else if c.op = 5 then
      if !bcastHolds s c q me i then [] else
      let o := ownedRange s c q c.root
      (dimPeers s c me d).flatMap (fun r => p.pieces.map (fun g => (r, firstIdx pr.1 o.1.1 o.2, me != c.root, g)))
    else if gather then
      (dimPeers s c me d).flatMap (fun r => (heldOwners s c q me i).filterMap (fun k =>
        let o := ownedRange s c q k
        (p.pieces.find? (fun g => g.off == o.1.1 && g.els.length == o.1.2)).map (fun g => (r, firstIdx pr.1 o.1.1 o.2, k != me, g))))
    else
      let h := heldRange s c q me i
      (dimPeers s c me d).map (fun r =>
        let h2 := subRange c.unit h (commN s c.comm d) (rankCoord s c.comm r d)
        (r, firstIdx pr.1 h2.1 q, false, encodeVals h2.1 c.inTs ((p.vals.drop (h2.1 - h.1)).take h2.2)))

/-- Send runs as COL packets, counting the segments that are passed on (R321); a member without a route ends the collective (R295, R311). -/
def sendRuns (c : Coll) (gather : Bool) (d : Nat) (pr : Nat × Nat) (rs : List (Nat × Nat × Bool × Seg)) (s : State) : State :=
  match rs.find? (fun x => !x.2.2.2.els.isEmpty && nextHop s none (ownId s) (rankId s c.comm x.1) x.2.1 == .none) with
  | some x => unreachable c (engineOf s x.2.1) s
  | none =>
    rs.foldl (fun s x =>
      let segs := cutSegs pr.1 pr.2 x.2.1 x.2.2.2
      segs.foldl (fun s g =>
        let s := if x.2.2.1 then rcount (reg .COL_SEGS (engineOf s g.1)) 48 1 s else s
        sendPacket none (ownId s) (rankId s c.comm x.1) (colPacket c.id d gather pr.1 pr.2 g.1 (g.1 + 1 == x.2.1 + segs.length) g.2) s) s) s

/-- Note poison that this member meets in a collective (R310, R321). -/
def notePoison (id e : Nat) (bad : Bool) (s : State) : State :=
  if !bad then s else
  match collOf s id with
  | some c => setColl { c with poisoned := true } (rsetBit (reg .COL_ERR e) 0 true s)
  | none => s

/-- Read a segment of the source, keep it or send it to its peers in the first stage (R302, R308). -/
def runTask (id q : Nat) (t : SrcTask) (s : State) : State :=
  match collOf s id with
  | none => s
  | some c =>
    let e := engineOf s t.idx
    if t.peers.any (fun r => nextHop s none (ownId s) (rankId s c.comm r) t.idx == .none) then unreachable c e s else
    let r := colRead c.src c.srcScale c.inF c.inA t.src t.len c.inTs s
    let g := { r.1 with off := t.off }
    let d := match (partStages s c q)[0]? with | some x => x.2 | none => 0
    let s := t.peers.foldl (fun s k => sendPacket none (ownId s) (rankId s c.comm k) (colPacket c.id d (!c.reduces) c.inF c.inA t.idx t.last g) s)
      (notePoison id e g.anyBad r.2)
    match t.keep, collOf s id with
    | true, some c => setColl (c.setPart q { c.part q with pieces := (c.part q).pieces ++ [g] }) s
    | _, _ => s

/-- Read what part q still needs of the source, but for segments that wait at a critical stack (R320). -/
def feedPart (id q : Nat) (s : State) : State :=
  match collOf s id with
  | none => s
  | some c =>
    let p := c.part q
    (p.todo.filter (fun t => !taskWaits s c t)).foldl (fun s t => runTask id q t s) (setColl (c.setPart q { p with todo := p.todo.filter (taskWaits s c) }) s)

/-- The sums of a part turn into its owned piece (R309 step 3); each block that saturates counts on the engine of its segment. -/
def convertPart (id q : Nat) (s : State) : State :=
  match collOf s id with
  | none => s
  | some c =>
    let o := ownedRange s c q (myRank s c)
    let p := c.part q
    let vs := if reduceStages s c q = 0 then (ownRun p).flatMap (decodeSeg c.inF c.inA) else p.vals
    let r := convertVals c o.1.1 vs
    let i := firstIdx c.outF o.1.1 o.2
    let s := setColl (c.setPart q { p with vals := [], pieces := [r.1] }) s
    let s := r.2.zipIdx.foldl (fun s b => if b.1 then rcount (reg .COL_SAT (engineOf s (i + b.2 * 16 / segEls c.outF))) 48 1 s else s) s
    (cutSegs c.outF c.outA i r.1).foldl (fun s g => notePoison id (engineOf s g.1) g.2.anyBad s) s

/-- A segment of the result waits: a destination in a stack at its critical step, or in a tile in MAP_HOLD (R31, R320). -/
def outWaits (s : State) (c : Coll) (g : Seg) : Bool := (runWrites s c g).any (fun w => putWaits s w.1 w.2.length)

/-- Write what part q still has to write and need not wait for; it is finished when nothing is left (R311, R320). -/
def writeOuts (id q : Nat) (s : State) : State :=
  match collOf s id with
  | none => s
  | some c =>
    let p := c.part q
    let r := (p.outs.filter (fun g => !outWaits s c g)).foldl (fun r g => let w := colWrite c g r.2; (r.1 || w.1, w.2)) (false, s)
    let rest := p.outs.filter (outWaits s c)
    setColl ({ c with lost := c.lost || r.1 }.setPart q { p with outs := rest, finished := rest.isEmpty }) r.2

/-- Part q stands before stage i: sums are converted after the last reduce stage; the last stage done, results are written; else the
stage's runs are sent. -/
def enterStage (id q i : Nat) (s : State) : State :=
  match collOf s id with
  | none => s
  | some c0 =>
    let s := if c0.reduces && decide (i = reduceStages s c0 q) then convertPart id q s else s
    match collOf s id with
    | none => s
    | some c =>
      let p := c.part q
      match (partStages s c q)[i]? with
      | none =>
        let outs := p.pieces.flatMap (fun g => (cutSegs c.outF c.outA 0 g).map (·.2))
        writeOuts id q (setColl (c.setPart q { p with pieces := [], got := [], outs := outs, stage := i }) s)
      | some (gather, d) => sendRuns c gather d (stagePair c gather i) (stageSends s c q i) (setColl (c.setPart q { p with stage := i }) s)

/-- The sum of contributions in increasing relative coordinate, from coordinate 0 (R309 step 2). -/
def sumContribs (cs : List (List (Half × Bool))) : List (Half × Bool) :=
  match cs with
  | [] => []
  | c :: r => r.foldl (fun a b => (a.zip b).map (fun p => (fadd p.1.1 p.2.1, p.1.2 || p.2.2))) c

/-- Complete stage i of part q, whose runs have come (R308). -/
def closeStage (c : Coll) (q i : Nat) (s : State) : State :=
  let p := c.part q
  let due := stageDue s c q i
  match (partStages s c q)[i]? with
  | none => s
  | some (gather, d) =>
    if gather then
      let new := due.map (fun e => joinSegs e.off (gotSegs p i e))
      enterStage c.id q (i + 1) (setColl (c.setPart q { p with pieces := (if i = 0 then ownRun p else p.pieces) ++ new, got := p.got.filter (fun g => g.1 != i) }) s)
    else
      let me := myRank s c
      let h := heldRange s c q me i
      let own := heldRange s c q me (i + 1)
      let pr := stagePair c false i
      let mine := if i = 0 then (ownRun p).flatMap (decodeSeg c.inF c.inA) else (p.vals.drop (own.1 - h.1)).take own.2
      let contrib := fun (k : Nat) =>
        if k = rankCoord s c.comm me d then mine
        else match due.find? (fun e => rankCoord s c.comm e.sender d == k) with
          | some e => decodeSeg pr.1 pr.2 (joinSegs e.off (gotSegs p i e))
          | none => []
      let vs := sumContribs ((List.range (commN s c.comm d)).map contrib)
      enterStage c.id q (i + 1) (setColl (c.setPart q { p with vals := vs, pieces := [], got := p.got.filter (fun g => g.1 != i) }) s)

/-! ### Pace frames received (R313, R318) -/

/-- Apply a pace frame that came at t to a collective queued or running here (R318); in host-assisted mode an event tells the host (R319). -/
def applyPace (c : Coll) (t : Nat) (body : List Byte) (s : State) : State :=
  let fl := (nth 0#8 body 7).toNat
  let now := (epoch s).toNat
  let live := c.amax.filter (fun e => decide (now ≤ e.1 + 30000))
  let c2 := if fl / 2 % 2 = 1 then { c with amax := [] }
    else if fl % 2 = 1 then { c with amax := live ++ [(t, headNum body 8 8)] } else { c with amax := live }
  let c2 := match idRank s c.comm (headNum body 4 2 % 4096) with
    | some r => { c2 with heard := SMap.put 0 c2.heard r t }
    | none => c2
  let s := repace (setColl c2 s)
  if assist s 14 then recOther .engine 319 (w64 c.id) s else s

/-- Held frames of a collective are applied, within their 30 µs (R313). -/
def applyHeld (id : Nat) (s : State) : State :=
  let now := (epoch s).toNat
  let isIt := fun (h : Nat × List Byte) => headNum h.2 0 4 == id
  let mine := s.fab.paceHeld.filter (fun h => isIt h && decide (now ≤ h.1 + 30000))
  let s := { s with fab := { s.fab with paceHeld := s.fab.paceHeld.filter (fun h => !isIt h) } }
  mine.foldl (fun s h => match collOf s id with | some c => applyPace c h.1 h.2 s | none => s) s

/-! ### Commands and events of collectives -/

/-- Address ranges of a collective's destination: data, block scales. -/
def destRanges (s : State) (c : Coll) : List (Nat × Nat) :=
  let n := if c.op = 3 || c.op = 4 then c.els * commSize s c.comm else c.els
  if n = 0 then [] else
  [(c.dst, ceilDiv (n * packBits c.outF) 8)] ++
  (if arrBlock c.outA = 0 then [] else [(c.dstScale, scaleSlot c.outF c.outA ((n - 1) / arrBlock c.outA) + 1)])

/-- A stack that holds sources or destinations of a collective was lost (R311). -/
def collLost (s : State) (c : Coll) : Bool :=
  c.lost || (sourceRanges c 0 (srcEls s c) ++ destRanges s c).any (fun r => writeLost s r.1 r.2)

/-- COLLECTIVE_START (R306): in increasing sequence within its communicator; sources are read and the first stages begin. A segment whose
source lies in a critical stack waits, the others go on (R320). -/
def execCollectiveStart (id : Nat) (s : State) : Out :=
  .next (
    match collOf s id with
    | none => s
    | some c =>
      let first := s.fab.colls.all (fun k => k.started || k.comm != c.comm || decide (c.seqNo ≤ k.seqNo))
      if !running s || c.started || !first || !(s.watch.met.contains (8, id) || startMet s c.startWord c.startVal) then s else
      let c := { c with started := true, startAt := (epoch s).toNat, parts := (List.range 3).map (fun q => { todo := sourceTasks s c q }) }
      let s := (List.range 3).foldl (fun s q => feedPart id q s) (setColl c (dropMet (8, id) s))
      repace ((List.range 3).foldl (fun s q => if (partStages s c q).isEmpty && (c.part q).todo.all (fun t => !taskWaits s c t) then enterStage id q 0 s else s) s))

/-- The packet's stage among a part's and the run it belongs to. -/
def placePacket (s : State) (c : Coll) (src dim idx : Nat) (gather : Bool) (f : Nat) : Option (Nat × Nat × Due) :=
  ((List.range 3).flatMap (fun q => (List.range (partStages s c q).length).flatMap (fun i =>
    if (partStages s c q)[i]? = some (gather, dim) then
      ((stageDue s c q i).filter (fun e => e.sender == src && e.fmt == f && decide (e.idx ≤ idx) && decide (idx < e.idx + e.segs))).map (fun e => (q, i, e))
    else []))).head?

/-- A staged segment reaches its collective: once, however often it came; a contribution is reduced, and counted so (R294, R308, R321). -/
def takeSeg (c : Coll) (h : List Byte) (r : Nat) (g : Seg) (s : State) : State :=
  let idx := headNum h 4 4
  let e := engineOf s idx
  let gather := bit (w64 (headNum h 8 1)) 2
  match placePacket s c r (headNum h 8 1 % 4) idx gather (headNum h 8 1 / 16) with
  | none => s
  | some (q, i, d) =>
    let off := d.off + (idx - d.idx) * segEls d.fmt
    let p := c.part q
    if decide (i < p.stage) || p.got.any (fun x => x.1 == i && x.2.1 == d.key && x.2.2.off == off) then s else
    let s := setColl (c.setPart q { p with got := p.got ++ [(i, d.key, { g with off := off })] }) s
    notePoison c.id e g.anyBad (if gather then s else rcount (reg .COL_SEGS e) 48 1 s)

/-- COL_PACKET (R302, R306, R307): packets received are staged, and the oldest staged segment of a collective started here is taken up; those
of others wait, and those in a tile in MAP_HOLD (R313). -/
def execColPacket (s : State) : Out :=
  .next (
    let s := stageIn s
    let mine := fun (g : Staged) => tileState s g.tile != 2 && (match collOf s (headNum g.head 0 4) with | some c => c.started | none => false)
    match running s, s.fab.staged.find? mine with
    | true, some g =>
      let u := unstage g s
      let s := stageIn u.2
      match collOf s (headNum g.head 0 4) with
      | none => s
      | some c =>
        match idRank s c.comm g.src with
        | none => s
        | some r =>
          let c := { c with heard := SMap.put 0 c.heard r (epoch s).toNat }
          takeSeg c g.head r (pktSeg g.head u.1) (setColl c s)
    | _, _ => s)

/-- STAGE_COMPLETE (R308): what waited for a critical stack is read, or written (R320); the part's present stage, with all it expects, gives way
to the next. -/
def execStageComplete (id part : Nat) (s : State) : Out :=
  .next (
    if !running s || part ≥ 3 then s else
    let s := feedPart id part s
    match collOf s id with
    | none => s
    | some c =>
      let p := c.part part
      let i := p.stage
      if !c.started || p.finished || !p.todo.isEmpty then s
      else if i ≥ (partStages s c part).length then (if p.outs.isEmpty then enterStage id part i s else writeOuts id part s)
      else if (stageDue s c part i).all (dueHere p i) then closeStage c part i s
      else s)

/-- COLLECTIVE_COMPLETION (R311): every result is written: completion word, frame. A collective whose stack is lost ends STACK_LOST. -/
def execCollectiveCompletion (id : Nat) (s : State) : Out :=
  .next (
    match collOf s id with
    | none => s
    | some c =>
      if c.complete && !c.lost then
        (if flagWaits s c.doneWord then s else endColl c (if c.poisoned then stPOISON else stOK) 0 (bumpWord none c.doneWord s))
      else if collLost s c then endColl c stSTACK_LOST 0 s
      else s)

/-- SILENT (R312): due epoch passed, the member's contribution is outstanding, and it was silent for a window. -/
def execSilent (id rank : Nat) (s : State) : Out :=
  .next (
    match collOf s id with
    | none => s
    | some c =>
      let now := (epoch s).toNat
      let outs := (List.range 3).flatMap (fun q => let p := c.part q
        (List.range (partStages s c q).length).flatMap (fun i => if i < p.stage || p.finished then [] else
          (stageDue s c q i).filter (fun e => e.sender == rank && !dueHere p i e)))
      let waits := s.fab.rx.any (fun p => bits p.w0 7 0 == 0x10 && idRank s c.comm p.src == some rank) || s.fab.staged.any (fun g => idRank s c.comm g.src == some rank)
      let since := max (max (SMap.get 0 c.heard rank) (SMap.get 0 c.silent rank)) c.startAt
      match outs with
      | [] => s
      | e :: _ =>
        if !c.started || c.due = 0 || now ≤ c.due || waits || now < since + c.silence * 1000 then s else
        let dev := rankId s c.comm rank
        let s := setColl { c with silent := SMap.put 0 c.silent rank now } s
        event 0x0801 0xFF dev (w64 id) (w64 dev) (rcount (reg .COL_SILENT (engineOf s e.idx)) 48 1 s))

/-- A collective record that R304 and R305 accept. -/
def collForm (s : State) (c : Coll) : Bool :=
  bits (c.word 0) 35 20 == 0 && [8, 0x10, 0x18, 0x20, 0x28, 0x40, 0x50].all (fun o => bits (c.word o) 63 48 == 0) &&
  bits (c.word 0x38) 63 12 == 0 && (c.rec_.drop 0x68).all (· == 0#8) &&
  colPairOk c.op c.inF c.inA c.outF c.outA && (c.unit == 1 || c.els % 32 == 0) &&
  (c.op == 5 || c.root == 0) && decide (c.root < commSize s c.comm) &&
  bit (rget s (reg .COL_COMM c.comm)) 0 && (idRank s c.comm (ownId s)).isSome &&
  (bits (c.word 0x60) 31 0 == 0 || (decide (10 ≤ bits (c.word 0x60) 31 0) && decide (bits (c.word 0x60) 31 0 ≤ 1000000)))

/-- A record is refused (R305, R306, R319, R321). -/
def collRefuse (r : CmdRef) (st : Nat) (s : State) : State := postFrame r st 0 0#64 (rsetBit (reg .COL_ERR (engineOf s 0)) 2 true s)

/-- COL_SUBMIT (R304 to R306, R319, R392). -/
def execColSubmit (ring : Nat) (f : Frame) (s : State) : Out :=
  .next (serveAt ring 0x0402 f { ops := [maskBits 47 0] } (bits f.w1 47 0) 128 (fun r s =>
    let a := bits f.w1 47 0
    if assist s 12 then collRefuse r stREFUSED_MODE s
    else if !(decide (a + 128 ≤ stackTop) && (linesOf a 128).all (fun l => stkPresent s l)) then collRefuse r stREFUSED_ADDR s
    else
      let (d, s) := stkRead 1 a 128 s
      let c : Coll := { rec_ := rawBytes d, cmd := r }
      let bytes := ceilDiv (c.els * (if c.op = 4 then commSize s c.comm else 1) * packBits c.inF) 8
      if anyPoison d || !collForm s c then collRefuse r stREFUSED_FORM s
      else if c.src + bytes > stackTop || !flagWordOk s c.startWord || !flagWordOk s c.doneWord then collRefuse r stREFUSED_ADDR s
      else if s.fab.colls.length ≥ 32 then collRefuse r stQUEUE_FULL s
      else applyHeld c.id (noteStarts (· == c.startWord) (acceptCmd r 0#64 (workAccepted (setColls (s.fab.colls ++ [c]) s))))) s)

/-- COL_ABORT (R392): OK, then the collective's frame with ABORTED, detail 1; one that is complete stands (R313). -/
def execColAbort (ring : Nat) (f : Frame) (s : State) : Out :=
  .next (serve ring 0x0403 f { ops := [maskBits 31 0] } (fun r s =>
    match collOf s (bits f.w1 31 0) with
    | none => postFrame r stREFUSED_STATE 0 0#64 s
    | some c =>
      if c.complete then postFrame r stREFUSED_STATE 0 0#64 s
      else endColl c stABORTED 1 (postFrame r stOK 0 0#64 s)) s)

/-! ### Pace frames (R314 to R316) -/

/-- The link to a pace peer: the first live port of the bond to it. -/
def paceLink (s : State) (dst : Nat) : Option Nat :=
  ((List.range 3).find? (fun d => coordOf dst d != ownCoord s d)).bind (fun d => (liveBond s d (coordOf dst d)).head?.map (fun j => linkOfRole s d j))

/-- The copies that a device sends which holds a frame after stage st − 1: link, fan-out stage, destination, for every later stage in turn (R316). -/
def paceCopies (s : State) (c me st : Nat) : List (Nat × Nat × Nat) :=
  ((List.range 3).filter (fun d => decide (st ≤ d))).flatMap (fun d =>
    ((List.range (commN s c d)).filter (· != rankCoord s c me d)).filterMap (fun k =>
      let dst := rankId s c (rankWith s c me d k)
      (paceLink s dst).map (fun l => (l, d, dst))))

/-- Send the copies of a frame; `org` is the receive-buffer place that they hold until the last has left (R287). -/
def spreadPace (org : Option (Nat × Nat)) (cs : List (Nat × Nat × Nat)) (body : List Byte) (s : State) : State :=
  cs.foldl (fun s x =>
    let b := setNth body 7 (BitVec.ofNat 8 ((nth 0#8 body 7).toNat % 4 + x.2.1 * 4))
    pushFlits x.1 [{ kind := 2, dst := x.2.2, src := ownId s, bytes := cleanBytes b, org := org }] s) s

/-- The pace cause that a limit of R343 stands for (R315); 0 none. -/
def rowCause (row : Nat) : Nat := match row with | 1 | 3 | 7 => 6 | 2 | 6 => 2 | 4 | 5 => 1 | _ => 0

/-- The condition of a pace cause holds (R314, R320): a limit of that cause keeps a die's clock below the choice for its phase tag, a
collective reads from a hot or critical stack, or a catch stretch is sustained. -/
def paceHolds (s : State) (cause : Nat) : Bool :=
  let open_ := s.fab.colls.filter (fun c => !c.complete)
  if cause = 3 then open_.any (readsAt s 2)
  else if cause = 4 then open_.any (readsAt s 3)
  else (List.range 4).any (fun d =>
    let f := tagClock s d (dieG s d).dom
    !dieGone s d && (if cause = 5 then (dieG s d).sustained
      else cause != 0 && decide (dieClock s d < f) && (dieLimits s d).any (fun r => rowCause r.1 == cause && decide (r.2 < f))))

/-- The contents of a pace frame (R315), 256 bytes. -/
def paceBody (s : State) (c : Coll) (cause : Nat) (fin : Bool) : List Byte :=
  let est := ownArrival s c
  leBytes 4 c.id ++ leBytes 2 (ownId s) ++ [BitVec.ofNat 8 cause, BitVec.ofNat 8 (b2n est.2 + b2n fin * 2)] ++ leBytes 8 est.1 ++
  leBytes 8 (epoch s).toNat ++ leBytes 4 s.fab.paceCount ++ (List.range 4).map (fun d => BitVec.ofNat 8 (dieClock s d / 10)) ++ List.replicate 224 0#8

/-- PACE_FRAME_TIMER (R314): while a cause holds, a frame for every collective queued or running and not complete; cause 0 is the end frame, sent
once when none holds any more. -/
def execPaceFrameTimer (cause : Nat) (s : State) : Out :=
  .next (
    let fin := cause == 0
    let on := s.fab.paceCause
    let due := if fin then on != 0 && (List.range 7).all (fun k => !paceHolds s k) else decide (cause ≤ 6) && paceHolds s cause
    if !outputsOn s || !due then s else
    let n := if on ≠ 0 then s.fab.paceCount + 1 else 0
    let s := { s with fab := { s.fab with paceCause := cause, paceCount := n } }
    (s.fab.colls.filter (fun c => !c.complete)).foldl (fun s c =>
      rcount (reg .COL_PACE_SENT) 48 1 (spreadPace none (paceCopies s c.comm (myRank s c) 0) (paceBody s c (if fin then on else cause) fin) s)) s)

/-- A frame in the receive buffer of link l is forwarded to the later stages, then applied, or held for a collective not queued here
(R313, R316, R318). -/
def acceptPace (l : Nat) (body : List Byte) (s : State) : State :=
  let id := headNum body 0 4
  let c := id / 2 ^ 28
  let k := linkOf s l
  let copies := match bit (rget s (reg .COL_COMM c)) 0, idRank s c (ownId s) with
    | true, some me => paceCopies s c me ((nth 0#8 body 7).toNat / 4 % 4 + 1)
    | _, _ => []
  let s := setLink l { k with paceBuf := SMap.put 0 k.paceBuf k.paceNo copies.length, paceNo := k.paceNo + 1 } s
  let s := spreadPace (some (l, k.paceNo + 8)) copies body s
  match collOf s id with
  | some k => applyPace k (epoch s).toNat body s
  | none =>
    if s.fab.paceHeld.length ≥ 16 then rcount (reg .COL_PACE_LOST) 48 1 s
    else { s with fab := { s.fab with paceHeld := s.fab.paceHeld ++ [((epoch s).toNat, body)] } }

/-- PACE_FLIT (R287, R313, R316, R318): one that finds the 16 places of the port's buffer taken is acknowledged and discarded. -/
def execPaceFlit (l : Nat) (f : Flit) (s : State) : Out :=
  .next (takeFlit l 2 f (fun s =>
    let r := rxFlit l f s
    if !r.1 then r.2
    else if (linkOf r.2 l).paceBuf.length ≥ 16 then rsetBit (reg .LNK_ERR l) 4 true (rcount (reg .LNK_PACE_DROP l) 48 1 r.2)
    else acceptPace l (flitBody f) r.2) s)

/-- PACE_TIMEOUT (R318): 30 µs without frames of a collective. -/
def execPaceTimeout (id : Nat) (s : State) : Out :=
  .next (match collOf s id with
    | some c => if (amaxOf s c).isNone then repace (setColl { c with amax := [] } s) else s
    | none => s)

/-- PACE_HOLD_EXPIRY (R313): frames held 30 µs are dropped. -/
def execPaceHoldExpiry (id : Nat) (s : State) : Out :=
  .next (
    let now := (epoch s).toNat
    { s with fab := { s.fab with paceHeld := s.fab.paceHeld.filter (fun h => headNum h.2 0 4 != id || decide (now < h.1 + 30000)) } })

/-! ### NOROUTE and PUT_SEND -/

/-- NOROUTE (R295, R392): ends the PUT it answers; a collective that had sent the unreached member the segment of that tag ends UNREACHABLE
(R311, R313). -/
def execNoroutePacket (s : State) : Out :=
  .next (
    match rxFind s 0x21 with
    | none => s
    | some p =>
      let dst := bits p.w1 11 0
      let kind := bits p.w1 23 16
      let s := rxTake p s
      if kind = 0x01 then putDone dst (bits p.w0 43 28) stUNREACHABLE 3 s
      else if kind = 0x10 then
        let tag := bits p.w0 43 28
        (s.fab.colls.filter (fun c => c.started && (match idRank s c.comm dst with | some r => sentTo s c r tag | none => false))).foldl (fun s c =>
          unreachable c (engineOf s tag) s) s
      else s)

/-- PUT_SEND (R288, R392). -/
def execPutSend (ring : Nat) (f : Frame) (s : State) : Out :=
  .next (serveAt ring 0x0404 f { ops := [setBit (maskBits 11 0 ||| maskBits 47 32) 16 true, maskBits 47 0, maskBits 47 0, maskBits 11 0] } (bits f.w2 47 0) (bits f.w4 11 0 + 1) (fun r s =>
    let dst := bits f.w1 11 0
    let ack := bit f.w1 16
    let tag := bits f.w1 47 32
    let n := bits f.w4 11 0 + 1
    let a := bits f.w2 47 0
    if n > 4080 then postFrame r stREFUSED_FORM 0 0#64 s
    else if !(decide (a + n ≤ stackTop) && (linesOf a n).all (fun l => stkPresent s l)) then postFrame r stREFUSED_ADDR 0 0#64 s
    else
      let (d, s) := stkRead 1 a n s
      let bs := pktBytes (pktWord 0x01 ack true 0 n tag) (w64 (bits f.w3 47 0)) d
      if ack then
        let s := acceptCmd r 0#64 { s with fab := { s.fab with puts := s.fab.puts ++ [⟨tag, dst, r⟩] } }
        let z := sendOn none none (ownId s) dst bs s
        if z.1 then z.2 else putDone dst tag stUNREACHABLE 3 (rcount (reg .FAB_NOROUTE) 48 1 z.2)
      else
        let z := sendOn none none (ownId s) dst bs s
        if z.1 then postFrame r stOK 0 0#64 z.2 else postFrame r stUNREACHABLE 3 0#64 (rcount (reg .FAB_NOROUTE) 48 1 z.2)) s)

end Sys2Proof.Machine
end

