-- ==== Sys2Proof/Machine/Mail.lean ====
section
/-! DEFINITION. The mailbox: doorbells and rings (R373 to R375, R396), records and messages (R383, R410, R428), and the commands on work,
numerics, time, power, counters and firmware (R390, R393, R394). -/

namespace Sys2Proof.Machine
open Sys2Proof

/-! ### Rings (R373 to R375) -/

def cmdFrames (s : State) (c : Nat) : Nat := ringFrames (rbits s (reg .MBX_CMD_CFG c) 2 0)

/-- A ring error (R374): the ring stops; the event names the refused doorbell value. -/
def ringError (c v : Nat) (s : State) : State :=
  let s := { s with cox := { s.cox with stopped := SMap.put false s.cox.stopped c true } }
  msixRaise 63 (event 0x0C02 0xFF c (w64 (c % 8)) (w64 (v % 4096)) (rsetBit (reg .MBX_CMD_STAT c) 0 true s))

/-- A new tail for a command ring (R374). A ring that is stopped or disabled records it. -/
def cmdDoorbell (c v : Nat) (s : State) : State :=
  if c ≥ 8 || s.gate.st = .off then s else
  let n := cmdFrames s c
  let h := rbits s (reg .MBX_CMD_HEAD c) 11 0
  let tl := SMap.get 0 s.cox.tails c
  let take := { s with cox := { s.cox with tails := SMap.put 0 s.cox.tails c v } }
  if SMap.get false s.cox.stopped c || !bit (rget s (reg .MBX_CMD_CFG c)) 8 then (if v < n then take else s)
  else if v ≥ n || (tl + n - h) % n + (v + n - tl) % n > n - 1 then ringError c v s
  else take

/-- COMMAND_DOORBELL (R374). -/
def execCommandDoorbell (c v : Nat) (s : State) : Out := .next (cmdDoorbell c v s)

/-- A new head for a completion ring (R375): slots up to it are free and held frames are posted. A value that frees a frame not
written is discarded and recorded. -/
def cplDoorbell (c v : Nat) (s : State) : State :=
  if c ≥ 8 || s.gate.st = .off then s else
  let n := cplFrames s c
  let left := (rbits s (reg .MBX_CPL_TAIL c) 11 0 + n - v) % n
  if v ≥ n || left > SMap.get 0 s.cox.cplUsed c then recOther .host 375 (w64 v) s
  else
    let s := { s with cox := { s.cox with cplUsed := SMap.put 0 s.cox.cplUsed c left, cplHead := SMap.put 0 s.cox.cplHead c v } }
    cplFlush c (SMap.get [] s.cox.held c).length s

/-- COMPLETION_DOORBELL (R375). -/
def execCompletionDoorbell (c v : Nat) (s : State) : Out := .next (cplDoorbell c v s)

/-- A write of MBX_CMD_CFG (R374, R396): the enable bit starts a ring that is disabled or stopped, with its head at its tail. -/
def writeCmdCfg (c : Nat) (v : Word) (s : State) : State :=
  if c ≥ 8 then s else
  let fresh := SMap.get false s.cox.stopped c || !bit (rget s (reg .MBX_CMD_CFG c)) 8
  let s := plainWrite .MBX_CMD_CFG c 0 v s
  if bit v 8 && fresh then
    let s := { s with cox := { s.cox with stopped := SMap.put false s.cox.stopped c false } }
    rset (reg .MBX_CMD_HEAD c) (w64 (SMap.get 0 s.cox.tails c)) (rsetBit (reg .MBX_CMD_STAT c) 0 false s)
  else s

/-- CMD_RING_ENABLE (R374). -/
def execCmdRingEnable (c : Nat) (v : Word) (s : State) : Out := .next (writeCmdCfg c v s)

/-- A write of MBX_CPL_CFG (R382, R396): the enable bit resets tail and phase and posts frames held since a PCIe reset; a ring that
the host disables drops what is due for it. -/
def writeCplCfg (c : Nat) (v : Word) (s : State) : State :=
  if c ≥ 8 then s else
  let s := plainWrite .MBX_CPL_CFG c 0 v s
  let due := SMap.get [] s.cox.held c
  if bit v 16 then
    let s := rset (reg .MBX_CPL_TAIL c) 0#64 { s with cox := { s.cox with
      cplUsed := SMap.put 0 s.cox.cplUsed c 0, cplHead := SMap.put 0 s.cox.cplHead c 0, phase := SMap.put false s.cox.phase c false, unreg := SMap.put false s.cox.unreg c false } }
    cplFlush c due.length s
  else if SMap.get false s.cox.unreg c then s
  else due.foldl (fun s f => cplPost c f s) { s with cox := { s.cox with held := SMap.put [] s.cox.held c [] } }

/-- CPL_RING_ENABLE (R396). -/
def execCplRingEnable (c : Nat) (v : Word) (s : State) : Out := .next (writeCplCfg c v s)

/-- CPL_HOLD_TIMEOUT (R375): the oldest frame not yet counted has been held for more than 1 ms. -/
def execCplHoldTimeout (c : Nat) (s : State) : Out :=
  .next (
    let due := SMap.get [] s.cox.held c
    let i := findIdx (fun f => !f.late) due
    if c ≥ 8 || i ≥ due.length then s else
    rcount (reg .MBX_CPL_OVF c) 48 1
      { s with cox := { s.cox with held := SMap.put [] s.cox.held c (setNth due i { nth { words := [] } due i with late := true }) } })

/-- HOST_READ_TIMEOUT (R429): a ring error, and PCIE_ERR bit 1. -/
def execHostReadTimeout (ring : Nat) (s : State) : Out :=
  .next (if ring ≥ 8 || s.gate.st = .off then s else ringError ring 0 (rsetBit (reg .PCIE_ERR) 1 true s))

/-! ### Records and messages -/

/-- ASYNC_RECORD_POST (R375, R383): the oldest record whose ring can take both its frames; a ring that the host disabled drops it. -/
def execAsyncRecordPost (s : State) : Out :=
  .next (
    let can := fun (e : Nat × List Word) =>
      if cplEnabled s e.1 then (SMap.get [] s.cox.held e.1).isEmpty && decide (SMap.get 0 s.cox.cplUsed e.1 + 2 ≤ cplFrames s e.1)
      else !SMap.get false s.cox.unreg e.1
    let i := findIdx can s.cox.async
    if s.gate.switching.isSome || i ≥ s.cox.async.length then s else
    let e := nth (0, []) s.cox.async i
    let s := { s with cox := { s.cox with async := dropNth s.cox.async i } }
    let one := fun (k : Nat) (s : State) => cplPost e.1 { words := (e.2.drop (4 * k)).take 4, irq := true, async := true } s
    if cplEnabled s e.1 then one 1 (one 0 s) else one 0 s)

/-- EVENT_RECORD_WRITE (R410): an event of the table is recorded and pushed. -/
def execEventRecordWrite (code die src : Nat) (a b : Word) (s : State) : Out :=
  .next (if s.gate.st = .off || code / 256 = 0x0E || code ≥ 65536 then s else event code die src a b s)

/-- A vector is unmasked: its pending message is sent (R428). -/
def msixUnmask (v : Nat) (s : State) : State :=
  let s := rsetBit (msixReg v 1) 32 false s
  if SMap.get false s.ports.msixPend v then msixRaise v { s with ports := { s.ports with msixPend := SMap.put false s.ports.msixPend v false } } else s

/-- MSIX_UNMASK (R428). -/
def execMsixUnmask (vec : Nat) (s : State) : Out := .next (if vec < 64 then msixUnmask vec s else s)

/-- MSIX_HOLDOFF_EXPIRY (R375): a message merged within the 2 µs is sent. -/
def execMsixHoldoffExpiry (vec : Nat) (s : State) : Out :=
  .next (
    let p := s.ports
    let s := { s with ports := { p with msixHold := SMap.put false p.msixHold vec false, msixMerged := SMap.put false p.msixMerged vec false } }
    if SMap.get false p.msixMerged vec then msixRaise vec s else s)

/-! ### Work (R368, R369, R390) -/

/-- Push descriptors in order until one is refused: how many were accepted. -/
def pushAll (t ring : Nat) : List (List Word) → Nat → State → Nat × State
  | [], k, s => (k, s)
  | d :: ds, k, s =>
    let r := pushTo .cox t { words := d, ring := ring } s
    match r.1 with
    | .accepted => pushAll t ring ds (k + 1) r.2
    | _ => (k, r.2)

/-- WORK_ENQ (R390). A tile in MAP_HOLD is waited for (R31). -/
def execWorkEnq (ring : Nat) (f : Frame) (s : State) : Out :=
  .next (
    let t := bits f.w1 10 0
    if t < numTiles && tileState s t = 2 then s else
    serve ring 0x0200 f { ops := [maskBits 10 0 ||| maskBits 21 16], buf := true } (fun r s =>
      let n := bits f.w1 21 16 + 1
      if s.gate.st != .rigged && s.gate.st != .underway then postFrame r stREFUSED_STATE s.gate.st.code 0#64 s
      else if t ≥ numTiles || tileState s t = 4 then postFrame r stREFUSED_ADDR 0 0#64 s
      else if bufLen f < n * 64 then postFrame r stREFUSED_FORM 0 0#64 s
      else if !bufOk f (n * 64) s then postFrame r stREFUSED_ADDR 0 0#64 s
      else
        let d := bufRead f (n * 64) s
        let ds := (chunks 64 (rawBytes d.1)).map bytesWords
        let i := findIdx dMalformed ds
        if i < n then postFrame r stREFUSED_FORM i 0#64 d.2
        else
          let p := pushAll t ring ds 0 d.2
          let s := if p.1 = 0 then p.2 else workAccepted p.2
          postFrame r (if p.1 = n then stOK else stPARTIAL) p.1 0#64 s) s)

/-- WORK_DRAIN (R368, R390). -/
def execWorkDrain (ring : Nat) (f : Frame) (s : State) : Out :=
  .next (serve ring 0x0201 f {} (fun r s =>
    if s.gate.st != .underway then postFrame r stREFUSED_STATE s.gate.st.code 0#64 s
    else acceptCmd r 0#64 (setDev .easy 20 { s with cox := { s.cox with drain := some r } })) s)

/-- EASY_COMPLETE (R368): every descriptor, job and collective has completed. -/
def execEasyComplete (s : State) : Out :=
  .next (
    if s.gate.st != .easy || !(s.tiles.all (fun e => e.2.seq == .idle && e.2.dq.isEmpty && e.2.drained && e.2.steal.answer.isNone)) ||
       !((List.range 8).all (fun n => (bdOf s n).jobs.isEmpty)) || !s.fab.colls.isEmpty then s
    else
      let c := s.cox.drain
      finishOpt c stOK 0 0#64 (retarget (setDev .rigged 21 { s with cox := { s.cox with drain := none } })))

/-- WORK_RUN (R369, R390). -/
def execWorkRun (ring : Nat) (f : Frame) (s : State) : Out :=
  .next (serve ring 0x0202 f {} (fun r s =>
    if s.gate.st != .rigged || !s.gate.frozen then postFrame r stREFUSED_STATE s.gate.st.code 0#64 s
    else postFrame r stOK 0 0#64 (retarget (setDev .underway 23 { s with gate := { s.gate with frozen := false } }))) s)

/-- End the frozen work of one tile (R86, R369): the running descriptor fails at its next instruction, the waiting ones at their entry. -/
def discardWork (t : Nat) (s : State) : State :=
  let x := tileOf s t
  let s := modTile t (fun x => (x.discardLater 0).setDq x.dqFar [] |>.summarize) s
  let s := descriptorFailure t (raiseFault t { code := fDISCARDED, pc := x.pc } s)
  x.dq.foldl (fun s e => failDescriptor t t e.ring e.words false { code := fDISCARDED, pc := dEntry e.words } s) s

/-- WORK_DISCARD (R369, R390): frozen descriptors fail, open commit groups abort. -/
def execWorkDiscard (ring : Nat) (f : Frame) (s : State) : Out :=
  .next (serve ring 0x0203 f {} (fun r s =>
    if !s.gate.frozen then postFrame r stREFUSED_STATE s.gate.st.code 0#64 s
    else
      let s := (s.tiles.map (·.1)).foldl (fun s t => discardWork t s) s
      let s := (List.range 16).foldl (fun s g => if cgState s g = 0 && !(cgOf s g).internal then abortGroup g 3 0 0 s else s) s
      postFrame r stOK 0 0#64 { s with gate := { s.gate with frozen := false } }) s)

/-! ### Power, numerics and time (R393) -/

/-- PWR_CLOCK_CAP (R343, R393). -/
def execPwrClockCap (ring : Nat) (f : Frame) (s : State) : Out :=
  .next (serve ring 0x0500 f { ops := [maskBits 3 0 ||| maskBits 26 16] } (fun r s =>
    if !assist s 14 then postFrame r stREFUSED_MODE 0 0#64 s
    else
      let mhz := bits f.w1 26 16
      let s := (List.range 4).foldl (fun s d => if bit f.w1 d then setDie d { dieG s d with hostCap := mhz } s else s) s
      postFrame r stOK 0 0#64 (retarget s)) s)

/-- PWR_RELEARN (R348, R393). -/
def execPwrRelearn (ring : Nat) (f : Frame) (s : State) : Out :=
  .next (serve ring 0x0501 f { ops := [maskBits 15 0] } (fun r s =>
    let s := (List.range 4).foldl (fun s d => (List.range 16).foldl (fun s k => if bit f.w1 k then setLearn d k {} s else s) s) s
    let s := (List.range 16).foldl (fun s k => if bit f.w1 k then showClock k (tagClock s 0 k) s else s) s
    postFrame r stOK 0 0#64 (retarget s)) s)

/-- STEP_ADV (R264, R393). -/
def execStepAdv (ring : Nat) (f : Frame) (s : State) : Out :=
  .next (serve ring 0x0600 f {} (fun r s =>
    let q := requestAdvance .cox (some r) s
    if q.1 then { q.2 with cox := { q.2.cox with running := q.2.cox.running ++ [r] } } else postFrame r stQUEUE_FULL 15 0#64 q.2) s)

/-- First id and count of TSC_LOAD and BLT_READ. -/
def idRange (f : Frame) : Nat × Nat := (bits f.w1 11 0, bits f.w1 27 16 + 1)

/-- TSC_LOAD (R158, R393). -/
def execTscLoad (ring : Nat) (f : Frame) (s : State) : Out :=
  .next (serve ring 0x0601 f { ops := [maskBits 11 0 ||| maskBits 27 16], buf := true } (fun r s =>
    let p := idRange f
    if p.1 + p.2 > 4096 || bufLen f < 16 * p.2 then postFrame r stREFUSED_FORM 0 0#64 s
    else if !bufOk f (16 * p.2) s then postFrame r stREFUSED_ADDR 0 0#64 s
    else
      let d := bufRead f (16 * p.2) s
      let ws := bytesWords (rawBytes d.1)
      postFrame r stOK 0 0#64 ((List.range p.2).foldl (fun s i =>
        plainWrite .TSC_CTL (p.1 + i) 0 (nth 0#64 ws (2 * i + 1)) (plainWrite .TSC_NEXT (p.1 + i) 0 (nth 0#64 ws (2 * i)) s)) d.2)) s)

/-- The eight words of a guard entry (R195). -/
def guardEntry (s : State) (t : Nat) : List Word :=
  [rget s (reg .BLT_ZERO t), rget s (reg .BLT_SAT t), rget s (reg .BLT_NONFIN t), rget s (reg .BLT_TOTAL t), rget s (reg .BLT_THR t),
   rget s (reg .BLT_SPILL t), rget s (reg .BLT_GUARD t), rget s (reg .BLT_EVT t)]

/-- BLT_READ (R195, R393). -/
def execBltRead (ring : Nat) (f : Frame) (s : State) : Out :=
  .next (serve ring 0x0602 f { ops := [maskBits 11 0 ||| maskBits 27 16], buf := true } (fun r s =>
    let p := idRange f
    if p.1 + p.2 > 4096 then postFrame r stREFUSED_FORM 0 0#64 s
    else bufAnswer r f (cleanBytes (wordBytes ((List.range p.2).flatMap (fun i => guardEntry s (p.1 + i))))) s) s)

/-- TIME_NEXT_SEC (R328, R393): an edge in the same reference cycle still uses the target before it. -/
def execTimeNextSec (ring : Nat) (f : Frame) (s : State) : Out :=
  .next (serve ring 0x0A00 f { ops := [maskAll] } (fun r s =>
    if assist s 13 then postFrame r stREFUSED_MODE 0 0#64 s
    else
      let old := s.ep.target.getD (rget s (reg .EPOCH_NEXT_SEC))
      postFrame r stOK 0 0#64 (rset (reg .EPOCH_NEXT_SEC) f.w1 { s with ep := { s.ep with target := some old } })) s)

/-! ### Counters and firmware (R394) -/

/-- What CTR_DUMP copies (R418). -/
def ctrRecords (s : State) (first n : Nat) : List Word :=
  if first = 0x7FF then (List.range 512).map (devSnapWord s)
  else (List.range n).flatMap (fun i => (List.range 16).map (fun j => if tileState s (first + i) = 4 then 0#64 else tileSnapWord s (first + i) j))

/-- CTR_DUMP (R394, R418). -/
def execCtrDump (ring : Nat) (f : Frame) (s : State) : Out :=
  .next (serve ring 0x0800 f { ops := [maskBits 10 0 ||| maskBits 26 16], buf := true } (fun r s =>
    let first := bits f.w1 10 0
    let n := bits f.w1 26 16 + 1
    if first ≠ 0x7FF && first + n > numTiles then postFrame r stREFUSED_FORM 0 0#64 s
    else
      let d := wordBytes (ctrRecords s first n)
      if bufLen f < d.length then postFrame r stREFUSED_FORM d.length 0#64 s
      else if !bufOk f d.length s then postFrame r stREFUSED_ADDR 0 0#64 s
      else finishCmd r stOK 0 0#64 (bufWrite f (cleanBytes d) (acceptCmd r 0#64 s))) s)

/-- SAMPLE_RING (R394, R420). -/
def execSampleRing (ring : Nat) (f : Frame) (s : State) : Out :=
  .next (serve ring 0x0801 f { ops := [maskBits 3 0, maskBits 47 0] } (fun r s =>
    let n := bits f.w1 3 0
    let a := bits f.w2 47 0
    if a % 4096 ≠ 0 || a + 4096 * 2 ^ n > stackTop then postFrame r stREFUSED_ADDR 0 0#64 s
    else postFrame r stOK 0 0#64 (rset (reg .PMC_SRING) (w64 (a + n * 2 ^ 48)) s)) s)

/-- FW_INFO (R394). -/
def execFwInfo (ring : Nat) (f : Frame) (s : State) : Out :=
  .next (serve ring 0x0900 f { buf := true } (fun r s =>
    let ver := fun (i : Nat) => w64 (SMap.get 0 s.ports.versions i)
    bufAnswer r f (cleanBytes (wordBytes [w64 (b2n s.gate.image), rget s (reg .GATE_IMG_DIGEST 0), rget s (reg .GATE_IMG_DIGEST 1),
      rget s (reg .GATE_DIGEST_VALID), ver 0, ver 1, 0#64, 0#64])) s) s)

/-- FW_RESTART (R372, R394, R439): into the running image at once, into the other one once it is staged. -/
def execFwRestart (ring : Nat) (f : Frame) (s : State) : Out :=
  .next (serve ring 0x0901 f { ops := [maskBits 0 0] } (fun r s =>
    if s.gate.staging.isSome then postFrame r stREFUSED_STATE s.gate.st.code 0#64 s
    else if !bit f.w1 0 then beginSwitch s.gate.image (some r) 1 (acceptCmd r 0#64 s)
    else if s.ports.update = 1 then postFrame r stIMAGE_REFUSED 0 0#64 s
    else
      let s := acceptCmd r 0#64 s
      { s with gate := { s.gate with staging := some (!s.gate.image, some r) } }) s)

end Sys2Proof.Machine
end

