-- ==== Sys2Proof/Machine/Scan.lean ====
section
/-! DEFINITION. In-service scan (R404 to R406), tile sparing by command (R30, R407), quarantine verdicts (R402). -/

namespace Sys2Proof.Machine
open Sys2Proof

/-! ### Scans (R406) -/

/-- Dies on which a scan of the sweep is under way. -/
def scanDies (s : State) : List Nat :=
  (((s.tiles.filter (fun e => e.2.scan != 0 && e.2.scan != 4)).map (fun e => dieOfTile e.1)) ++ s.cox.spareScan.map (fun e => dieOfPos (e.1 % 64) (e.1 / 64))).eraseDups

/-- A further scan may start on a die: up to the concurrency, one per die, and not while the flash stages an image. -/
def scanRoom (s : State) (d : Nat) : Bool :=
  !(scanDies s).contains d && decide ((scanDies s).length < max 1 (min 4 (rbits s (reg .ERR_SCAN_CFG) 18 16))) && s.gate.staging.isNone

/-- The sweep moves to the next position; past the last one a sweep is complete. -/
def advanceSweep (px py : Nat) (s : State) : State :=
  let k := py * 48 + px + 1
  let r := reg .ERR_SCAN_POS
  if k < 1248 then rsetBits r 12 8 (k / 48) (rsetBits r 5 0 (k % 48) s)
  else rsetBits r 47 16 (rbits s r 47 16 + 1) (rsetBits r 12 8 0 (rsetBits r 5 0 0 { s with cox := { s.cox with scanSkips := 0 } }))

/-- Step 1 of a scan: the tile drains. -/
def drainForScan (t : Nat) (c : Option CmdRef) (s : State) : State :=
  let s := { s with cox := { s.cox with skipped := s.cox.skipped.erase t } }
  modTile t (fun x => { x with scan := 1, scanCmd := x.scanCmd <|> c }) (setTileState t 1 s)

/-- SCAN_START (R406, R407): the sweep reaches a position, tries a skipped tile again, or scans a spare that a retirement waits for. A free spare is
scanned without draining. -/
def execScanStart (px py : Nat) (s : State) : Out :=
  .next (
    let p := reg .ERR_SCAN_POS
    let here := rbits s p 5 0 == px && rbits s p 12 8 == py && !assist s 10
    let again := match tileAt s (px, py) with | some t => s.cox.skipped.contains t | none => spareWanted s (px, py)
    if !isUp s || s.gate.switching.isSome || px ≥ 48 || py ≥ 26 || !(here || again) || !scanRoom s (dieOfPos px py) then s else
    let s := if here then advanceSweep px py s else s
    match tileAt s (px, py) with
    | some t => if tileState s t = 0 then drainForScan t none s else s
    | none =>
      if (freeSpares s (dieOfPos px py)).contains (px, py) then { s with cox := { s.cox with spareScan := s.cox.spareScan ++ [(posKey px py, false)] } } else s)

/-- The patterns can stream into one more tile of die d (R406, R439): the flash stages no image, and the scans that stream are within the
concurrency, none of them on the die. -/
def scanStreams (s : State) (d : Nat) : Bool :=
  let ds := ((s.tiles.filter (fun e => e.2.scan == 2 || e.2.scan == 3)).map (fun e => dieOfTile e.1)) ++ s.cox.spareScan.map (fun e => dieOfPos (e.1 % 64) (e.1 / 64))
  s.gate.staging.isNone && !ds.contains d && decide (ds.length < max 1 (min 4 (rbits s (reg .ERR_SCAN_CFG) 18 16)))

/-- SCAN_DRAINED (R406 step 2). -/
def execScanDrained (t : Nat) (s : State) : Out :=
  .next (
    if t < numTiles && (tileOf s t).scan = 1 && tileState s t = 1 && quiet s t && s.gate.switching.isNone && scanStreams s (dieOfTile t) then
      setTileState t 3 (modTile t (fun x => { x with scan := 2 }) s)
    else s)

/-- The state of a tile that a scan gives back: in service, or draining where it is to move (R30, R407). -/
def backState (s : State) (t : Nat) : Nat := if spareAsked s t || (retirement s t).isSome then 1 else 0

/-- SCAN_DRAIN_TIMEOUT (R406 step 1): back in service, a skip counted, tried again later. -/
def execScanDrainTimeout (t : Nat) (s : State) : Out :=
  .next (
    if t ≥ numTiles || (tileOf s t).scan ≠ 1 || tileState s t ≠ 1 || quiet s t then s else
    let n := s.cox.scanSkips + 1
    let s := { s with cox := { s.cox with scanSkips := n, skipped := s.cox.skipped ++ [t] } }
    event 0x0403 (dieOfTile t) t (w64 (n % 2 ^ 32)) 0#64 (setTileState t (backState s t) (modTile t (fun x => { x with scan := 0 }) s)))

/-- Return a scanned tile to service, its command answered: word 2 is 0 for a pass, 1 for a failure. -/
def scanEnd (t st word : Nat) (back : Bool) (s : State) : State :=
  let c := (tileOf s t).scanCmd
  let s := rsetBits (reg .TILE_SCAN_STAT t) 1 0 st s
  let s := modTile t (fun x => { x with scan := if back then 0 else 4, scanCmd := none }) s
  finishOpt c stOK 0 (w64 word) (if back then setTileState t (backState s t) s else s)

/-- A logical tile's scan ends (R404, R406). -/
def tileScanned (t : Nat) (pass : Bool) (chains : Nat) (s : State) : State :=
  let x := tileOf s t
  if pass && x.scan = 2 then
    let s := rsetBits (reg .TILE_SCAN_STAT t) 47 16 (stepOf s) (rset (reg .TILE_SCAN_LAST t) (coxEpoch s) s)
    scanEnd t 1 0 true (taintClear t s)
  else if x.scan = 2 then modTile t (fun x => { x with scan := 3 }) s
  else
    let c := taintCopy t s
    let s := event (if pass then 0x0402 else 0x0401) (dieOfTile t) t (w64 (chains % 2 ^ 32)) (w64 c.1) c.2
    let now := (epoch s).toNat
    let twice := match x.scanInt with | some e => decide (now < e + dayNs) | none => false
    if pass then
      let s := scanEnd t 3 0 (!twice) (modTile t (fun x => { x with scanInt := some now }) s)
      if twice then retireTile t 3 s else s
    else retireTile t 3 (scanEnd t 2 1 false s)

/-- SCAN_COMPLETE (R406): tile numbers from 1,152 on name the spare at that position key less 1,152. -/
def execScanComplete (t : Nat) (pass : Bool) (chains : Nat) (s : State) : Out :=
  .next (
    if t < numTiles then
      (if tileState s t = 3 && ((tileOf s t).scan = 2 || (tileOf s t).scan = 3) && s.gate.switching.isNone then tileScanned t pass chains s else s)
    else
      let k := t - numTiles
      match s.cox.spareScan.find? (fun e => e.1 == k) with
      | none => s
      | some (_, failed) =>
        let rest := s.cox.spareScan.filter (fun e => e.1 != k)
        if pass then { s with cox := { s.cox with spareScan := rest, spareSwept := SMap.put 0 s.cox.spareSwept k (rbits s (reg .ERR_SCAN_POS) 47 16 + 1) } }
        else if !failed then { s with cox := { s.cox with spareScan := rest ++ [(k, true)] } }
        else { s with retired := SMap.put false s.retired k true, cox := { s.cox with spareScan := rest } })

/-- SCAN_TILE (R394, R406). -/
def execScanTile (ring : Nat) (f : Frame) (s : State) : Out :=
  .next (serve ring 0x0700 f { ops := [maskBits 10 0] } (fun r s =>
    let t := bits f.w1 10 0
    if t ≥ numTiles then postFrame r stREFUSED_ADDR 0 0#64 s
    else if isHeat s t || tileState s t ≠ 0 then postFrame r stREFUSED_STATE (tileState s t) 0#64 s
    else drainForScan t (some r) (acceptCmd r 0#64 s)) s)

/-! ### Sparing and quarantine (R30, R402, R407) -/

/-- SPARE_TILE (R30, R394). -/
def execSpareTile (ring : Nat) (f : Frame) (s : State) : Out :=
  .next (serve ring 0x0701 f { ops := [maskBits 10 0 ||| maskBits 21 16 ||| maskBits 28 24 ||| maskBits 31 31] } (fun r s =>
    let t := bits f.w1 10 0
    let pick := bit f.w1 31
    let p := (bits f.w1 21 16, bits f.w1 28 24)
    if t ≥ numTiles || tileState s t = 4 then postFrame r stREFUSED_ADDR 0 0#64 s
    else if (if pick then (usableSpares s (dieOfTile t)).isEmpty else !(usableSpares s (dieOfTile t)).contains p) then postFrame r stREFUSED_ADDR 0 0#64 s
    else if spareAsked s t || tileState s t = 2 then postFrame r stREFUSED_STATE (tileState s t) 0#64 s
    else
      let s := acceptCmd r 0#64 s
      beginDrain t { s with cox := { s.cox with
        moveCmd := SMap.set s.cox.moveCmd t r
        movePos := if pick then s.cox.movePos else s.cox.movePos ++ [(t, p.1, p.2)] } }) s)

/-- SPARE_DECIDE (R394, R407): a declined tile that a failed scan held returns to service. -/
def execSpareDecide (ring : Nat) (f : Frame) (s : State) : Out :=
  .next (serve ring 0x0702 f { ops := [maskBits 32 0] } (fun r s =>
    let n := bits f.w1 31 0
    if !assist s 7 then postFrame r stREFUSED_MODE 0 0#64 s
    else match s.cox.proposals.find? (fun p => p.num == n && p.kind == 4 && !p.decided) with
    | none => postFrame r stREFUSED_FORM 0 0#64 s
    | some p =>
      let drop := { s with cox := { s.cox with proposals := s.cox.proposals.filter (fun q => q.num != n) } }
      if !bit f.w1 32 then
        let s := if (tileOf s p.a).scan = 4 then setTileState p.a 0 (modTile p.a (fun x => { x with scan := 0 }) drop) else drop
        postFrame r stOK 0 0#64 s
      else if (usableSpares s (dieOfTile p.a)).isEmpty then finishCmd r stOK 0 0#64 (makeAbsent p.a 6 (acceptCmd r 0#64 drop))
      else
        let s := acceptCmd r 0#64 s
        let s := beginDrain p.a { s with cox := { s.cox with proposals := s.cox.proposals.map (fun q => if q.num = n then { q with decided := true, cmd := some r } else q) } }
        if p.b = 1 then scanFirst p.a s else s) s)

/-- QUAR_CLOSE (R394, R402): the verdict's charge; the slot is free. -/
def execQuarClose (ring : Nat) (f : Frame) (s : State) : Out :=
  .next (serve ring 0x0703 f { ops := [maskBits 33 0] } (fun r s =>
    let n := bits f.w1 31 0
    let v := bits f.w1 33 32
    match s.cox.quars.find? (fun q => q.1 % 2 ^ 32 == n) with
    | none => postFrame r stREFUSED_FORM 0 0#64 s
    | some q =>
      if v = 3 then postFrame r stREFUSED_FORM 0 0#64 s else
      let s := rsetBit (reg .ERR_QUAR_USED) q.2.1 false { s with cox := { s.cox with quars := s.cox.quars.erase q } }
      postFrame r stOK 0 0#64 (if v = 2 then s else chargeFault q.2.2.1 (v == 1) s)) s)

end Sys2Proof.Machine
end

