-- ==== Sys2Proof/Machine/RegAccess.lean ====
section
/-! DEFINITION. Register accesses (R8 to R13, R31) and the PCIe windows (R426 to R429): what a read returns, what a write does. -/

namespace Sys2Proof.Machine
open Sys2Proof

/-! ### What a register reads (R8, R9, R12) -/

/-- Sequencer state as TILE_SEQ_STATE shows it (R87). -/
def seqCode : Seq → Nat
  | .idle => 0
  | .running => 1
  | .ending => 1
  | .waiting _ => 2
  | .faulted _ => 3

/-- TILE_ARR_GROUPS (R111): open groups and their modes, two bits each from bit 12 on (DESIGN CHOICE, log 89). -/
def arrGroups (x : Tile) : Word :=
  w64 (sumNat (x.groups.map (fun g => 2 ^ ((g.arr * 4 + g.g) % 12) + (g.mode % 4) * 2 ^ (12 + 2 * ((g.arr * 4 + g.g) % 12)))))

/-- TILE_DQ_STAT (R219): entries, the place the next push takes, the oldest entry's place, whether the tile probes or backs off. -/
def dqStat (x : Tile) : Word :=
  w64 (x.dq.length % 128 + ((x.dqFar + x.dq.length) % 64) * 2 ^ 8 + (x.dqFar % 64) * 2 ^ 16 + b2n (x.steal.active || x.steal.waiting) * 2 ^ 24)

/-- Pending bits of the 64 vectors (R428). -/
def pendingBits (s : State) : Word :=
  w64 (sumNat ((List.range 64).map (fun v => b2n (SMap.get false s.ports.msixPend v) * 2 ^ v)))

/-- What register (n, i, j) reads: the value it holds, or the view of the state that it shows; write-only fields read 0 (R8). -/
def regView (s : State) (n : RegName) (i j : Nat) : Word :=
  match n with
  | .TILE_SEQ_STATE => let x := tileOf s i; w64 (seqCode x.seq + (x.pc % 2 ^ 18) * 2 ^ 32)
  | .TILE_ARR_GROUPS => arrGroups (tileOf s i)
  | .TILE_DQ_STAT => dqStat (tileOf s i)
  | .TILE_RES_24H => w64 (min 15 (chargesIn24h s i true) + min 15 (chargesIn24h s i false) * 2 ^ 4)
  | .TILE_PMC_SNAP => tileSnapWord s i j
  | .PMC_DEV_SNAP => devSnapWord s (max i j)
  | .GATE_STAT => gateStat s
  | .GATE_WINDOW => gateWindow s
  | .CG_PAGES => cgPagesView s (max i j)
  | .STK_WCB => setBits (rget s (reg .STK_WCB i)) 40 32 (wcbOpen s i)
  | .MBX_STAT => w64 (b2n s.gate.intake + b2n s.gate.switching.isSome * 2 + b2n s.cox.lock.isSome * 4)
  | .MGMT_STAT => setBits (rget s (reg .MGMT_STAT)) 40 32 s.rec_.port.length
  | .MBX_CMD_DB | .MBX_CPL_DB | .SCHED_ADV | .PMC_FREEZE_NOW | .EPOCH_SET => 0#64
  | n => rget s (reg n i j)

/-- What a BAR0 place addresses: a register, a word of the MSI-X table, its pending-bit array, a word of an ERRLOG entry (R12, R411, R428). -/
inductive RegPlace where
  | reg (n : RegName) (i j : Nat)
  | msix (v j : Nat)
  | pba
  | errEntry (k w : Nat)
  deriving DecidableEq, Repr

/-- The place at an 8-byte aligned offset. -/
def placeAt (off : Nat) : Option RegPlace :=
  if 0x11000 ≤ off && off < 0x11400 then some (.msix ((off - 0x11000) / 16) ((off % 16) / 8))
  else if off = 0x11800 then some .pba
  else if 0x601000 ≤ off && off < 0x1000000 then some (.errEntry ((off - 0x601000) / 64) ((off % 64) / 8))
  else (regAt off).map (fun p => .reg p.1 p.2.1 p.2.2)

/-- The word a place reads. -/
def placeRead (s : State) : RegPlace → Word
  | .reg n i j => regView s n i j
  | .msix v j => rget s (msixReg v j)
  | .pba => pendingBits s
  | .errEntry k w => nth 0#64 (SMap.get [] s.rec_.log k) w

/-! ### What a register write does (R8, R11) -/

/-- Write a word of the MSI-X table (R428): the vector control's one bit is the mask; clearing it sends a pending message. -/
def msixWrite (v j : Nat) (x : Word) (s : State) : State :=
  if j = 0 then rset (msixReg v 0) x s
  else
    let was := msixMasked s v
    let s := rset (msixReg v 1) (w64 (bits x 32 0)) s
    if was && !bit x 32 then msixUnmask v s else s

/-- A write of PCIE_BAR2_BASE (R427): refused where not aligned to the size, or where the window would begin beyond stack memory. -/
def writeBar2Base (req : Req) (v : Word) (s : State) : State :=
  let b := bits v 47 30 * 2 ^ 30
  if b % 2 ^ (30 + rbits s (reg .PCIE_BAR2_SIZE) 3 0) = 0 && b < stackTop then plainWrite .PCIE_BAR2_BASE 0 0 v s
  else recRegRefused req (reg .PCIE_BAR2_BASE).off v s

/-- Bytes of a write that a half covers: the other half keeps RW bits as they are and writes 0 to every other field (R8). -/
def halfMerge (old keep v : Word) (hi : Bool) : Word :=
  if hi then (old &&& keep &&& 0xFFFFFFFF#64) ||| (v <<< 32) else (old &&& keep &&& 0xFFFFFFFF00000000#64) ||| (v &&& 0xFFFFFFFF#64)

/-- A 64-bit write of register (n, i, j) with the effect the register's own rule gives it. -/
def regWrite (req : Req) (n : RegName) (i j : Nat) (v : Word) (s : State) : State :=
  match n with
  | .TILE_SEQ_CODE => writeSeqCode req i v s
  | .TILE_PMC_CLR => clearCounters req i v s
  | .TILE_PMC_SEL | .TILE_PMC_TAGS => if pmcLocked s then recRegRefused req (reg n i j).off v s else plainWrite n i j v s
  | .PMC_SAMPLE => writePmcSample req v s
  | .PMC_FREEZE_NOW => if bit v 0 then fireFreeze (epoch s) s else s
  | .BLT_SPILL => writeSpill req i v s
  | .SCHED_ADV => if bit v 0 then (requestAdvance req none s).2 else s
  | .SCHED_SEG_A => writeSeg req false i j v s
  | .SCHED_SEG_B => writeSeg req true i j v s
  | .EPOCH_SET => writeEpochSet req v s
  | .EPOCH_FREEZE_CTL => let s := plainWrite n i j v s; if bit v 0 then armFreeze s else s
  | .MBX_CMD_DB => cmdDoorbell i (bits v 11 0) s
  | .MBX_CPL_DB => cplDoorbell i (bits v 11 0) s
  | .MBX_CMD_CFG => writeCmdCfg i v s
  | .MBX_CPL_CFG => writeCplCfg i v s
  | .PCIE_BAR2_BASE => writeBar2Base req v s
  | .GOV_CTL | .GOV_TJ | .GOV_TAG_BUDGET => retarget (plainWrite n i j v s)
  | .GOV_TAG_FIX => retarget (showFixed i (plainWrite n i j v s))
  | .COL_PACE => repace (plainWrite n i j v s)
  | n => plainWrite n i j v s

/-- The RW fields of a register, and for EPOCH_SET its whole word: what a half write leaves of the other half. -/
def halfKeep (n : RegName) : Word := if n == .EPOCH_SET then 0xFFFFFFFFFFFFFFFF#64 else (regInfo n).rw

/-- The word that a half write of EPOCH_SET completes is the counter's (R8, R331). -/
def halfOld (s : State) (n : RegName) (i j : Nat) : Word := if n == .EPOCH_SET then epoch s else rget s (reg n i j)

/-- A register has writable fields in a half (R8). -/
def halfWritable (n : RegName) (hi : Bool) : Bool :=
  let r := regInfo n
  let m := r.rw ||| r.w1c ||| r.w1s ||| r.wo
  if hi then m >>> 32 != 0#64 else m &&& 0xFFFFFFFF#64 != 0#64

/-- A register of the GATE block, or a GL field elsewhere: written through the management port only (R11). -/
def isGl (n : RegName) (off : Nat) : Bool := decide (off < 0x10000) || (regInfo n).gl != 0#64

/-- A write at a BAR0 offset: 4 or 8 bytes, aligned (R8, R11, R13). -/
def barWrite (req : Req) (off size : Nat) (v : Word) (s : State) : State :=
  if !(size == 4 || size == 8) || off % size ≠ 0 then recBadAccess req (0x20000000000 + off) size true s else
  let base := off / 8 * 8
  let hi := off % 8 == 4
  match placeAt base with
  | none => recUnmapped req (0x20000000000 + off) true s
  | some (.reg n i j) =>
    if isGl n base then recGlWrite req base v s
    else if size = 4 && !halfWritable n hi then s
    else regWrite req n i j (if size = 8 then v else halfMerge (halfOld s n i j) (halfKeep n) v hi) s
  | some (.msix vec j) => msixWrite vec j (if size = 8 then v else halfMerge (rget s (msixReg vec j)) 0xFFFFFFFFFFFFFFFF#64 v hi) s
  | some .pba => s
  | some (.errEntry _ _) => s

/-- A read at a BAR0 offset (R8, R13): the bytes, and the record of an access that no register answers. -/
def barRead (req : Req) (off size : Nat) (s : State) : List Byte × State :=
  if !(size == 4 || size == 8) || off % size ≠ 0 then (List.replicate size 0#8, recBadAccess req (0x20000000000 + off) size false s) else
  match placeAt (off / 8 * 8) with
  | none => (List.replicate size 0#8, recUnmapped req (0x20000000000 + off) false s)
  | some p => (((leBytes 8 (placeRead s p).toNat).drop (off % 8)).take size, s)

/-- The tile whose register block holds an offset (R12). -/
def blockTile (off : Nat) : Option Nat := if 0x1000000 ≤ off && off < 0x2200000 then some ((off - 0x1000000) / 0x4000) else none

/-- The access reaches the registers of a tile in MAP_HOLD (R31). -/
def onHold (s : State) (off : Nat) : Option Nat := (blockTile off).filter (fun t => tileState s t == 2)

/-- The host, the cox and the management engine reach register space; tiles and links do not. -/
def mayReach : Req → Bool
  | .tile _ => false
  | .put _ => false
  | _ => true

/-- REGISTER_WRITE (R8): `size` bytes at an offset of register space. -/
def execRegisterWrite (req : Req) (off size : Nat) (v : Word) (s : State) : Out :=
  .next (
    if s.gate.st = .off || !mayReach req then s else
    match onHold s off with
    | some t => holdAccess t { req := req, off := 0x100000 + off % 0x4000, len := size, write := true, data := leBytes 8 v.toNat } s
    | none => barWrite req off size v s)

/-- An access of a width or at a place that R8 does not accept: recorded, a read returns 0. -/
def badAnswer (req : Req) (off len : Nat) (write : Bool) (s : State) : State :=
  let s := recBadAccess req (0x20000000000 + off) len write s
  if write then s else deliver (cleanBytes (List.replicate len 0#8)) s

/-- BAD_ACCESS (R8): a width other than 4 and 8 bytes, or a place not aligned to it. -/
def execBadAccess (req : Req) (off len : Nat) (write : Bool) (s : State) : Out :=
  .next (
    if s.gate.st = .off || !mayReach req || ((len == 4 || len == 8) && off % len == 0) then s else
    match onHold s off with
    | some t => holdAccess t { req := req, off := 0x100000 + off % 0x4000, len := len, write := write, data := [], bad := true } s
    | none => badAnswer req off len write s)

/-! ### Held accesses (R30, R31) -/

/-- Serve a held access (R31). -/
def serveHeld (t : Nat) (h : HeldAcc) (s : State) : State :=
  if h.off ≥ 0x100000 then
    let off := 0x1000000 + t * 0x4000 + (h.off - 0x100000)
    if h.bad then badAnswer h.req off h.len h.write s
    else if h.write then barWrite h.req off h.len (leWord h.data) s
    else let (d, s) := barRead h.req off h.len s; deliver (cleanBytes d) s
  else if h.write then (winWrite h.req t h.off (markBytes h.ep h.data) s).2
  else let (d, s) := packetReads h.req t h.off h.len s; deliver d s

/-- MAP_HOLD_CLEAR (R30 steps 5 and 6): all 1,248 routers have acknowledged. -/
def execMapHoldClear (t acks : Nat) (s : State) : Out :=
  .next (
    if t ≥ numTiles || tileState s t ≠ 2 || acks ≠ 1248 then s else
    let hs := (tileOf s t).held
    let s := setTileState t 0 (modTile t (fun x => { x with held := [] }) s)
    let s := hs.foldl (fun s h => serveHeld t h s) s
    let cmds := (s.cox.moveCmd.filter (fun e => e.1 == t)).map (·.2) ++ ((retirement s t).bind (·.cmd)).toList
    let s := { s with cox := { s.cox with
      moveCmd := s.cox.moveCmd.filter (fun e => e.1 != t), movePos := s.cox.movePos.filter (fun e => e.1 != t)
      proposals := s.cox.proposals.filter (fun p => !(p.kind == 4 && p.a == t)) } }
    cmds.foldl (fun s c => finishCmd c stOK 0 0#64 s) s)

/-! ### The loss of a die (R408) -/

/-- A tile of a lost die: what ran and what waited fails with ABSENT_TILE; the accesses that a hold kept complete (R31, R43, R408). -/
def loseTile (t : Nat) (s : State) : State :=
  if tileState s t = 4 then s else
  let x := tileOf s t
  let s := finishOpt x.scanCmd stABORTED 2 0#64 s
  let s := match x.run with
    | some r => failDescriptor t r.home r.ring r.words true { code := fABSENT, pc := x.pc } s
    | none => s
  let s := makeAbsent t 5 s
  let cmds := (s.cox.moveCmd.filter (fun e => e.1 == t)).map (·.2) ++ ((retirement s t).bind (·.cmd)).toList
  let s := { s with cox := { s.cox with
    moveCmd := s.cox.moveCmd.filter (fun e => e.1 != t), movePos := s.cox.movePos.filter (fun e => e.1 != t)
    skipped := s.cox.skipped.erase t, proposals := s.cox.proposals.filter (fun p => !(p.kind == 4 && p.a == t)) } }
  let s := setTile t {} (cmds.foldl (fun s c => finishCmd c stABORTED 2 0#64 s) s)
  x.held.foldl (fun s h => serveHeld t h s) s

/-- Adjudications that ran on a lost die start again elsewhere. -/
def restartAdj (d : Nat) (x : Tile) : Tile :=
  let again := fun (a : Adj) => if a.started && dieOfTile a.at_ == d then { a with started := false } else a
  { x with vAdj := x.vAdj.map again, drains := x.drains.map (fun y => { y with adj := y.adj.map again }) }

/-- DIE_LOSS (R408): tiles, stacks, links and the collective engine of the die are lost; the governor drops it. -/
def execDieLoss (die : Nat) (s : State) : Out :=
  .next (
    if die ≥ 4 || dieGone s die || s.gate.st = .off then s else
    let s := event 0x0D01 die 0 (w64 die) 0#64 (rsetBit (reg .ERR_DIE_LOST) die true s)
    let s := (List.range 288).foldl (fun s i => loseTile (die * 288 + i) s) s
    let s := (s.tiles.map (·.1)).foldl (fun s t => modTile t (restartAdj die) s) s
    let s := loseStack (2 * die + 1) (loseStack (2 * die) s)
    let s := (List.range 12).foldl (fun s i => let l := 12 * die + i; if lnkState s l = 0 || lnkState s l = 5 then s else failLink l false s) s
    let s := (s.fab.colls.filter (·.started)).foldl (fun s c => endColl c stABORTED 2 s) s
    retarget s)

/-! ### The PCIe windows (R426, R427, R429) -/

/-- A received write with the EP bit set: discarded, shown in PCIE_ERR, recorded (R429). -/
def poisonedWrite (dpa : Nat) (s : State) : State :=
  event 0x0F09 0xFF 0 (w64 (dpa % 2 ^ 48)) 0#64 (rsetBit (reg .PCIE_ERR) 0 true s)

/-- BAR0_ACCESS (R426, R454): a BAR0 offset is the register-space offset. A register write whose flit arrives poisoned is discarded and recorded (log 70). -/
def execBar0Access (off size : Nat) (write : Bool) (v : Word) (ep : Bool) (s : State) : Out :=
  .next (
    if s.gate.st = .off || off ≥ 0x4000000 then s else
    if write && ep then poisonedWrite (0x20000000000 + off) s else
    match onHold s off with
    | some t => holdAccess t { req := .host, off := 0x100000 + off % 0x4000, len := size, write := write, data := leBytes 8 v.toNat } s
    | none =>
      let r := match blockTile off with
        | some t => reqTrip .host off t (if write then size else 0) (if write then 0 else size) s
        | none => (false, s)
      if write then (if r.1 then recOther .host 33 (w64 off) r.2 else barWrite .host off size v r.2)
      else let (d, s) := barRead .host off size r.2; deliver (poisonFlit r.1 (cleanBytes d)) s)

/-- BAR2_ACCESS (R427): a window into stack memory from MOORED on; reads are class 1. Each packet that meets no present line acts as R13 (R44). -/
def execBar2Access (off len : Nat) (write : Bool) (data : List Byte) (ep : Bool) (s : State) : Out :=
  .next (
    let size := 2 ^ (30 + rbits s (reg .PCIE_BAR2_SIZE) 3 0)
    let dpa := rbits s (reg .PCIE_BAR2_BASE) 47 30 * 2 ^ 30 + off
    let n := if write then data.length else len
    if s.gate.st = .off || off + n > size then s else
    if write && ep then poisonedWrite dpa s else
    if isUp s && stkWaits s dpa n then s else
    let r := (alignedPieces n dpa n).foldl (fun (r : PBytes × State) p =>
      if !isUp s || !stkPresent s p.1 then (r.1 ++ cleanBytes (List.replicate p.2 0#8), recUnmapped .host p.1 write r.2)
      else
        let m := stackTrip (endpointPos r.2 p.1) false (physStack (physOf s (backing s false p.1))) (if write then p.2 else 0) (if write then 0 else p.2) r.2
        if write then (r.1, stkWrite .host p.1 (poisonFlit m.1 (cleanBytes ((data.drop (p.1 - dpa)).take p.2))) m.2)
        else let q := stkRead 1 p.1 p.2 m.2; (r.1 ++ poisonFlit m.1 q.1, q.2)) ([], s)
    if write then r.2 else deliver r.1 r.2)

/-- One packet of a BAR4 read: the window of its tile, or nothing beyond the last tile (R13, R426). -/
def bar4Read (off n : Nat) (s : State) : PBytes × State := winRead .host (off / 0x100000) (off % 0x100000) n s

/-- BAR4_ACCESS (R426): the tile windows, in packets of at most 64 bytes (R44); offsets from 1,152 MiB on act as R13. A read of a tile in MAP_HOLD waits (R31). -/
def execBar4Access (off len : Nat) (write : Bool) (data : List Byte) (ep : Bool) (s : State) : Out :=
  .next (
    let n := if write then data.length else len
    let t := off / 0x100000
    if s.gate.st = .off || off + n > 0x80000000 then s else
    if write && ep then poisonedWrite (winBase + off) s else
    if write then
      (alignedPieces n off n).foldl (fun s p => packetWrite .host (p.1 / 0x100000) (p.1 % 0x100000) ((data.drop (p.1 - off)).take p.2) false s) s
    else if t < numTiles && tileState s t = 2 then holdAccess t { req := .host, off := off % 0x100000, len := n, write := false, data := [] } s
    else
      let r := (alignedPieces n off n).foldl (fun (r : PBytes × State) p => let q := bar4Read p.1 p.2 r.2; (r.1 ++ q.1, q.2)) ([], s)
      deliver r.1 r.2)

/-- PCIE_BAR2_BASE_WRITE (R427). -/
def execPcieBar2BaseWrite (req : Req) (v : Word) (s : State) : Out :=
  .next (if s.gate.st = .off || !mayReach req then s else writeBar2Base req v s)

/-- BAR2_RESIZE (R427): sizes n = 0 to 9; the base becomes 0. -/
def execBar2Resize (n : Nat) (s : State) : Out :=
  .next (if s.gate.st = .off || n > 9 then s else rset (reg .PCIE_BAR2_BASE) 0#64 (rset (reg .PCIE_BAR2_SIZE) (w64 n) s))

end Sys2Proof.Machine
end

