-- ==== Sys2Proof/Machine/Mgmt.lean ====
section
/-! DEFINITION. The management port (R430 to R435) and the JTAG port (R450). Codes of the DMTF standards that R430 names are PRESUMED (log 51). -/

namespace Sys2Proof.Machine
open Sys2Proof

/-! ### Bus and transport (R430, R431) -/

/-- The bus owner gives a dynamic address to a device that has none. -/
def assignAddr (addr : Nat) (s : State) : State :=
  if s.gate.st = .off || rbits s (reg .MGMT_STAT) 7 0 ≠ 0 || addr = 0 || addr ≥ 128 then s else rsetBits (reg .MGMT_STAT) 7 0 addr s

/-- ENTDAA (R430). -/
def execEntdaa (addr : Nat) (s : State) : Out := .next (assignAddr addr s)

/-- SETDASA (R430). -/
def execSetdasa (addr : Nat) (s : State) : Out := .next (assignAddr addr s)

/-- SET_ENDPOINT_ID (R431): endpoint IDs are 8 to 254. -/
def execSetEndpointId (eid : Nat) (s : State) : Out :=
  .next (
    if s.gate.st = .off then s
    else if eid < 8 || eid > 254 then reply [2#8] s
    else reply [0#8, 0#8, BitVec.ofNat 8 eid, 0#8] (rsetBits (reg .MGMT_STAT) 15 8 eid s))

/-- GET_ENDPOINT_ID (R430). -/
def execGetEndpointId (s : State) : Out :=
  .next (if s.gate.st = .off then s else reply [0#8, BitVec.ofNat 8 (rbits s (reg .MGMT_STAT) 15 8), 0#8, 0#8] s)

/-- GET_MCTP_VERSION (R430): one version entry, whose bytes the spec does not state. -/
def execGetMctpVersion (s : State) : Out :=
  .next (
    if s.gate.st = .off then s else
    let (v, s) := takeFresh s
    reply ([0#8, 1#8] ++ leBytes 4 v.toNat) s)

/-- GET_MESSAGE_TYPE_SUPPORT (R430): PLDM (0x01) and the vendor type 0x7F. -/
def execGetMessageTypeSupport (s : State) : Out :=
  .next (if s.gate.st = .off then s else reply [0#8, 2#8, 1#8, 0x7F#8] s)

/-- GET_VENDOR_DEFINED_MESSAGE_SUPPORT (R430): one set, under an IANA number that the spec does not state. -/
def execGetVendorDefinedMessageSupport (s : State) : Out :=
  .next (
    if s.gate.st = .off then s else
    let (v, s) := takeFresh s
    reply ([0#8, 0xFF#8, 1#8] ++ leBytes 4 v.toNat ++ [0#8, 0#8]) s)

/-! ### Monitoring (R433, R434) -/

/-- Records of the PDR repository (R433): one effecter and twenty sensors. -/
def pdrCount : Nat := 21

/-- GET_PDR (R433): record `handle`, 0 asking for the first; its bytes are DSP0248's. -/
def execGetPdr (handle : Nat) (s : State) : Out :=
  .next (
    if !mgmtReady s then s
    else if handle > pdrCount then reply [0x82#8] s
    else
      let h := max 1 handle
      reply ([0#8] ++ leBytes 4 (if h < pdrCount then h + 1 else 0) ++ leBytes 4 0 ++ [5#8] ++ leBytes 2 32 ++ (List.range 32).map (Config.pdrByte h)) s)

/-- What a sensor of R433 reads, as a 16-bit number. -/
def sensorValue (s : State) (id : Nat) : Option Nat :=
  if id = 0x100 then some (rbits s (reg .GOV_PWR) 31 16)
  else if id = 0x101 then some (rbits s (reg .GOV_PWR) 47 32)
  else if 0x110 ≤ id && id < 0x114 then some (ofSigned 16 (dieG s (id - 0x110)).hottest)
  else if 0x120 ≤ id && id < 0x128 then some (ofSigned 16 (toSigned 8 (rbits s (reg .STK_TEMP (id - 0x120)) 7 0)))
  else if 0x130 ≤ id && id < 0x134 then some (dieG s (id - 0x130)).amps
  else if id = 0x200 then some s.gate.st.code
  else if id = 0x201 then some (rbits s (reg .EPOCH_STAT) 1 0)
  else none

/-- GET_SENSOR_READING (R433). -/
def execGetSensorReading (id : Nat) (s : State) : Out :=
  .next (
    if !mgmtReady s then s else
    match sensorValue s id with
    | some v => reply ([0#8] ++ leBytes 2 v) s
    | none => reply [0x80#8] s)

/-- FACILITY_BUDGET_WRITE (R346, R433): 0 or 400 to 1,500 W. -/
def execFacilityBudgetWrite (watts : Nat) (s : State) : Out :=
  .next (
    if !mgmtReady s then s
    else if watts = 0 || (decide (400 ≤ watts) && decide (watts ≤ 1500)) then reply [0#8] (retarget (rsetBits (reg .GOV_BUDGET) 11 0 watts s))
    else reply [2#8] s)

/-- SET_EVENT_RECEIVER (R434): buffered records leave first, in order; endpoint 0 means no receiver. -/
def execSetEventReceiver (eid : Nat) (s : State) : Out :=
  .next (
    if !mgmtReady s then s
    else if eid = 0 then reply [0#8] (rsetBit (reg .MGMT_STAT) 16 false { s with ports := { s.ports with receiver := 0 } })
    else if eid > 255 then reply [2#8] s
    else
      let s := { s with ports := { s.ports with receiver := eid }, rec_ := { s.rec_ with sent := s.rec_.sent ++ s.rec_.port, port := [] } }
      reply [0#8] (rsetBit (reg .MGMT_STAT) 16 true s))

/-- POLL_FOR_PLATFORM_EVENT_MESSAGE (R434): the oldest buffered record, in event class 0xF0. -/
def execPollForPlatformEventMessage (s : State) : Out :=
  .next (
    if !mgmtReady s then s else
    match s.rec_.port with
    | [] => reply [0#8] s
    | r :: rs => reply ([0#8, 0xF0#8] ++ wordBytes r) { s with rec_ := { s.rec_ with port := rs } })

/-! ### Vendor messages (R432) -/

/-- GATE_READ (R432): any GATE register at any time. -/
def execGateRead (off : Nat) (s : State) : Out :=
  .next (
    if !mgmtReady s then s else
    match (if off < 0x10000 then regAt off else none) with
    | some (n, i, j) => reply ([0#8] ++ leBytes 8 (regView s n i j).toNat) s
    | none => reply [3#8] s)

/-- FORECAST_READ (R350, R432). -/
def execForecastRead (s : State) : Out :=
  .next (
    if !mgmtReady s then s
    else reply ([0#8] ++ leBytes 8 (rget s (reg .GOV_FCAST_EPOCH)).toNat ++ (List.range 100).flatMap (fun k => leBytes 2 (rbits s (reg .GOV_FCAST k) 15 0))) s)

/-! ### Firmware update (R435, R437, R439) -/

/-- The FLASH_STAT bit of the slot that component c is written to: the image that does not run, the inactive pattern set. -/
def updSlot (s : State) (c : Nat) : Nat := if c = 1 then b2n (!s.gate.image) else 2 + b2n (!bit (rget s (reg .MGMT_STAT)) 18)

/-- Bytes of a slot that a body may fill (R437, R438). -/
def slotBytes (c : Nat) : Nat := if c = 1 then 0x4000000 else 0x1000000

/-- An update ends. -/
def endUpdate (s : State) : State := rsetBit (reg .MGMT_STAT) 17 false { s with ports := { s.ports with update := 0, updLen := 0, updOk := false } }

/-- The slot being written is invalid. -/
def slotInvalid (s : State) : State := rsetBit (reg .FLASH_STAT) (updSlot s s.ports.update) false s

/-- REQUEST_UPDATE (R435): component 1 the cox image, 2 the scan pattern set. -/
def execRequestUpdate (component : Nat) (s : State) : Out :=
  .next (
    if !mgmtReady s then s
    else if s.ports.update ≠ 0 then reply [0x81#8] s
    else if component = 0 || component > 2 then reply [2#8] s
    else if component = 1 && (s.gate.staging.isSome || s.gate.switching.isSome) then reply [0x8A#8] s
    else reply [0#8] (rsetBit (reg .MGMT_STAT) 17 true (slotInvalid { s with ports := { s.ports with update := component, updLen := 0, updOk := false } })))

/-- FIRMWARE_DATA (R435, R439): a transfer of at most 256 bytes is received and programmed; `ok` tells whether the program succeeds. -/
def execFirmwareData (data : List Byte) (ok : Bool) (s : State) : Out :=
  .next (
    let n := s.ports.updLen + data.length
    if !mgmtReady s || s.ports.update = 0 || s.ports.updOk || data.length > 256 || n > slotBytes s.ports.update then s
    else if ok then { s with ports := { s.ports with updLen := n } }
    else endUpdate (slotInvalid (recOther .mgmt 439 (w64 (updSlot s s.ports.update)) (rsetBit (reg .FLASH_ERR) 0 true s))))

/-- VERIFY_COMPLETE (R435): the Gate hashes the written body; digest is its hash, header the digest the header names. -/
def execVerifyComplete (digest header : Word) (version : Nat) (s : State) : Out :=
  .next (
    if !mgmtReady s then s
    else if s.ports.update = 0 then reply [0x80#8] s
    else
      let ok := digest == header && digestAllowed s digest header
      let slot := updSlot s s.ports.update
      let s := if s.ports.update = 1 then imageRead (slot == 1) digest header version s else s
      let s := rsetBit (reg .FLASH_STAT) slot ok { s with ports := { s.ports with updOk := ok } }
      reply [if ok then 0#8 else 1#8] s)

/-- ACTIVATE_FIRMWARE (R435): an image is staged and switched to (R372), the answer following the switch; a pattern set becomes active. -/
def execActivateFirmware (s : State) : Out :=
  .next (
    if !mgmtReady s then s
    else if s.ports.update = 0 then reply [0x80#8] s
    else if !s.ports.updOk || s.gate.staging.isSome || s.gate.switching.isSome then reply [0x84#8] s
    else if s.ports.update = 1 then
      let s := endUpdate s
      { s with gate := { s.gate with staging := some (!s.gate.image, none) }, ports := { s.ports with activating := true } }
    else reply [0#8] (rsetBit (reg .MGMT_STAT) 18 (!bit (rget s (reg .MGMT_STAT)) 18) (endUpdate s)))

/-- CANCEL_UPDATE (R435): the slot stays invalid. -/
def execCancelUpdate (s : State) : Out :=
  .next (
    if !mgmtReady s then s
    else if s.ports.update = 0 then reply [0x80#8] s
    else reply [0#8] (endUpdate (slotInvalid s)))

/-! ### JTAG (R450) -/

/-- IDCODE as R450 lays it out. -/
def idcode : BitVec 32 := BitVec.ofNat 32 ((Config.stepping % 16) * 2 ^ 28 + 0x4830 * 2 ^ 12 + 0x0DB * 2 + 1)

/-- Put a value into the data register that the port shifts out. -/
def jtagLoad (v : BitVec 32) (s : State) : State := { s with ports := { s.ports with jtag := v } }

/-- BYPASS (R450): the one-bit register captures 0. -/
def execJtagBypass (s : State) : Out := .next (if s.gate.st = .off then s else jtagLoad 0#32 s)

/-- IDCODE (R450). -/
def execJtagIdcode (s : State) : Out := .next (if s.gate.st = .off then s else jtagLoad idcode s)

/-- SAMPLE (R450): the pins' values are not stated. -/
def execJtagSample (s : State) : Out :=
  .next (
    if s.gate.st = .off then s else
    let (v, s) := takeFresh s
    jtagLoad (v.truncate 32) s)

end Sys2Proof.Machine
end

