-- ==== Sys2Proof/Machine/Dispatch.lean ====
section
/-! DEFINITION. One arm per command: the table's rows and their meanings. -/

namespace Sys2Proof.Machine
open Sys2Proof

/-- The effect of a command on everything but the queue. -/
def exec (i : Instr) (s : State) : Host.Outcome State Fault Refusal :=
  match i with
  | .powerGood octal => Sys2Proof.Machine.execPowerGood octal s
  | .railLoss => Sys2Proof.Machine.execRailLoss s
  | .coldRstN octal => Sys2Proof.Machine.execColdRstN octal s
  | .bootImageCheck digest header version => Sys2Proof.Machine.execBootImageCheck digest header version s
  | .startupTestsComplete => Sys2Proof.Machine.execStartupTestsComplete s
  | .warmRstN => Sys2Proof.Machine.execWarmRstN s
  | .warmReset ring f => Sys2Proof.Machine.execWarmReset ring f s
  | .perstN => Sys2Proof.Machine.execPerstN s
  | .hotReset => Sys2Proof.Machine.execHotReset s
  | .functionLevelReset => Sys2Proof.Machine.execFunctionLevelReset s
  | .pllLock pll => Sys2Proof.Machine.execPllLock pll s
  | .pllUnlock pll => Sys2Proof.Machine.execPllUnlock pll s
  | .registerWrite req off size v => Sys2Proof.Machine.execRegisterWrite req off size v s
  | .badAccess req off len write => Sys2Proof.Machine.execBadAccess req off len write s
  | .bar0Access off size write v ep => Sys2Proof.Machine.execBar0Access off size write v ep s
  | .bar2Access off len write data ep => Sys2Proof.Machine.execBar2Access off len write data ep s
  | .bar4Access off len write data ep => Sys2Proof.Machine.execBar4Access off len write data ep s
  | .pcieBar2BaseWrite req v => Sys2Proof.Machine.execPcieBar2BaseWrite req v s
  | .bar2Resize n => Sys2Proof.Machine.execBar2Resize n s
  | .msixUnmask vec => Sys2Proof.Machine.execMsixUnmask vec s
  | .hostReadTimeout ring => Sys2Proof.Machine.execHostReadTimeout ring s
  | .windowRead req t off len errs => Sys2Proof.Machine.execWindowRead req t off len errs s
  | .windowWrite req t off data ep => Sys2Proof.Machine.execWindowWrite req t off data ep s
  | .scrubPeriod t errs => Sys2Proof.Machine.execScrubPeriod t errs s
  | .tileSeqCodeWrite req t v => Sys2Proof.Machine.execTileSeqCodeWrite req t v s
  | .mapMove t px py readable => Sys2Proof.Machine.execMapMove t px py readable s
  | .mapHoldClear t acks => Sys2Proof.Machine.execMapHoldClear t acks s
  | .routerCheckFailure px py => Sys2Proof.Machine.execRouterCheckFailure px py s
  | .dispatch t => Sys2Proof.Machine.execDispatch t s
  | .illegalOpcode t w0 w1 => Sys2Proof.Machine.execIllegalOpcode t w0 w1 s
  | .nop t w => Sys2Proof.Machine.execNop t w s
  | .endProg t w => Sys2Proof.Machine.execEndProg t w s
  | .endRetirement t => Sys2Proof.Machine.execEndRetirement t s
  | .br t w => Sys2Proof.Machine.execBr t w s
  | .jr t w => Sys2Proof.Machine.execJr t w s
  | .loop t w => Sys2Proof.Machine.execLoop t w s
  | .swFault t w => Sys2Proof.Machine.execSwFault t w s
  | .mfs t w => Sys2Proof.Machine.execMfs t w s
  | .add t w => Sys2Proof.Machine.execAdd t w s
  | .sub t w => Sys2Proof.Machine.execSub t w s
  | .andd t w => Sys2Proof.Machine.execAndd t w s
  | .orr t w => Sys2Proof.Machine.execOrr t w s
  | .xorr t w => Sys2Proof.Machine.execXorr t w s
  | .shl t w => Sys2Proof.Machine.execShl t w s
  | .shr t w => Sys2Proof.Machine.execShr t w s
  | .sra t w => Sys2Proof.Machine.execSra t w s
  | .mul t w => Sys2Proof.Machine.execMul t w s
  | .minS t w => Sys2Proof.Machine.execMinS t w s
  | .maxS t w => Sys2Proof.Machine.execMaxS t w s
  | .lih t w => Sys2Proof.Machine.execLih t w s
  | .cmp t w => Sys2Proof.Machine.execCmp t w s
  | .plog t w => Sys2Proof.Machine.execPlog t w s
  | .fadd t w => Sys2Proof.Machine.execFadd t w s
  | .fmul t w => Sys2Proof.Machine.execFmul t w s
  | .fma t w => Sys2Proof.Machine.execFma t w s
  | .fcvt t w => Sys2Proof.Machine.execFcvt t w s
  | .aaddr t w => Sys2Proof.Machine.execAaddr t w s
  | .mova t w => Sys2Proof.Machine.execMova t w s
  | .lds t w => Sys2Proof.Machine.execLds t w s
  | .ldsDataArrival t => Sys2Proof.Machine.execLdsDataArrival t s
  | .sts t w => Sys2Proof.Machine.execSts t w s
  | .copy t w => Sys2Proof.Machine.execCopy t w s
  | .copy2d t w => Sys2Proof.Machine.execCopy2d t w s
  | .fill t w => Sys2Proof.Machine.execFill t w s
  | .blockMoveCompletion t store => Sys2Proof.Machine.execBlockMoveCompletion t store s
  | .mopen t w w1 => Sys2Proof.Machine.execMopen t w w1 s
  | .preloadCompletion t arr => Sys2Proof.Machine.execPreloadCompletion t arr s
  | .mma t w w1 => Sys2Proof.Machine.execMma t w w1 s
  | .mma2 t w w1 => Sys2Proof.Machine.execMma2 t w w1 s
  | .mmaCompletion t arr => Sys2Proof.Machine.execMmaCompletion t arr s
  | .mabort t w w1 => Sys2Proof.Machine.execMabort t w w1 s
  | .dclose t w w1 => Sys2Proof.Machine.execDclose t w w1 s
  | .dkeep t w w1 => Sys2Proof.Machine.execDkeep t w w1 s
  | .drainStart t arr => Sys2Proof.Machine.execDrainStart t arr s
  | .drainCompletion t arr => Sys2Proof.Machine.execDrainCompletion t arr s
  | .lmma t w w1 => Sys2Proof.Machine.execLmma t w w1 s
  | .lclose t w w1 => Sys2Proof.Machine.execLclose t w w1 s
  | .vld t w => Sys2Proof.Machine.execVld t w s
  | .vst t w => Sys2Proof.Machine.execVst t w s
  | .vsplat t w => Sys2Proof.Machine.execVsplat t w s
  | .vmovs t w => Sys2Proof.Machine.execVmovs t w s
  | .vcmp t w => Sys2Proof.Machine.execVcmp t w s
  | .vmlog t w => Sys2Proof.Machine.execVmlog t w s
  | .vadd t w => Sys2Proof.Machine.execVadd t w s
  | .vsub t w => Sys2Proof.Machine.execVsub t w s
  | .vmul t w => Sys2Proof.Machine.execVmul t w s
  | .vfma t w => Sys2Proof.Machine.execVfma t w s
  | .vmax t w => Sys2Proof.Machine.execVmax t w s
  | .vmin t w => Sys2Proof.Machine.execVmin t w s
  | .vsel t w => Sys2Proof.Machine.execVsel t w s
  | .vfunc t w => Sys2Proof.Machine.execVfunc t w s
  | .vrot t w => Sys2Proof.Machine.execVrot t w s
  | .vred t w => Sys2Proof.Machine.execVred t w s
  | .vscan t w => Sys2Proof.Machine.execVscan t w s
  | .vcvt t w => Sys2Proof.Machine.execVcvt t w s
  | .vrng t w => Sys2Proof.Machine.execVrng t w s
  | .vsample t w => Sys2Proof.Machine.execVsample t w s
  | .fence t w => Sys2Proof.Machine.execFence t w s
  | .fenceRelease t => Sys2Proof.Machine.execFenceRelease t s
  | .waitk t w => Sys2Proof.Machine.execWaitk t w s
  | .waitkRelease t => Sys2Proof.Machine.execWaitkRelease t s
  | .postk t w => Sys2Proof.Machine.execPostk t w s
  | .waitw t w => Sys2Proof.Machine.execWaitw t w s
  | .waitwSatisfied t => Sys2Proof.Machine.execWaitwSatisfied t s
  | .waitwTimeout t => Sys2Proof.Machine.execWaitwTimeout t s
  | .aadd t w => Sys2Proof.Machine.execAadd t w s
  | .aswap t w => Sys2Proof.Machine.execAswap t w s
  | .acas t w => Sys2Proof.Machine.execAcas t w s
  | .atomicRequest t => Sys2Proof.Machine.execAtomicRequest t s
  | .atomicResultArrival t => Sys2Proof.Machine.execAtomicResultArrival t s
  | .rdk t w => Sys2Proof.Machine.execRdk t w s
  | .dqpush t w => Sys2Proof.Machine.execDqpush t w s
  | .dqpushAcknowledgement t => Sys2Proof.Machine.execDqpushAcknowledgement t s
  | .dqlen t w => Sys2Proof.Machine.execDqlen t w s
  | .cgabort t w => Sys2Proof.Machine.execCgabort t w s
  | .cgstat t w => Sys2Proof.Machine.execCgstat t w s
  | .descriptorFailure t => Sys2Proof.Machine.execDescriptorFailure t s
  | .push t => Sys2Proof.Machine.execPush t s
  | .dequeReevaluation t => Sys2Proof.Machine.execDequeReevaluation t s
  | .stealRound t => Sys2Proof.Machine.execStealRound t s
  | .stealBackoffExpiry t => Sys2Proof.Machine.execStealBackoffExpiry t s
  | .stealProbe t => Sys2Proof.Machine.execStealProbe t s
  | .stealAnswer t => Sys2Proof.Machine.execStealAnswer t s
  | .guardPassDecision t arr badRow => Sys2Proof.Machine.execGuardPassDecision t arr badRow s
  | .spillSlotAllocation t arr => Sys2Proof.Machine.execSpillSlotAllocation t arr s
  | .tscFetchCompletion t arr => Sys2Proof.Machine.execTscFetchCompletion t arr s
  | .blotterReport => Sys2Proof.Machine.execBlotterReport s
  | .adjudication t unit onArray helper => Sys2Proof.Machine.execAdjudication t unit onArray helper s
  | .adjudicationResult t unit pass same firstSame => Sys2Proof.Machine.execAdjudicationResult t unit pass same firstSame s
  | .stepAdvanceRequest req => Sys2Proof.Machine.execStepAdvanceRequest req s
  | .stepAdvance mirrorOk => Sys2Proof.Machine.execStepAdvance mirrorOk s
  | .stepValuesDelivery stack => Sys2Proof.Machine.execStepValuesDelivery stack s
  | .tscNextWrite req id v => Sys2Proof.Machine.execTscNextWrite req id v s
  | .tscCtlWrite req id v => Sys2Proof.Machine.execTscCtlWrite req id v s
  | .bltEntryWrite req off v => Sys2Proof.Machine.execBltEntryWrite req off v s
  | .bltSpillWrite req id v => Sys2Proof.Machine.execBltSpillWrite req id v s
  | .schedSwapRequest req => Sys2Proof.Machine.execSchedSwapRequest req s
  | .schedSegWrite req off v => Sys2Proof.Machine.execSchedSegWrite req off v s
  | .commitFlip g => Sys2Proof.Machine.execCommitFlip g s
  | .regionRestoreComplete r => Sys2Proof.Machine.execRegionRestoreComplete r s
  | .stackReadRequest req cls dpa len errs late => Sys2Proof.Machine.execStackReadRequest req cls dpa len errs late s
  | .stackWriteRequest req dpa data => Sys2Proof.Machine.execStackWriteRequest req dpa data s
  | .combiningTimeout stack => Sys2Proof.Machine.execCombiningTimeout stack s
  | .refresh stack pc => Sys2Proof.Machine.execRefresh stack pc s
  | .patrolScrub stack errs met => Sys2Proof.Machine.execPatrolScrub stack errs met s
  | .rowRemap stack pc bank row errs => Sys2Proof.Machine.execRowRemap stack pc bank row errs s
  | .pageRetirement stack pc page errs => Sys2Proof.Machine.execPageRetirement stack pc page errs s
  | .channelRetirement stack pc => Sys2Proof.Machine.execChannelRetirement stack pc s
  | .stackTempSample stack temp => Sys2Proof.Machine.execStackTempSample stack temp s
  | .stackLoss stack => Sys2Proof.Machine.execStackLoss stack s
  | .bnJob ring f => Sys2Proof.Machine.execBnJob ring f s
  | .startWordPoll => Sys2Proof.Machine.execStartWordPoll s
  | .updateJobStart stack => Sys2Proof.Machine.execUpdateJobStart stack s
  | .bnPassStart stack eng => Sys2Proof.Machine.execBnPassStart stack eng s
  | .bnPassRepeat stack eng => Sys2Proof.Machine.execBnPassRepeat stack eng s
  | .bnNop stack eng => Sys2Proof.Machine.execBnNop stack eng s
  | .bnAdd stack eng ok => Sys2Proof.Machine.execBnAdd stack eng ok s
  | .bnSub stack eng ok => Sys2Proof.Machine.execBnSub stack eng ok s
  | .bnRsb stack eng ok => Sys2Proof.Machine.execBnRsb stack eng ok s
  | .bnMul stack eng ok => Sys2Proof.Machine.execBnMul stack eng ok s
  | .bnFma stack eng ok => Sys2Proof.Machine.execBnFma stack eng ok s
  | .bnFns stack eng ok => Sys2Proof.Machine.execBnFns stack eng ok s
  | .bnDiv stack eng ok => Sys2Proof.Machine.execBnDiv stack eng ok s
  | .bnSqrt stack eng ok => Sys2Proof.Machine.execBnSqrt stack eng ok s
  | .bnRcp stack eng => Sys2Proof.Machine.execBnRcp stack eng s
  | .bnRsq stack eng => Sys2Proof.Machine.execBnRsq stack eng s
  | .bnExp stack eng => Sys2Proof.Machine.execBnExp stack eng s
  | .bnLog stack eng => Sys2Proof.Machine.execBnLog stack eng s
  | .bnMax stack eng => Sys2Proof.Machine.execBnMax stack eng s
  | .bnMin stack eng => Sys2Proof.Machine.execBnMin stack eng s
  | .bnAbs stack eng => Sys2Proof.Machine.execBnAbs stack eng s
  | .bnSel stack eng => Sys2Proof.Machine.execBnSel stack eng s
  | .bnPowt stack eng => Sys2Proof.Machine.execBnPowt stack eng s
  | .bnBcnt stack eng => Sys2Proof.Machine.execBnBcnt stack eng s
  | .bnLdg stack eng => Sys2Proof.Machine.execBnLdg stack eng s
  | .bnLdw stack eng => Sys2Proof.Machine.execBnLdw stack eng s
  | .bnLdm stack eng => Sys2Proof.Machine.execBnLdm stack eng s
  | .bnLdx stack eng => Sys2Proof.Machine.execBnLdx stack eng s
  | .bnStw stack eng => Sys2Proof.Machine.execBnStw stack eng s
  | .bnStm stack eng => Sys2Proof.Machine.execBnStm stack eng s
  | .bnStc stack eng => Sys2Proof.Machine.execBnStc stack eng s
  | .bnStx stack eng => Sys2Proof.Machine.execBnStx stack eng s
  | .bnEnd stack eng => Sys2Proof.Machine.execBnEnd stack eng s
  | .updateJobCompletion stack => Sys2Proof.Machine.execUpdateJobCompletion stack s
  | .flitCrcFailure l raw codewords => Sys2Proof.Machine.execFlitCrcFailure l raw codewords s
  | .dataFlit l f => Sys2Proof.Machine.execDataFlit l f s
  | .idleFlit l f => Sys2Proof.Machine.execIdleFlit l f s
  | .beatFlit l f => Sys2Proof.Machine.execBeatFlit l f s
  | .beatTimer l => Sys2Proof.Machine.execBeatTimer l s
  | .nakFlit l f => Sys2Proof.Machine.execNakFlit l f s
  | .nakHoldoffExpiry l => Sys2Proof.Machine.execNakHoldoffExpiry l s
  | .ackDeadlineLapse l => Sys2Proof.Machine.execAckDeadlineLapse l s
  | .replayWindowExpiry l => Sys2Proof.Machine.execReplayWindowExpiry l s
  | .paceFlit l f => Sys2Proof.Machine.execPaceFlit l f s
  | .identity l f => Sys2Proof.Machine.execIdentity l f s
  | .degrade l f => Sys2Proof.Machine.execDegrade l f s
  | .linkTrainingComplete l lanes => Sys2Proof.Machine.execLinkTrainingComplete l lanes s
  | .degradeWindow l syms corrected => Sys2Proof.Machine.execDegradeWindow l syms corrected s
  | .degradeDrained l => Sys2Proof.Machine.execDegradeDrained l s
  | .degradeComplete l => Sys2Proof.Machine.execDegradeComplete l s
  | .linkRetrainTimer l => Sys2Proof.Machine.execLinkRetrainTimer l s
  | .soakComplete l => Sys2Proof.Machine.execSoakComplete l s
  | .lsnRepeat dim => Sys2Proof.Machine.execLsnRepeat dim s
  | .putPacket => Sys2Proof.Machine.execPutPacket s
  | .putAckPacket => Sys2Proof.Machine.execPutAckPacket s
  | .lsnPacket => Sys2Proof.Machine.execLsnPacket s
  | .noroutePacket => Sys2Proof.Machine.execNoroutePacket s
  | .colPacket => Sys2Proof.Machine.execColPacket s
  | .collectiveStart id => Sys2Proof.Machine.execCollectiveStart id s
  | .stageComplete id part => Sys2Proof.Machine.execStageComplete id part s
  | .collectiveCompletion id => Sys2Proof.Machine.execCollectiveCompletion id s
  | .silent id rank => Sys2Proof.Machine.execSilent id rank s
  | .paceFrameTimer cause => Sys2Proof.Machine.execPaceFrameTimer cause s
  | .paceTimeout id => Sys2Proof.Machine.execPaceTimeout id s
  | .paceHoldExpiry id => Sys2Proof.Machine.execPaceHoldExpiry id s
  | .ppsEdge sub => Sys2Proof.Machine.execPpsEdge sub s
  | .holdoverEntry => Sys2Proof.Machine.execHoldoverEntry s
  | .epochSet req v => Sys2Proof.Machine.execEpochSet req v s
  | .freezeArm req => Sys2Proof.Machine.execFreezeArm req s
  | .counterFreeze => Sys2Proof.Machine.execCounterFreeze s
  | .pmcFreezeNow req => Sys2Proof.Machine.execPmcFreezeNow req s
  | .powerSample dies stackW linkW ctrlW => Sys2Proof.Machine.execPowerSample dies stackW linkW ctrlW s
  | .clampEnd => Sys2Proof.Machine.execClampEnd s
  | .ceilingBreach => Sys2Proof.Machine.execCeilingBreach s
  | .avsCurrentRead amps => Sys2Proof.Machine.execAvsCurrentRead amps s
  | .voltageSettled die mv fault => Sys2Proof.Machine.execVoltageSettled die mv fault s
  | .frequencyStep die => Sys2Proof.Machine.execFrequencyStep die s
  | .tagInterval die tiles notes0 notes1 colls => Sys2Proof.Machine.execTagInterval die tiles notes0 notes1 colls s
  | .junctionSample die temps => Sys2Proof.Machine.execJunctionSample die temps s
  | .stackHeatThrottle die => Sys2Proof.Machine.execStackHeatThrottle die s
  | .forecastPublish die pick => Sys2Proof.Machine.execForecastPublish die pick s
  | .shedReqN => Sys2Proof.Machine.execShedReqN s
  | .shedClockUpdate acts temps => Sys2Proof.Machine.execShedClockUpdate acts temps s
  | .shedEnd => Sys2Proof.Machine.execShedEnd s
  | .catchStretch trip => Sys2Proof.Machine.execCatchStretch trip s
  | .stretchRecovery seen => Sys2Proof.Machine.execStretchRecovery seen s
  | .stretchEnd die cycles => Sys2Proof.Machine.execStretchEnd die cycles s
  | .facilityBudgetWrite watts => Sys2Proof.Machine.execFacilityBudgetWrite watts s
  | .gateWrite off v => Sys2Proof.Machine.execGateWrite off v s
  | .gateLock => Sys2Proof.Machine.execGateLock s
  | .gateRead off => Sys2Proof.Machine.execGateRead off s
  | .forecastRead => Sys2Proof.Machine.execForecastRead s
  | .gateWindowTimeout => Sys2Proof.Machine.execGateWindowTimeout s
  | .gateCheck => Sys2Proof.Machine.execGateCheck s
  | .thermalTrip stackSensor index temp => Sys2Proof.Machine.execThermalTrip stackSensor index temp s
  | .tripRelease => Sys2Proof.Machine.execTripRelease s
  | .watchdogToggle => Sys2Proof.Machine.execWatchdogToggle s
  | .watchdogMiss within1s => Sys2Proof.Machine.execWatchdogMiss within1s s
  | .stagingComplete digest header version => Sys2Proof.Machine.execStagingComplete digest header version s
  | .coxSwitchEnd => Sys2Proof.Machine.execCoxSwitchEnd s
  | .switchTimeout => Sys2Proof.Machine.execSwitchTimeout s
  | .coxLockstepDisagreement => Sys2Proof.Machine.execCoxLockstepDisagreement s
  | .easyComplete => Sys2Proof.Machine.execEasyComplete s
  | .dieLoss die => Sys2Proof.Machine.execDieLoss die s
  | .scanStart px py => Sys2Proof.Machine.execScanStart px py s
  | .scanDrained t => Sys2Proof.Machine.execScanDrained t s
  | .scanDrainTimeout t => Sys2Proof.Machine.execScanDrainTimeout t s
  | .scanComplete t pass chains => Sys2Proof.Machine.execScanComplete t pass chains s
  | .eventRecordWrite code die src a b => Sys2Proof.Machine.execEventRecordWrite code die src a b s
  | .asyncRecordPost => Sys2Proof.Machine.execAsyncRecordPost s
  | .commandDoorbell c v => Sys2Proof.Machine.execCommandDoorbell c v s
  | .completionDoorbell c v => Sys2Proof.Machine.execCompletionDoorbell c v s
  | .cmdRingEnable c v => Sys2Proof.Machine.execCmdRingEnable c v s
  | .cplRingEnable c v => Sys2Proof.Machine.execCplRingEnable c v s
  | .cplHoldTimeout c => Sys2Proof.Machine.execCplHoldTimeout c s
  | .unknownOpcode ring f => Sys2Proof.Machine.execUnknownOpcode ring f s
  | .cfgQuery ring f => Sys2Proof.Machine.execCfgQuery ring f s
  | .cfgBegin ring f => Sys2Proof.Machine.execCfgBegin ring f s
  | .cfgWrite ring f => Sys2Proof.Machine.execCfgWrite ring f s
  | .cfgRead ring f => Sys2Proof.Machine.execCfgRead ring f s
  | .cfgCommit ring f => Sys2Proof.Machine.execCfgCommit ring f s
  | .cfgRelease ring f => Sys2Proof.Machine.execCfgRelease ring f s
  | .workEnq ring f => Sys2Proof.Machine.execWorkEnq ring f s
  | .workDrain ring f => Sys2Proof.Machine.execWorkDrain ring f s
  | .workRun ring f => Sys2Proof.Machine.execWorkRun ring f s
  | .workDiscard ring f => Sys2Proof.Machine.execWorkDiscard ring f s
  | .cgOpen ring f => Sys2Proof.Machine.execCgOpen ring f s
  | .cgAbort ring f => Sys2Proof.Machine.execCgAbort ring f s
  | .cgFree ring f => Sys2Proof.Machine.execCgFree ring f s
  | .shrSet ring f => Sys2Proof.Machine.execShrSet ring f s
  | .shrClear ring f => Sys2Proof.Machine.execShrClear ring f s
  | .memLocalSet ring f => Sys2Proof.Machine.execMemLocalSet ring f s
  | .memLocalClear ring f => Sys2Proof.Machine.execMemLocalClear ring f s
  | .bnLoad ring f => Sys2Proof.Machine.execBnLoad ring f s
  | .memRepair ring f => Sys2Proof.Machine.execMemRepair ring f s
  | .commSet ring f => Sys2Proof.Machine.execCommSet ring f s
  | .commClear ring f => Sys2Proof.Machine.execCommClear ring f s
  | .colSubmit ring f => Sys2Proof.Machine.execColSubmit ring f s
  | .colAbort ring f => Sys2Proof.Machine.execColAbort ring f s
  | .putSend ring f => Sys2Proof.Machine.execPutSend ring f s
  | .routeSet ring f => Sys2Proof.Machine.execRouteSet ring f s
  | .routeClear ring f => Sys2Proof.Machine.execRouteClear ring f s
  | .spareAssign ring f => Sys2Proof.Machine.execSpareAssign ring f s
  | .spareRelease ring f => Sys2Proof.Machine.execSpareRelease ring f s
  | .pwrClockCap ring f => Sys2Proof.Machine.execPwrClockCap ring f s
  | .pwrRelearn ring f => Sys2Proof.Machine.execPwrRelearn ring f s
  | .stepAdv ring f => Sys2Proof.Machine.execStepAdv ring f s
  | .tscLoad ring f => Sys2Proof.Machine.execTscLoad ring f s
  | .bltRead ring f => Sys2Proof.Machine.execBltRead ring f s
  | .timeNextSec ring f => Sys2Proof.Machine.execTimeNextSec ring f s
  | .scanTile ring f => Sys2Proof.Machine.execScanTile ring f s
  | .spareTile ring f => Sys2Proof.Machine.execSpareTile ring f s
  | .spareDecide ring f => Sys2Proof.Machine.execSpareDecide ring f s
  | .quarClose ring f => Sys2Proof.Machine.execQuarClose ring f s
  | .ctrDump ring f => Sys2Proof.Machine.execCtrDump ring f s
  | .sampleRing ring f => Sys2Proof.Machine.execSampleRing ring f s
  | .fwInfo ring f => Sys2Proof.Machine.execFwInfo ring f s
  | .fwRestart ring f => Sys2Proof.Machine.execFwRestart ring f s
  | .counterClear req t v => Sys2Proof.Machine.execCounterClear req t v s
  | .pmcSampleWrite req v => Sys2Proof.Machine.execPmcSampleWrite req v s
  | .pmcConfigLock req => Sys2Proof.Machine.execPmcConfigLock req s
  | .sampleRecordWrite t ok => Sys2Proof.Machine.execSampleRecordWrite t ok s
  | .entdaa addr => Sys2Proof.Machine.execEntdaa addr s
  | .setdasa addr => Sys2Proof.Machine.execSetdasa addr s
  | .setEndpointId eid => Sys2Proof.Machine.execSetEndpointId eid s
  | .getEndpointId => Sys2Proof.Machine.execGetEndpointId s
  | .getMctpVersion => Sys2Proof.Machine.execGetMctpVersion s
  | .getMessageTypeSupport => Sys2Proof.Machine.execGetMessageTypeSupport s
  | .getVendorDefinedMessageSupport => Sys2Proof.Machine.execGetVendorDefinedMessageSupport s
  | .getPdr handle => Sys2Proof.Machine.execGetPdr handle s
  | .getSensorReading id => Sys2Proof.Machine.execGetSensorReading id s
  | .setEventReceiver eid => Sys2Proof.Machine.execSetEventReceiver eid s
  | .pollForPlatformEventMessage => Sys2Proof.Machine.execPollForPlatformEventMessage s
  | .requestUpdate component => Sys2Proof.Machine.execRequestUpdate component s
  | .firmwareData data ok => Sys2Proof.Machine.execFirmwareData data ok s
  | .verifyComplete digest header version => Sys2Proof.Machine.execVerifyComplete digest header version s
  | .activateFirmware => Sys2Proof.Machine.execActivateFirmware s
  | .cancelUpdate => Sys2Proof.Machine.execCancelUpdate s
  | .jtagBypass => Sys2Proof.Machine.execJtagBypass s
  | .jtagIdcode => Sys2Proof.Machine.execJtagIdcode s
  | .jtagSample => Sys2Proof.Machine.execJtagSample s
  | .vectorCompletion t ok => Sys2Proof.Machine.execVectorCompletion t ok s
  | .msixHoldoffExpiry vec => Sys2Proof.Machine.execMsixHoldoffExpiry vec s
  | .pcieLinkUp rate width flitMode => Sys2Proof.Machine.execPcieLinkUp rate width flitMode s
  | .pcieLinkDown => Sys2Proof.Machine.execPcieLinkDown s

end Sys2Proof.Machine
end

