-- ==== Sys2Proof/Safety.lean ====
section
/-! DEFINITION. What counts as a safe run, in the terms the statements use: the bounds that the Gate holds (R359, R361), and the
commands that may change them. -/

namespace Sys2Proof.Safety
open Sys2Proof Sys2Proof.Machine

/-- Words of the Gate's bounds: the GL registers, which lie below offset 0x100 (R361). -/
def glWords (s : State) : SMap Word := s.regs.filter (fun e => decide (e.1 < 0x100))

/-- A command that returns the device to a cold start or takes its power away (R371). -/
def startsCold : Instr → Bool
  | .powerGood _ => true
  | .railLoss => true
  | .coldRstN _ => true
  | _ => false

/-- The window is closed, the bounds are `v`, and no command that waits starts the device cold. -/
def Bounded (v : SMap Word) (s : State) : Prop :=
  s.gate.open_ = false ∧ glWords s = v ∧ s.pending.all (fun c => !startsCold c) = true

end Sys2Proof.Safety
end

