-- ==== Sys2Proof/WellFormed.lean ====
section
/-! DEFINITION. Which operands a command of the table can carry. The block itself takes every command: one that names a place
it does not have is refused by its own rule or has no effect. -/

namespace Sys2Proof.WellFormed
open Sys2Proof

/-- A logical tile (R14). -/
def tileOk (t : Nat) : Bool := decide (t < 1152)
/-- A logical tile, or a spare named by its position (R406). -/
def scanTileOk (t : Nat) : Bool := decide (t < 1152 + 2048)
/-- A ring (R373). -/
def ringOk (c : Nat) : Bool := decide (c < 8)
/-- A stack. -/
def stackOk (n : Nat) : Bool := decide (n < 8)
/-- A base-note engine of a stack. -/
def engOk (e : Nat) : Bool := decide (e < 8)
/-- An array: F, GX or GW. -/
def arrOk (a : Nat) : Bool := decide (a < 3)
/-- A link port. -/
def linkOk (l : Nat) : Bool := decide (l < 48)
/-- A compute die. -/
def dieOk (d : Nat) : Bool := decide (d < 4)
/-- An MSI-X vector (R428). -/
def vecOk (v : Nat) : Bool := decide (v < 64)
/-- A commit group slot. -/
def groupOk (g : Nat) : Bool := decide (g < 16)
/-- A shadowed region (R210). -/
def regionOk (r : Nat) : Bool := decide (r < 32)
/-- A PLL (R323). -/
def pllOk (p : Nat) : Bool := decide (p < 26)
/-- A fabric dimension. -/
def dimOk (d : Nat) : Bool := decide (d < 3)
/-- A part of a collective (R308). -/
def partOk (p : Nat) : Bool := decide (p < 3)
/-- A physical column. -/
def colOk (x : Nat) : Bool := decide (x < 48)
/-- A physical row. -/
def rowOk (y : Nat) : Bool := decide (y < 26)
/-- A pseudo-channel. -/
def chanOk (c : Nat) : Bool := decide (c < 64)
/-- A tensor id. -/
def tensorOk (i : Nat) : Bool := decide (i < 4096)
/-- A BAR2 size (R426). -/
def bar2Ok (n : Nat) : Bool := decide (n ≤ 9)
/-- An endpoint ID (R431). -/
def eidOk (e : Nat) : Bool := decide (8 ≤ e) && decide (e ≤ 254)
/-- An I3C dynamic address (R430). -/
def addrOk (a : Nat) : Bool := decide (0 < a) && decide (a < 128)
/-- A firmware component (R435). -/
def componentOk (c : Nat) : Bool := c == 1 || c == 2
/-- A PCIe rate as PCIE_LINK codes it (R440). -/
def rateOk (r : Nat) : Bool := decide (1 ≤ r) && decide (r ≤ 3)
/-- A phase tag (R348). -/
def tagOk (k : Nat) : Bool := decide (k < 16)
/-- A droop region of the package (R353). -/
def droopOk (r : Nat) : Bool := decide (r < 104)
/-- A cause of pace frames, 0 for their end (R313). -/
def paceOk (c : Nat) : Bool := decide (c ≤ 6)
/-- A transfer of update data (R435). -/
def transferOk (d : List Byte) : Bool := decide (d.length ≤ 256)

/-- Every operand lies in its range. -/
def ok (i : Instr) : Bool :=
  match i with
  | .powerGood _ => true
  | .railLoss => true
  | .coldRstN _ => true
  | .bootImageCheck _ _ _ => true
  | .startupTestsComplete => true
  | .warmRstN => true
  | .warmReset ring _ => ringOk ring
  | .perstN => true
  | .hotReset => true
  | .functionLevelReset => true
  | .pllLock pll => pllOk pll
  | .pllUnlock pll => pllOk pll
  | .registerWrite _ _ _ _ => true
  | .badAccess _ _ _ _ => true
  | .bar0Access _ _ _ _ _ => true
  | .bar2Access _ _ _ _ _ => true
  | .bar4Access _ _ _ _ _ => true
  | .pcieBar2BaseWrite _ _ => true
  | .bar2Resize n => bar2Ok n
  | .msixUnmask vec => vecOk vec
  | .hostReadTimeout ring => ringOk ring
  | .windowRead _ t _ _ _ => tileOk t
  | .windowWrite _ t _ _ _ => tileOk t
  | .scrubPeriod t _ => tileOk t
  | .tileSeqCodeWrite _ t _ => tileOk t
  | .mapMove t px py _ => tileOk t && colOk px && rowOk py
  | .mapHoldClear t _ => tileOk t
  | .routerCheckFailure px py => colOk px && rowOk py
  | .dispatch t => tileOk t
  | .illegalOpcode t _ _ => tileOk t
  | .nop t _ => tileOk t
  | .endProg t _ => tileOk t
  | .endRetirement t => tileOk t
  | .br t _ => tileOk t
  | .jr t _ => tileOk t
  | .loop t _ => tileOk t
  | .swFault t _ => tileOk t
  | .mfs t _ => tileOk t
  | .add t _ => tileOk t
  | .sub t _ => tileOk t
  | .andd t _ => tileOk t
  | .orr t _ => tileOk t
  | .xorr t _ => tileOk t
  | .shl t _ => tileOk t
  | .shr t _ => tileOk t
  | .sra t _ => tileOk t
  | .mul t _ => tileOk t
  | .minS t _ => tileOk t
  | .maxS t _ => tileOk t
  | .lih t _ => tileOk t
  | .cmp t _ => tileOk t
  | .plog t _ => tileOk t
  | .fadd t _ => tileOk t
  | .fmul t _ => tileOk t
  | .fma t _ => tileOk t
  | .fcvt t _ => tileOk t
  | .aaddr t _ => tileOk t
  | .mova t _ => tileOk t
  | .lds t _ => tileOk t
  | .ldsDataArrival t => tileOk t
  | .sts t _ => tileOk t
  | .copy t _ => tileOk t
  | .copy2d t _ => tileOk t
  | .fill t _ => tileOk t
  | .blockMoveCompletion t _ => tileOk t
  | .mopen t _ _ => tileOk t
  | .preloadCompletion t arr => tileOk t && arrOk arr
  | .mma t _ _ => tileOk t
  | .mma2 t _ _ => tileOk t
  | .mmaCompletion t arr => tileOk t && arrOk arr
  | .mabort t _ _ => tileOk t
  | .dclose t _ _ => tileOk t
  | .dkeep t _ _ => tileOk t
  | .drainStart t arr => tileOk t && arrOk arr
  | .drainCompletion t arr => tileOk t && arrOk arr
  | .lmma t _ _ => tileOk t
  | .lclose t _ _ => tileOk t
  | .vld t _ => tileOk t
  | .vst t _ => tileOk t
  | .vsplat t _ => tileOk t
  | .vmovs t _ => tileOk t
  | .vcmp t _ => tileOk t
  | .vmlog t _ => tileOk t
  | .vadd t _ => tileOk t
  | .vsub t _ => tileOk t
  | .vmul t _ => tileOk t
  | .vfma t _ => tileOk t
  | .vmax t _ => tileOk t
  | .vmin t _ => tileOk t
  | .vsel t _ => tileOk t
  | .vfunc t _ => tileOk t
  | .vrot t _ => tileOk t
  | .vred t _ => tileOk t
  | .vscan t _ => tileOk t
  | .vcvt t _ => tileOk t
  | .vrng t _ => tileOk t
  | .vsample t _ => tileOk t
  | .fence t _ => tileOk t
  | .fenceRelease t => tileOk t
  | .waitk t _ => tileOk t
  | .waitkRelease t => tileOk t
  | .postk t _ => tileOk t
  | .waitw t _ => tileOk t
  | .waitwSatisfied t => tileOk t
  | .waitwTimeout t => tileOk t
  | .aadd t _ => tileOk t
  | .aswap t _ => tileOk t
  | .acas t _ => tileOk t
  | .atomicRequest t => tileOk t
  | .atomicResultArrival t => tileOk t
  | .rdk t _ => tileOk t
  | .dqpush t _ => tileOk t
  | .dqpushAcknowledgement t => tileOk t
  | .dqlen t _ => tileOk t
  | .cgabort t _ => tileOk t
  | .cgstat t _ => tileOk t
  | .descriptorFailure t => tileOk t
  | .push t => tileOk t
  | .dequeReevaluation t => tileOk t
  | .stealRound t => tileOk t
  | .stealBackoffExpiry t => tileOk t
  | .stealProbe t => tileOk t
  | .stealAnswer t => tileOk t
  | .guardPassDecision t arr _ => tileOk t && arrOk arr
  | .spillSlotAllocation t arr => tileOk t && arrOk arr
  | .tscFetchCompletion t arr => tileOk t && arrOk arr
  | .blotterReport => true
  | .adjudication t _ _ _ => tileOk t
  | .adjudicationResult t _ _ _ _ => tileOk t
  | .stepAdvanceRequest _ => true
  | .stepAdvance _ => true
  | .stepValuesDelivery stack => stackOk stack
  | .tscNextWrite _ id _ => tensorOk id
  | .tscCtlWrite _ id _ => tensorOk id
  | .bltEntryWrite _ _ _ => true
  | .bltSpillWrite _ id _ => tensorOk id
  | .schedSwapRequest _ => true
  | .schedSegWrite _ _ _ => true
  | .commitFlip g => groupOk g
  | .regionRestoreComplete r => regionOk r
  | .stackReadRequest _ _ _ _ _ _ => true
  | .stackWriteRequest _ _ _ => true
  | .combiningTimeout stack => stackOk stack
  | .refresh stack pc => stackOk stack && chanOk pc
  | .patrolScrub stack _ _ => stackOk stack
  | .rowRemap stack pc _ _ _ => stackOk stack && chanOk pc
  | .pageRetirement stack pc _ _ => stackOk stack && chanOk pc
  | .channelRetirement stack pc => stackOk stack && chanOk pc
  | .stackTempSample stack _ => stackOk stack
  | .stackLoss stack => stackOk stack
  | .bnJob ring _ => ringOk ring
  | .startWordPoll => true
  | .updateJobStart stack => stackOk stack
  | .bnPassStart stack eng => stackOk stack && engOk eng
  | .bnPassRepeat stack eng => stackOk stack && engOk eng
  | .bnNop stack eng => stackOk stack && engOk eng
  | .bnAdd stack eng _ => stackOk stack && engOk eng
  | .bnSub stack eng _ => stackOk stack && engOk eng
  | .bnRsb stack eng _ => stackOk stack && engOk eng
  | .bnMul stack eng _ => stackOk stack && engOk eng
  | .bnFma stack eng _ => stackOk stack && engOk eng
  | .bnFns stack eng _ => stackOk stack && engOk eng
  | .bnDiv stack eng _ => stackOk stack && engOk eng
  | .bnSqrt stack eng _ => stackOk stack && engOk eng
  | .bnRcp stack eng => stackOk stack && engOk eng
  | .bnRsq stack eng => stackOk stack && engOk eng
  | .bnExp stack eng => stackOk stack && engOk eng
  | .bnLog stack eng => stackOk stack && engOk eng
  | .bnMax stack eng => stackOk stack && engOk eng
  | .bnMin stack eng => stackOk stack && engOk eng
  | .bnAbs stack eng => stackOk stack && engOk eng
  | .bnSel stack eng => stackOk stack && engOk eng
  | .bnPowt stack eng => stackOk stack && engOk eng
  | .bnBcnt stack eng => stackOk stack && engOk eng
  | .bnLdg stack eng => stackOk stack && engOk eng
  | .bnLdw stack eng => stackOk stack && engOk eng
  | .bnLdm stack eng => stackOk stack && engOk eng
  | .bnLdx stack eng => stackOk stack && engOk eng
  | .bnStw stack eng => stackOk stack && engOk eng
  | .bnStm stack eng => stackOk stack && engOk eng
  | .bnStc stack eng => stackOk stack && engOk eng
  | .bnStx stack eng => stackOk stack && engOk eng
  | .bnEnd stack eng => stackOk stack && engOk eng
  | .updateJobCompletion stack => stackOk stack
  | .flitCrcFailure l _ _ => linkOk l
  | .dataFlit l _ => linkOk l
  | .idleFlit l _ => linkOk l
  | .beatFlit l _ => linkOk l
  | .beatTimer l => linkOk l
  | .nakFlit l _ => linkOk l
  | .nakHoldoffExpiry l => linkOk l
  | .ackDeadlineLapse l => linkOk l
  | .replayWindowExpiry l => linkOk l
  | .paceFlit l _ => linkOk l
  | .identity l _ => linkOk l
  | .degrade l _ => linkOk l
  | .linkTrainingComplete l _ => linkOk l
  | .degradeWindow l _ _ => linkOk l
  | .degradeDrained l => linkOk l
  | .degradeComplete l => linkOk l
  | .linkRetrainTimer l => linkOk l
  | .soakComplete l => linkOk l
  | .lsnRepeat dim => dimOk dim
  | .putPacket => true
  | .putAckPacket => true
  | .lsnPacket => true
  | .noroutePacket => true
  | .colPacket => true
  | .collectiveStart _ => true
  | .stageComplete _ part => partOk part
  | .collectiveCompletion _ => true
  | .silent _ _ => true
  | .paceFrameTimer cause => paceOk cause
  | .paceTimeout _ => true
  | .paceHoldExpiry _ => true
  | .ppsEdge _ => true
  | .holdoverEntry => true
  | .epochSet _ _ => true
  | .freezeArm _ => true
  | .counterFreeze => true
  | .pmcFreezeNow _ => true
  | .powerSample _ _ _ _ => true
  | .clampEnd => true
  | .ceilingBreach => true
  | .avsCurrentRead _ => true
  | .voltageSettled die _ _ => dieOk die
  | .frequencyStep die => dieOk die
  | .tagInterval die _ _ _ _ => dieOk die
  | .junctionSample die _ => dieOk die
  | .stackHeatThrottle die => dieOk die
  | .forecastPublish die _ => dieOk die
  | .shedReqN => true
  | .shedClockUpdate _ _ => true
  | .shedEnd => true
  | .catchStretch trip => droopOk trip.region
  | .stretchRecovery seen => dieOk seen.die
  | .stretchEnd die _ => dieOk die
  | .facilityBudgetWrite _ => true
  | .gateWrite _ _ => true
  | .gateLock => true
  | .gateRead _ => true
  | .forecastRead => true
  | .gateWindowTimeout => true
  | .gateCheck => true
  | .thermalTrip _ _ _ => true
  | .tripRelease => true
  | .watchdogToggle => true
  | .watchdogMiss _ => true
  | .stagingComplete _ _ _ => true
  | .coxSwitchEnd => true
  | .switchTimeout => true
  | .coxLockstepDisagreement => true
  | .easyComplete => true
  | .dieLoss die => dieOk die
  | .scanStart px py => colOk px && rowOk py
  | .scanDrained t => tileOk t
  | .scanDrainTimeout t => tileOk t
  | .scanComplete t _ _ => scanTileOk t
  | .eventRecordWrite _ _ _ _ _ => true
  | .asyncRecordPost => true
  | .commandDoorbell c _ => ringOk c
  | .completionDoorbell c _ => ringOk c
  | .cmdRingEnable c _ => ringOk c
  | .cplRingEnable c _ => ringOk c
  | .cplHoldTimeout c => ringOk c
  | .unknownOpcode ring _ => ringOk ring
  | .cfgQuery ring _ => ringOk ring
  | .cfgBegin ring _ => ringOk ring
  | .cfgWrite ring _ => ringOk ring
  | .cfgRead ring _ => ringOk ring
  | .cfgCommit ring _ => ringOk ring
  | .cfgRelease ring _ => ringOk ring
  | .workEnq ring _ => ringOk ring
  | .workDrain ring _ => ringOk ring
  | .workRun ring _ => ringOk ring
  | .workDiscard ring _ => ringOk ring
  | .cgOpen ring _ => ringOk ring
  | .cgAbort ring _ => ringOk ring
  | .cgFree ring _ => ringOk ring
  | .shrSet ring _ => ringOk ring
  | .shrClear ring _ => ringOk ring
  | .memLocalSet ring _ => ringOk ring
  | .memLocalClear ring _ => ringOk ring
  | .bnLoad ring _ => ringOk ring
  | .memRepair ring _ => ringOk ring
  | .commSet ring _ => ringOk ring
  | .commClear ring _ => ringOk ring
  | .colSubmit ring _ => ringOk ring
  | .colAbort ring _ => ringOk ring
  | .putSend ring _ => ringOk ring
  | .routeSet ring _ => ringOk ring
  | .routeClear ring _ => ringOk ring
  | .spareAssign ring _ => ringOk ring
  | .spareRelease ring _ => ringOk ring
  | .pwrClockCap ring _ => ringOk ring
  | .pwrRelearn ring _ => ringOk ring
  | .stepAdv ring _ => ringOk ring
  | .tscLoad ring _ => ringOk ring
  | .bltRead ring _ => ringOk ring
  | .timeNextSec ring _ => ringOk ring
  | .scanTile ring _ => ringOk ring
  | .spareTile ring _ => ringOk ring
  | .spareDecide ring _ => ringOk ring
  | .quarClose ring _ => ringOk ring
  | .ctrDump ring _ => ringOk ring
  | .sampleRing ring _ => ringOk ring
  | .fwInfo ring _ => ringOk ring
  | .fwRestart ring _ => ringOk ring
  | .counterClear _ t _ => tileOk t
  | .pmcSampleWrite _ _ => true
  | .pmcConfigLock _ => true
  | .sampleRecordWrite t _ => tileOk t
  | .entdaa addr => addrOk addr
  | .setdasa addr => addrOk addr
  | .setEndpointId eid => eidOk eid
  | .getEndpointId => true
  | .getMctpVersion => true
  | .getMessageTypeSupport => true
  | .getVendorDefinedMessageSupport => true
  | .getPdr _ => true
  | .getSensorReading _ => true
  | .setEventReceiver _ => true
  | .pollForPlatformEventMessage => true
  | .requestUpdate component => componentOk component
  | .firmwareData data _ => transferOk data
  | .verifyComplete _ _ _ => true
  | .activateFirmware => true
  | .cancelUpdate => true
  | .jtagBypass => true
  | .jtagIdcode => true
  | .jtagSample => true
  | .vectorCompletion t _ => tileOk t
  | .msixHoldoffExpiry vec => vecOk vec
  | .pcieLinkUp rate _ _ => rateOk rate
  | .pcieLinkDown => true

end Sys2Proof.WellFormed
end

