-- ==== Sys2Proof/Certificates/Slice0/Obligations.lean ====
section
/-! DEFINITION. The statements for the provers: what reset leaves, what a step is, what each command of the table does where its rule lets it
run, what it leaves alone, and what no command can change. -/

open Sys2Proof Sys2Proof.Machine

/-! ### The forms of the statements -/

/-- The command answers a next state, and that state has the property. -/
def Sys2Proof.Claim.completes (c : Instr) (s : State) (P : State → Prop) : Prop := ∃ s', exec c s = .next s' ∧ P s'

/-- The tile can take an instruction of this many words at its PC: outputs on and nothing frozen, the sequencer running, the words inside the code
region and delivered unpoisoned (R56, R65, R81, R366). -/
def Sys2Proof.Claim.canFetch (s : State) (t words : Nat) : Bool :=
  let x := tileOf s t
  running s && x.seq == .running && !x.pcOutside x.pc && !(x.fetched 0).2 && (words == 1 || (!x.pcOutside (x.pc + 8) && !(x.fetched 1).2))

/-- No register that the instruction names is still to be written by an earlier one (R82). -/
def Sys2Proof.Claim.ready (x : Tile) (w : BitVec 56) (rs rp : List Nat) : Bool := !rs.any x.pendS && !(bits w 54 52 :: rp).any x.pendP

/-- What must hold for the instruction at a tile's PC to take effect when it issues: it can be taken, no register it names is still to be written, and
its guard is true (R56, R65, R81, R82, R366). -/
def Sys2Proof.Claim.canIssue (s : State) (t : Nat) (w : BitVec 56) (words : Nat) (rs rp : List Nat) : Bool :=
  Claim.canFetch s t words && Claim.ready (tileOf s t) w rs rp && guardOf (tileOf s t) w

/-- Everything outside tile t and its event counters is as before, but what fetch records of store words found in error (R24, R51). -/
def Sys2Proof.Claim.elsewhere (t : Nat) (s s' : State) : Prop :=
  s' = { s with tiles := s'.tiles, regs := s'.regs, fresh := s'.fresh, rec_ := s'.rec_, cox := { s.cox with async := s'.cox.async } } ∧
  (∀ u, u ≠ t → tileOf s' u = tileOf s u) ∧
  ((tileOf s t).soft = [] → s'.rec_ = s.rec_ ∧ s'.cox.async = s.cox.async ∧
    ∀ r : Reg, r.off ≠ (reg .TILE_PMC_OVF t).off → (∀ k, k < 8 → r.off ≠ (reg .TILE_PMC_CTR t k).off) → rget s' r = rget s r)

/-- A tile without what issue itself moves: PC, loops, instruction number, sampling, prefetch queue, and the marks that fetch leaves on words in error. -/
def Sys2Proof.Claim.still (x : Tile) : Tile :=
  { x with pc := 0, loops := [], sn := 0, sampLeft := 0, lfsr := 0#32, samples := [], pre := [], soft := [], poison := [] }

/-- The tile is y but for what issue itself moves; where no word of its stores held an error, their marks are those of y too. -/
def Sys2Proof.Claim.besideIssue (y x' : Tile) : Prop := Claim.still x' = Claim.still y ∧ (y.soft = [] → x'.soft = [] ∧ x'.poison = y.poison)

/-- Issue goes on `words` words further on, by the loops' rule (R66). -/
def Sys2Proof.Claim.advanced (words : Nat) (x x' : Tile) : Prop :=
  x'.pc = (x.advance (x.pc + 8 * words)).pc ∧ x'.loops = (x.advance (x.pc + 8 * words)).loops ∧ x'.sn = x.sn + 1

/-- The instruction of `words` words completes at issue: its tile is `y` but for issue itself, which moves on behind it; nothing outside the tile changes. -/
def Sys2Proof.Claim.leaves (c : Instr) (t words : Nat) (y : Tile) (s : State) : Prop :=
  Claim.completes c s (fun s' => Claim.besideIssue y (tileOf s' t) ∧ Claim.advanced words (tileOf s t) (tileOf s' t) ∧ Claim.elsewhere t s s')

/-- The instruction stops issue with a fault at its PC (R86). Nothing else of the device moves but what issue counts; drains of the tile that are in
passes go with their tiles' marks (R185). -/
def Sys2Proof.Claim.faults (c : Instr) (t : Nat) (f : FaultInfo) (s : State) : Prop :=
  Claim.completes c s (fun s' =>
    (tileOf s' t).seq = .faulted { f with pc := (tileOf s t).pc } ∧
    tileOf s' t = { tileOf s t with
      seq := (tileOf s' t).seq, drains := (tileOf s t).drains.filter (fun d => !d.inPasses), poison := (tileOf s' t).poison, sn := (tileOf s' t).sn,
      sampLeft := (tileOf s' t).sampLeft, lfsr := (tileOf s' t).lfsr, samples := (tileOf s' t).samples } ∧
    s' = { s with tiles := s'.tiles, regs := s'.regs, fresh := s'.fresh } ∧ (∀ u, u ≠ t → tileOf s' u = tileOf s u) ∧
    ((tileOf s t).drains.any Drain.inPasses = false → (tileOf s' t).poison = (tileOf s t).poison ∧
      ∀ r : Reg, r.off ≠ (reg .TILE_PMC_OVF t).off → (∀ k, k < 8 → r.off ≠ (reg .TILE_PMC_CTR t k).off) → rget s' r = rget s r))

/-- The command writes v into scalar register d of tile t, s0 keeping its 0, and moves issue on by one word; nothing else changes. -/
def Sys2Proof.Claim.setsScalar (c : Instr) (t d : Nat) (v : Word) (s : State) : Prop :=
  Claim.completes c s (fun s' =>
    (tileOf s' t).sr d = (if d = 0 then 0#64 else v) ∧ (∀ n, n ≠ d → (tileOf s' t).sr n = (tileOf s t).sr n) ∧
    Claim.besideIssue { tileOf s t with s := (tileOf s' t).s } (tileOf s' t) ∧ Claim.advanced 1 (tileOf s t) (tileOf s' t) ∧ Claim.elsewhere t s s')

/-- An instruction of format S, when it can issue and its reserved fields are 0, writes its function of s[sa], op2 and s[sd]. -/
def Sys2Proof.Claim.formatS (mk : Nat → BitVec 56 → Instr) (fits : BitVec 56 → Bool) (f : Word → Word → Word → Word) : Prop :=
  ∀ (t : Nat) (w : BitVec 56) (s : State),
    Claim.canIssue s t w 1 ([fSd w, fSa w] ++ (if fIm w then [] else [fSb w])) [] = true →
    bits w 35 32 = 0 → (fIm w = true → fSb w = 0) → fits w = true →
    Claim.setsScalar (mk t w) t (fSd w) (f ((tileOf s t).sr (fSa w)) (op2 (tileOf s t) w) ((tileOf s t).sr (fSd w))) s


/-! ### Scalar instructions (R46, R60, R63 to R67) -/

/-- The integer format-S instructions: the result of each (R60, R63), and that nothing else changes. -/
def Obligations.IntegerResults : Prop :=
  Claim.formatS Instr.add (fun _ => true) (fun a b _ => a + b) ∧
  Claim.formatS Instr.sub (fun _ => true) (fun a b _ => a - b) ∧
  Claim.formatS Instr.andd (fun _ => true) (fun a b _ => a &&& b) ∧
  Claim.formatS Instr.orr (fun _ => true) (fun a b _ => a ||| b) ∧
  Claim.formatS Instr.xorr (fun _ => true) (fun a b _ => a ^^^ b) ∧
  Claim.formatS Instr.shl (fun _ => true) (fun a b _ => a <<< bits b 5 0) ∧
  Claim.formatS Instr.shr (fun _ => true) (fun a b _ => a >>> bits b 5 0) ∧
  Claim.formatS Instr.sra (fun _ => true) (fun a b _ => a.sshiftRight (bits b 5 0)) ∧
  Claim.formatS Instr.mul (fun _ => true) (fun a b _ => a * b) ∧
  Claim.formatS Instr.minS (fun _ => true) (fun a b _ => if a.toInt < b.toInt then a else b) ∧
  Claim.formatS Instr.maxS (fun _ => true) (fun a b _ => if a.toInt < b.toInt then b else a) ∧
  Claim.formatS Instr.lih fIm (fun a b _ => (a &&& 0xFFFFFFFF#64) ||| (b <<< 32))

/-- The FP32 format-S instructions work on bits [31:0] and write 0 into bits [63:32] (R63); FCVT converts in the direction that its sb field
names. -/
def Sys2Proof.Claim.FloatArithmetic : Prop :=
  Claim.formatS Instr.fadd (fun _ => true) (fun a b _ => zx32 (fadd (lo32 a) (lo32 b))) ∧
  Claim.formatS Instr.fmul (fun _ => true) (fun a b _ => zx32 (fmul (lo32 a) (lo32 b))) ∧
  Claim.formatS Instr.fma (fun w => !fIm w) (fun a b d => zx32 (ffma (lo32 a) (lo32 b) (lo32 d))) ∧
  (∀ (t : Nat) (w : BitVec 56) (s : State), Claim.canIssue s t w 1 [fSd w, fSa w] [] = true → bits w 36 32 = 0 → fSb w ≤ 1 →
    Claim.setsScalar (.fcvt t w) t (fSd w)
      (if fSb w = 0 then zx32 (toF32 .even (Num.ofInt ((tileOf s t).sr (fSa w)).toInt))
       else BitVec.ofInt 64 (toIntClamp .even (-(2 ^ 63 : Nat)) ((2 ^ 63 : Nat) - 1) (f32 (lo32 ((tileOf s t).sr (fSa w)))))) s)

/-- What FADD and FMUL answer on a NaN and on 1 + 1, and FCVT on the ends of its range (R63). -/
def Sys2Proof.Claim.FloatCorners : Prop :=
  (∀ a b : Half, (f32 a).isNan = true → fadd a b = 0x7FC00000#32 ∧ fmul a b = 0x7FC00000#32) ∧
  (∀ a : Word, (f32 (lo32 a)).isNan = true → fcvt 1 a = 0#64) ∧
  fcvt 1 0x7F800000#64 = 0x7FFFFFFFFFFFFFFF#64 ∧ fcvt 1 0xFF800000#64 = 0x8000000000000000#64 ∧ fcvt 1 0x40200000#64 = 2#64 ∧
  fadd 0x3F800000#32 0x3F800000#32 = 0x40000000#32

/-- The command writes b into predicate register d, p0 keeping its 1, and moves issue on by one word; nothing else changes. -/
def Sys2Proof.Claim.setsPredicate (c : Instr) (t d : Nat) (b : Bool) (s : State) : Prop :=
  Claim.completes c s (fun s' =>
    (tileOf s' t).pr d = (if d = 0 then true else b) ∧ (∀ n, n ≠ d → (tileOf s' t).pr n = (tileOf s t).pr n) ∧
    Claim.besideIssue { tileOf s t with p := (tileOf s' t).p } (tileOf s' t) ∧ Claim.advanced 1 (tileOf s t) (tileOf s' t) ∧ Claim.elsewhere t s s')

/-- The command writes v into address register d and moves issue on by one word; nothing else changes. -/
def Sys2Proof.Claim.setsAddress (c : Instr) (t d : Nat) (v : Word) (s : State) : Prop :=
  Claim.completes c s (fun s' =>
    (tileOf s' t).ar d = v ∧ (∀ n, n ≠ d → (tileOf s' t).ar n = (tileOf s t).ar n) ∧
    Claim.besideIssue { tileOf s t with a := (tileOf s' t).a } (tileOf s' t) ∧ Claim.advanced 1 (tileOf s t) (tileOf s' t) ∧ Claim.elsewhere t s s')

/-- CMP and PLOG write their predicate register (R64); AADDR writes an address register, MOVA an address or a scalar register (R60). -/
def Obligations.PredicateAndAddressResults : Prop :=
  (∀ (t : Nat) (w : BitVec 56) (s : State), Claim.canIssue s t w 1 (qSa w :: (if qIm w then [] else [qSb w])) [qPd w] = true →
    qCc w ≤ 13 → bits w 33 32 = 0 →
    Claim.setsPredicate (.cmp t w) t (qPd w) (condWord (qCc w) ((tileOf s t).sr (qSa w)) (if qIm w then sext32 (fImm w) else (tileOf s t).sr (qSb w))) s) ∧
  (∀ (t : Nat) (w : BitVec 56) (s : State), Claim.canIssue s t w 1 [] [qPd w, bits w 48 46, bits w 45 43] = true → bits w 42 40 ≠ 7 → bits w 39 0 = 0 →
    Claim.setsPredicate (.plog t w) t (qPd w) (logicFn (bits w 42 40) ((tileOf s t).pr (bits w 48 46)) ((tileOf s t).pr (bits w 45 43))) s) ∧
  (∀ (t : Nat) (w : BitVec 56) (s : State), Claim.canIssue s t w 1 [aSs w] [] = true → bits w 35 32 = 0 →
    Claim.setsAddress (.aaddr t w) t (aAd w) ((tileOf s t).ar (aAs w) + ((tileOf s t).sr (aSs w) <<< aSh w) + sext32 (fImm w)) s) ∧
  (∀ (t : Nat) (w : BitVec 56) (s : State), Claim.canIssue s t w 1 [aSs w] [] = true → bits w 34 32 = 0 → aDir w = true →
    Claim.setsScalar (.mova t w) t (aSs w) ((tileOf s t).ar (aAs w)) s) ∧
  (∀ (t : Nat) (w : BitVec 56) (s : State), Claim.canIssue s t w 1 [aSs w] [] = true → bits w 34 32 = 0 → aDir w = false →
    Claim.setsAddress (.mova t w) t (aAd w) ((tileOf s t).sr (aSs w)) s)

/-- The fields of format J that every control instruction but LOOP and FAULT leaves 0 (R59). -/
def Sys2Proof.Claim.zeroJ (w : BitVec 56) : Bool := bits w 51 47 == 0 && bits w 41 32 == 0

/-- The loops that a taken branch to an offset leaves active: those whose body holds the offset, and lie in no body that does not (R66). -/
def Sys2Proof.Claim.loopsAfter (target : Nat) : List Loop → List Loop
  | [] => []
  | [l] => if l.start ≤ target ∧ target < l.stop then [l] else []
  | i :: o :: r =>
    if ¬ (o.start ≤ target ∧ target < o.stop) then r
    else if i.start ≤ target ∧ target < i.stop then i :: o :: r else o :: r

/-- A taken branch: issue goes on at the target, loops that do not hold it end, nothing else changes (R65, R66). -/
def Sys2Proof.Claim.branches (c : Instr) (t target : Nat) (s : State) : Prop :=
  Claim.completes c s (fun s' =>
    (tileOf s' t).pc = target ∧ (tileOf s' t).loops = Claim.loopsAfter target (tileOf s t).loops ∧ (tileOf s' t).sn = (tileOf s t).sn + 1 ∧
    Claim.besideIssue (tileOf s t) (tileOf s' t) ∧ Claim.elsewhere t s s')

/-- A LOOP of n = imm + 1 words and count c whose body ends inside no two-word instruction (R66): above 65,535 it faults with RESERVED_FIELD; a count of 0 skips the
body, also where both levels are active (the model's choice, log 84); with both levels active it faults with LOOP_DEPTH; else its level's counter is c − 1 and
issue enters the body. -/
def Sys2Proof.Claim.loops (t : Nat) (w : BitVec 56) (c : Nat) (s : State) : Prop :=
  if 65535 < c then Claim.faults (.loop t w) t { code := 0x02 } s
  else if c = 0 then Claim.leaves (.loop t w) t (2 + bits w 7 0) (tileOf s t) s
  else if 2 ≤ (tileOf s t).loops.length then Claim.faults (.loop t w) t { code := 0x09 } s
  else Claim.completes (.loop t w) s (fun s' =>
    Claim.advanced 1 { tileOf s t with loops := ⟨(tileOf s t).pc + 8, (tileOf s t).pc + 8 + 8 * (bits w 7 0 + 1), c - 1⟩ :: (tileOf s t).loops } (tileOf s' t) ∧
    Claim.besideIssue (tileOf s t) (tileOf s' t) ∧ Claim.elsewhere t s s')

/-- NOP moves issue on; BR and JR move it to their target, ending the loops that do not hold it (R65, R66); LOOP enters its body, skips it or
faults (R66), and one whose body ends inside a two-word instruction faults with RESERVED_FIELD; MFS reads each special register of the table (R48, R327). -/
def Sys2Proof.Claim.ControlFlow : Prop :=
  (∀ (t : Nat) (w : BitVec 56) (s : State), Claim.canIssue s t w 1 [] [] = true → Claim.zeroJ w = true → Claim.leaves (.nop t w) t 1 (tileOf s t) s) ∧
  (∀ (t : Nat) (w : BitVec 56) (s : State), Claim.canIssue s t w 1 [] [] = true → Claim.zeroJ w = true →
    Claim.branches (.br t w) t (w64 (tileOf s t).pc + sext32 (fImm w) * 8#64).toNat s) ∧
  (∀ (t : Nat) (w : BitVec 56) (s : State), Claim.canIssue s t w 1 [fSa w] [] = true → Claim.zeroJ w = true →
    Claim.branches (.jr t w) t ((tileOf s t).sr (fSa w)).toNat s) ∧
  (∀ (t c : Nat) (w : BitVec 56) (s : State), Claim.canIssue s t w 1 [fSa w] [] = true → Claim.zeroJ w = true → bits w 31 8 = 0 →
    (tileOf s t).endsInside (bits w 7 0 + 1) ((tileOf s t).pc + 8) = false → c = ((tileOf s t).sr (fSa w)).toNat → Claim.loops t w c s) ∧
  (∀ (t : Nat) (w : BitVec 56) (s : State), Claim.canIssue s t w 1 [fSa w] [] = true → Claim.zeroJ w = true → bits w 31 8 = 0 →
    (tileOf s t).endsInside (bits w 7 0 + 1) ((tileOf s t).pc + 8) = true → Claim.faults (.loop t w) t { code := 0x02 } s) ∧
  (∀ (t : Nat) (w : BitVec 56) (r : Run) (s : State), Claim.canIssue s t w 1 [fSd w] [] = true → bits w 35 32 = 0 → (fIm w = true → fSb w = 0) →
    r = (tileOf s t).run.getD (Run.mk [] t 0 false) →
    (bits w 5 0 = 0 → Claim.setsScalar (.mfs t w) t (fSd w) (w64 r.home) s) ∧
    (bits w 5 0 = 1 → Claim.setsScalar (.mfs t w) t (fSd w) (w64 t) s) ∧
    (bits w 5 0 = 2 → Claim.setsScalar (.mfs t w) t (fSd w) (w64 (SMap.get 0 s.ep.cyc (dieOfTile t))) s) ∧
    (bits w 5 0 = 3 → Claim.setsScalar (.mfs t w) t (fSd w) (dieEpoch s (dieOfTile t)) s) ∧
    (bits w 5 0 = 4 → Claim.setsScalar (.mfs t w) t (fSd w) (w64 (dGroup r.words)) s) ∧
    (bits w 5 0 = 5 → Claim.setsScalar (.mfs t w) t (fSd w) (w64 (dAffinity r.words)) s) ∧
    (bits w 5 0 = 6 → Claim.setsScalar (.mfs t w) t (fSd w) (w64 (b2n (isHeat s t))) s) ∧
    (bits w 5 0 = 16 → Claim.setsScalar (.mfs t w) t (fSd w) (w64 ((tileOf s t).lc false)) s) ∧
    (bits w 5 0 = 17 → Claim.setsScalar (.mfs t w) t (fSd w) (w64 ((tileOf s t).lc true)) s) ∧
    ((bits w 5 0 < 7 ∨ bits w 5 0 = 16 ∨ bits w 5 0 = 17) ∨ Claim.faults (.mfs t w) t { code := 0x02 } s))

/-- A word that spells no instruction faults with ILLEGAL_OPCODE at its PC, whatever its guard: one whose opcode the map does not hold, and one of a two-word
instruction whose second word does not carry 0xFF; a word that the map does hold is no such event (R56, R60). FAULT stops the sequencer with SOFTWARE and its code at
its PC (R67, R86). -/
def Sys2Proof.Claim.FaultingInstructions : Prop :=
  (∀ (t : Nat) (w0 w1 : Word) (s : State), Claim.canFetch s t 1 = true → definedOps.contains (bits w0 63 56) = false → Claim.faults (.illegalOpcode t w0 w1) t { code := 0x01 } s) ∧
  (∀ (t : Nat) (w0 w1 : Word) (s : State), Claim.canFetch s t 2 = true → isTwoWord (bits w0 63 56) = true → bits w1 63 56 ≠ 0xFF →
    Claim.faults (.illegalOpcode t w0 w1) t { code := 0x01 } s) ∧
  (∀ (t : Nat) (w0 w1 : Word) (s : State), definedOps.contains (bits w0 63 56) = true → isTwoWord (bits w0 63 56) = false ∨ bits w1 63 56 = 0xFF →
    exec (.illegalOpcode t w0 w1) s = .next s) ∧
  (∀ (t : Nat) (w : BitVec 56) (s : State), Claim.canIssue s t w 1 [] [] = true → Claim.zeroJ w = true → bits w 31 16 = 0 →
    Claim.faults (.swFault t w) t { code := 0x0D, sw := bits w 15 0 } s)

/-- The descriptor that a tile runs. -/
def Sys2Proof.Claim.runOf (s : State) (t : Nat) : Run := (tileOf s t).run.getD (Run.mk [] t 0 false)

/-- END issues last: nothing issues behind it, also inside a loop body (R54, R67). When everything of the descriptor has completed its sequencer is idle; a member of a
commit group is counted as completed, and the last expected one, with none failed, moves an open group to committing (R54, R213). A regional or free descriptor
that leaves a group of its own open faults with OPEN_GROUP instead (R55). -/
def Sys2Proof.Claim.DescriptorEnds : Prop :=
  (∀ (t : Nat) (w : BitVec 56) (s : State), Claim.canIssue s t w 1 [] [] = true → Claim.zeroJ w = true →
    Claim.completes (.endProg t w) s (fun s' =>
      (tileOf s' t).seq = .ending ∧ Claim.besideIssue { tileOf s t with seq := .ending } (tileOf s' t) ∧ Claim.elsewhere t s s')) ∧
  (∀ (t : Nat) (s : State), running s = true → (tileOf s t).seq = .ending → (tileOf s t).drained = true →
    (dAffinity (Claim.runOf s t).words = 0 ∨ (tileOf s t).groups.any (fun g => g.owner == (tileOf s t).runNo) = false) → dGroup (Claim.runOf s t).words = 0xFFFF →
    Claim.completes (.endRetirement t) s (fun s' =>
      tileOf s' t = { tileOf s t with seq := .idle, run := none, loops := [] } ∧ (∀ u, u ≠ t → tileOf s' u = tileOf s u) ∧ s' = { s with tiles := s'.tiles })) ∧
  (∀ (t g : Nat) (s : State), running s = true → (tileOf s t).seq = .ending → (tileOf s t).drained = true →
    (dAffinity (Claim.runOf s t).words = 0 ∨ (tileOf s t).groups.any (fun g => g.owner == (tileOf s t).runNo) = false) → dGroup (Claim.runOf s t).words ≠ 0xFFFF →
    g = dGroup (Claim.runOf s t).words % 16 → cgState s g = 0 → cgCompleted s g < 511 →
    Claim.completes (.endRetirement t) s (fun s' =>
      tileOf s' t = { tileOf s t with seq := .idle, run := none, loops := [] } ∧ (∀ u, u ≠ t → tileOf s' u = tileOf s u) ∧
      cgCompleted s' g = cgCompleted s g + 1 ∧ cgFailed s' g = cgFailed s g ∧ cgDispatched s' g = cgDispatched s g ∧
      cgState s' g = (if cgCompleted s g + 1 = cgExpected s g ∧ cgFailed s g = 0 then 1 else 0) ∧
      cgOf s' g = { cgOf s g with running := (cgOf s g).running.erase t } ∧ s' = { s with tiles := s'.tiles, regs := s'.regs, groups := s'.groups } ∧
      (∀ r : Reg, r.off ≠ (reg .CG_COUNT g).off → r.off ≠ (reg .CG_STATE g).off → r.off ≠ (reg .CG_EPOCH g).off → rget s' r = rget s r))) ∧
  (∀ (t g : Nat) (s : State), running s = true → (tileOf s t).seq = .ending → (tileOf s t).drained = true →
    (dAffinity (Claim.runOf s t).words = 0 ∨ (tileOf s t).groups.any (fun g => g.owner == (tileOf s t).runNo) = false) → dGroup (Claim.runOf s t).words ≠ 0xFFFF →
    g = dGroup (Claim.runOf s t).words % 16 → cgState s g ≠ 0 → cgCompleted s g < 511 →
    Claim.completes (.endRetirement t) s (fun s' =>
      tileOf s' t = { tileOf s t with seq := .idle, run := none, loops := [] } ∧ (∀ u, u ≠ t → tileOf s' u = tileOf s u) ∧
      cgCompleted s' g = cgCompleted s g + 1 ∧ cgState s' g = cgState s g ∧ (cgOf s' g).running = (cgOf s g).running.erase t ∧ s'.stk = s.stk)) ∧
  (∀ (t : Nat) (s : State), running s = true → (tileOf s t).seq = .ending → (tileOf s t).drained = true → dAffinity (Claim.runOf s t).words ≠ 0 →
    (tileOf s t).groups.any (fun g => g.owner == (tileOf s t).runNo) = true → Claim.faults (.endRetirement t) t { code := 0x0C } s) ∧
  (∀ (t : Nat) (s : State), (tileOf s t).drained = false → exec (.endRetirement t) s = .next s)

/-- When the instructions of a faulted descriptor that had begun have completed, its open groups are discarded, the fault stands in TILE_SEQ_FAULT with its code and
PC, the software code of a FAULT beside it (0 for any other code, the model's choice, log 81), its address in TILE_SEQ_FAULT_ADDR where the code names one, the
count of failed descriptors grows, the failure record stands in ERRLOG, and the sequencer is idle; a member of a commit group counts as failed and aborts an open
group with cause 1 (R86, R87, R209, R216, R411). -/
def Sys2Proof.Claim.DescriptorFails : Prop :=
  (∀ (t : Nat) (f : FaultInfo) (s : State), (tileOf s t).seq = .faulted f → (tileOf s t).drained = true →
    Claim.completes (.descriptorFailure t) s (fun s' =>
      (tileOf s' t).seq = .idle ∧ (tileOf s' t).run = none ∧ (tileOf s' t).groups = (tileOf s t).groups.filter (fun g => g.owner != (tileOf s t).runNo) ∧
      tileOf s' t = { tileOf s t with seq := .idle, run := none, loops := [], groups := (tileOf s' t).groups, poison := (tileOf s' t).poison } ∧
      (∀ u, u ≠ t → tileOf s' u = tileOf s u) ∧
      rget s' (reg .TILE_SEQ_FAULT t) = w64 (f.code % 256 + f.pc % 2 ^ 18 * 2 ^ 8 + (if f.code = 0x0D then f.sw % 65536 * 2 ^ 32 else 0) + 2 ^ 63) ∧
      rget s' (reg .TILE_SEQ_FAULT_ADDR t) = (if f.code = 4 ∨ f.code = 5 ∨ f.code = 6 then w64 (f.addr % 2 ^ 48) else rget s (reg .TILE_SEQ_FAULT_ADDR t)) ∧
      rbits s' (reg .TILE_SEQ_FAULTS t) 47 0 = (rbits s (reg .TILE_SEQ_FAULTS t) 47 0 + 1) % 2 ^ 48 ∧
      SMap.get [] s'.rec_.log (rbits s (reg .ERR_HEAD) 17 0) =
        [w64 (0x0E01 + 2 * 2 ^ 16 + dieOfTile t * 2 ^ 24 + t * 2 ^ 32), coxEpoch s, w64 (f.code % 256 + f.pc % 2 ^ 18 * 2 ^ 8),
         w64 ((Claim.runOf s t).home % 2048 + t % 2048 * 2 ^ 16 + (Claim.runOf s t).ring % 8 * 2 ^ 32), nth 0#64 (Claim.runOf s t).words 0,
         nth 0#64 (Claim.runOf s t).words 1, if f.code = 4 ∨ f.code = 5 ∨ f.code = 6 then w64 (f.addr % 2 ^ 48) else 0#64, 0#64] ∧ s'.stk = s.stk)) ∧
  (∀ (t : Nat) (f : FaultInfo) (s : State), (tileOf s t).seq = .faulted f → (tileOf s t).drained = true → dGroup (Claim.runOf s t).words = 0xFFFF →
    Claim.completes (.descriptorFailure t) s (fun s' =>
      s'.groups = s.groups ∧ s' = { s with tiles := s'.tiles, regs := s'.regs, rec_ := s'.rec_, cox := { s.cox with async := s'.cox.async } })) ∧
  (∀ (t g : Nat) (f : FaultInfo) (s : State), (tileOf s t).seq = .faulted f → (tileOf s t).drained = true → dGroup (Claim.runOf s t).words ≠ 0xFFFF →
    g = dGroup (Claim.runOf s t).words % 16 → cgGen s g = dGroup (Claim.runOf s t).words / 16 → cgState s g = 0 → cgFailed s g < 511 →
    Claim.completes (.descriptorFailure t) s (fun s' =>
      cgState s' g = 3 ∧ bits (rget s' (reg .CG_STATE g)) 51 48 = 1 ∧ cgFailed s' g = cgFailed s g + 1 ∧ (cgOf s' g).pages = [] ∧
      (cgOf s' g).running = (cgOf s g).running.erase t)) ∧
  (∀ (t : Nat) (s : State), (tileOf s t).drained = false → exec (.descriptorFailure t) s = .next s)

/-- Floating-point results of the scalar instructions, with the corners of their number format. -/
def Obligations.FloatResults : Prop := Claim.FloatArithmetic ∧ Claim.FloatCorners

/-- Branches, loops and how descriptors end: instructions that fault by their rule, faults that fail the descriptor, END and its retirement. -/
def Obligations.ControlResults : Prop := Claim.ControlFlow ∧ Claim.FaultingInstructions ∧ Claim.DescriptorEnds ∧ Claim.DescriptorFails

/-! ### Loads, stores and block moves (R68 to R72) -/

/-- Stack memory as its cells hold it, and the window memory of every tile. -/
def Sys2Proof.Claim.sameMemory (s s' : State) : Prop := (∀ u, (tileOf s' u).mem = (tileOf s u).mem) ∧ s'.stk.mem = s.stk.mem

/-- LDS of its own window or of the device's space, aligned and allowed: the bytes read at issue are on their way to the register, and no byte of memory changes
(R68, R70), but a stack line that comes uncorrectable or in error (R231). A misaligned address faults with MISALIGNED, a range that the address space does not hold with its fault; a stack at its critical step and a tile in
MAP_HOLD make it wait (R30, R241). -/
def Sys2Proof.Claim.LoadIssues : Prop :=
  (∀ (t a n : Nat) (w : BitVec 56) (s : State), Claim.canIssue s t w 1 [lSt w] [] = true → bits w 38 32 = 0 → a = lAddr (tileOf s t) w → n = lSize w → lSp w = false →
    a % n = 0 → a < winTop → tileState s t ≠ 2 →
    Claim.leaves (.lds t w) t 1 { tileOf s t with loads := (tileOf s t).loads ++
      [⟨⟨(tileOf s t).sn, (tileOf s t).pc, none⟩, lSt w, extend n (lSx w) (rawBytes ((tileOf s t).read a n)), anyPoison ((tileOf s t).read a n)⟩] } s) ∧
  (∀ (t a n i o : Nat) (w : BitVec 56) (s : State), Claim.canIssue s t w 1 [lSt w] [] = true → bits w 38 32 = 0 → a = lAddr (tileOf s t) w → n = lSize w → lSp w = true →
    a % n = 0 → rangeFault s t true a n false = none → accessWaits s t true a n = false → resolve s t true a = .ok (.win i o) →
    Claim.completes (.lds t w) s (fun s' =>
      (∃ p : Bool, (tileOf s' t).loads = (tileOf s t).loads ++
        [⟨⟨(tileOf s t).sn, (tileOf s t).pc, none⟩, lSt w, extend n (lSx w) (rawBytes ((tileOf s i).read o n)), p⟩] ∧
        (s.flitErr = [] → p = anyPoison ((tileOf s i).read o n))) ∧
      Claim.still (tileOf s' t) = Claim.still { tileOf s t with loads := (tileOf s' t).loads } ∧ Claim.advanced 1 (tileOf s t) (tileOf s' t) ∧
      Claim.sameMemory s s' ∧ s'.stk = s.stk)) ∧
  (∀ (t a n b : Nat) (w : BitVec 56) (s : State), Claim.canIssue s t w 1 [lSt w] [] = true → bits w 38 32 = 0 → a = lAddr (tileOf s t) w → n = lSize w → lSp w = true →
    a % n = 0 → rangeFault s t true a n false = none → accessWaits s t true a n = false → resolve s t true a = .ok (.stk b) →
    Claim.completes (.lds t w) s (fun s' =>
      (∃ p : Bool, (tileOf s' t).loads = (tileOf s t).loads ++
        [⟨⟨(tileOf s t).sn, (tileOf s t).pc, none⟩, lSt w, extend n (lSx w) (rawBytes (stkPeek s' b n)), p⟩]) ∧
      Claim.still (tileOf s' t) = Claim.still { tileOf s t with loads := (tileOf s' t).loads } ∧ Claim.advanced 1 (tileOf s t) (tileOf s' t) ∧
      (∀ u, u ≠ t → tileOf s' u = tileOf s u) ∧ (tileOf s' t).mem = (tileOf s t).mem ∧ (s.stk.flips = [] → s'.stk.mem = s.stk.mem))) ∧
  (∀ (t a n : Nat) (w : BitVec 56) (s : State), Claim.canIssue s t w 1 [lSt w] [] = true → bits w 38 32 = 0 → a = lAddr (tileOf s t) w → n = lSize w →
    a % n ≠ 0 → Claim.faults (.lds t w) t { code := 0x04, addr := a } s) ∧
  (∀ (t a n c b : Nat) (w : BitVec 56) (s : State), Claim.canIssue s t w 1 [lSt w] [] = true → bits w 38 32 = 0 → a = lAddr (tileOf s t) w → n = lSize w →
    a % n = 0 → rangeFault s t (lSp w) a n false = some (c, b) →
    Claim.completes (.lds t w) s (fun s' =>
      (tileOf s' t).seq = .faulted { code := c, pc := (tileOf s t).pc, addr := b } ∧ (tileOf s' t).loads = (tileOf s t).loads ∧ (tileOf s' t).s = (tileOf s t).s ∧
      (∀ u, u ≠ t → tileOf s' u = tileOf s u) ∧ Claim.sameMemory s s' ∧ s'.stk = s.stk)) ∧
  (∀ (t a n : Nat) (w : BitVec 56) (s : State), Claim.canIssue s t w 1 [lSt w] [] = true → bits w 38 32 = 0 → a = lAddr (tileOf s t) w → n = lSize w →
    a % n = 0 → rangeFault s t (lSp w) a n false = none → accessWaits s t (lSp w) a n = true → exec (.lds t w) s = .next s)

/-- The oldest load writes its register when its data arrives; a poisoned one leaves it and faults with POISON at its own PC (R70, R86). -/
def Sys2Proof.Claim.LoadArrives : Prop :=
  (∀ (t : Nat) (l : Load) (ls : List Load) (s : State), (tileOf s t).loads = l :: ls → l.poisoned = false →
    Claim.completes (.ldsDataArrival t) s (fun s' =>
      tileOf s' t = { tileOf s t with loads := ls, s := ((tileOf s t).setS l.st l.v).s } ∧ (∀ u, u ≠ t → tileOf s' u = tileOf s u) ∧ s' = { s with tiles := s'.tiles })) ∧
  (∀ (t : Nat) (l : Load) (ls : List Load) (s : State), (tileOf s t).loads = l :: ls → l.poisoned = true → (tileOf s t).seq = .running →
    Claim.completes (.ldsDataArrival t) s (fun s' =>
      (tileOf s' t).seq = .faulted { code := 0x07, pc := l.hdr.pc } ∧ (tileOf s' t).loads = ls ∧ (tileOf s' t).s = (tileOf s t).s ∧
      (∀ u, u ≠ t → tileOf s' u = tileOf s u) ∧ Claim.sameMemory s s' ∧ s' = { s with tiles := s'.tiles, regs := s'.regs }))

/-- An aligned STS into the tile's own window, where the window's rules and the code region allow it: the low bytes of s[st] stand at the effective address, every other byte of
the window and all of stack memory stay; one into the device's space, where no stack symbol is in error, writes what the tile write of the same bytes writes, and nothing else of memory
(R68 to R70). A misaligned address and a refused range fault, and nothing is written; a stack at its critical step and a tile in MAP_HOLD make it wait. -/
def Sys2Proof.Claim.StoreWrites : Prop :=
  (∀ (t a n : Nat) (w : BitVec 56) (s : State), Claim.canIssue s t w 1 [lSt w] [] = true → bits w 38 32 = 0 → lSx w = false → lSp w = false →
    a = lAddr (tileOf s t) w → n = lSize w → a % n = 0 → rangeFault s t false a n true = none → tileState s t ≠ 2 →
    Claim.completes (.sts t w) s (fun s' =>
      (∀ i, i < n → (tileOf s' t).byte (a + i) = nth 0#8 (leBytes 8 ((tileOf s t).sr (lSt w)).toNat) i) ∧
      (∀ b, (b < a ∨ a + n ≤ b) → (tileOf s' t).byte b = (tileOf s t).byte b) ∧
      Claim.still (tileOf s' t) = Claim.still { tileOf s t with mem := (tileOf s' t).mem, summary := (tileOf s' t).summary, stores := (tileOf s t).stores ++
        [⟨(tileOf s t).sn, (tileOf s t).pc, none⟩] } ∧
      Claim.advanced 1 (tileOf s t) (tileOf s' t) ∧ (∀ u, u ≠ t → tileOf s' u = tileOf s u) ∧ s'.stk = s.stk)) ∧
  (∀ (t a n : Nat) (w : BitVec 56) (s : State), Claim.canIssue s t w 1 [lSt w] [] = true → bits w 38 32 = 0 → lSx w = false → lSp w = true →
    a = lAddr (tileOf s t) w → n = lSize w → a % n = 0 → rangeFault s t true a n true = none → accessWaits s t true a n = false → s.stk.flips = [] →
    Claim.completes (.sts t w) s (fun s' =>
      s'.stk.mem = (tileWrite t true a (cleanBytes (leBytes n ((tileOf s t).sr (lSt w)).toNat)) s).stk.mem ∧
      (∀ u, (tileOf s' u).mem = (tileOf (tileWrite t true a (cleanBytes (leBytes n ((tileOf s t).sr (lSt w)).toNat)) s) u).mem) ∧
      (tileOf s' t).stores = (tileOf s t).stores ++ [⟨(tileOf s t).sn, (tileOf s t).pc, none⟩] ∧ (tileOf s' t).s = (tileOf s t).s ∧ (tileOf s' t).a = (tileOf s t).a ∧
      (tileOf s' t).p = (tileOf s t).p ∧ (tileOf s' t).k = (tileOf s t).k ∧ (tileOf s' t).seq = .running ∧ Claim.advanced 1 (tileOf s t) (tileOf s' t))) ∧
  (∀ (t a n : Nat) (w : BitVec 56) (s : State), Claim.canIssue s t w 1 [lSt w] [] = true → bits w 38 32 = 0 → lSx w = false → a = lAddr (tileOf s t) w → n = lSize w →
    a % n ≠ 0 → Claim.faults (.sts t w) t { code := 0x04, addr := a } s) ∧
  (∀ (t a n c b : Nat) (w : BitVec 56) (s : State), Claim.canIssue s t w 1 [lSt w] [] = true → bits w 38 32 = 0 → lSx w = false → a = lAddr (tileOf s t) w → n = lSize w →
    a % n = 0 → rangeFault s t (lSp w) a n true = some (c, b) →
    Claim.completes (.sts t w) s (fun s' =>
      (tileOf s' t).seq = .faulted { code := c, pc := (tileOf s t).pc, addr := b } ∧ (tileOf s' t).stores = (tileOf s t).stores ∧ (tileOf s' t).s = (tileOf s t).s ∧
      (∀ u, u ≠ t → tileOf s' u = tileOf s u) ∧ Claim.sameMemory s s' ∧ s'.stk = s.stk)) ∧
  (∀ (t a n : Nat) (w : BitVec 56) (s : State), Claim.canIssue s t w 1 [lSt w] [] = true → bits w 38 32 = 0 → lSx w = false → a = lAddr (tileOf s t) w → n = lSize w →
    a % n = 0 → rangeFault s t (lSp w) a n true = none → accessWaits s t (lSp w) a n = true → exec (.sts t w) s = .next s)

/-- The move enters the move unit; nothing else of the device moves but issue. -/
def Sys2Proof.Claim.queuesMove (c : Instr) (t : Nat) (post : Option Nat) (k : MoveKind) (s : State) : Prop :=
  Claim.leaves c t 1 { tileOf s t with move := (tileOf s t).move ++ [⟨⟨(tileOf s t).sn, (tileOf s t).pc, post⟩, k⟩] } s

/-- COPY, COPY2D and FILL enter the move unit when it has room, with their addresses and lengths read at issue; no byte moves yet; with the unit full they wait
(R71, R81). A move of no bytes completes at issue and posts; a length, row count or stride outside the rules faults with RESERVED_FIELD, also where the length or row
count is 0 and another value of a COPY2D is no multiple of 8 (the model's choice, log 85). -/
def Sys2Proof.Claim.BlockMovesQueue : Prop :=
  (∀ (t n : Nat) (w : BitVec 56) (s : State), Claim.canIssue s t w 1 [mSl w] [] = true → bits w 29 20 = 0 → (if mSl w = 0 then mLen w ≠ 0 else mLen w = 0) →
    n = (if mSl w = 0 then mLen w else ((tileOf s t).sr (mSl w)).toNat) → 0 < n → n % 8 = 0 → n ≤ 0xFFFF8 → (tileOf s t).move.length < 8 →
    Claim.queuesMove (.copy t w) t (mPost w) (.block (mDsp w) ((tileOf s t).addr (mAd w)) (mSsp w) ((tileOf s t).addr (mAs w)) n 1 0 0 (mPri w)) s) ∧
  (∀ (t n rows ss ds : Nat) (w : BitVec 56) (s : State), Claim.canIssue s t w 1 [mSl w, mSl w + 1, mSl w + 2, mSl w + 3] [] = true →
    bits w 29 20 = 0 → mLen w = 0 → mSl w % 4 = 0 → mSl w ≠ 0 → n = ((tileOf s t).sr (mSl w)).toNat → rows = ((tileOf s t).sr (mSl w + 1)).toNat →
    ss = ((tileOf s t).sr (mSl w + 2)).toNat → ds = ((tileOf s t).sr (mSl w + 3)).toNat → n % 8 = 0 → rows % 8 = 0 → ss % 8 = 0 → ds % 8 = 0 →
    0 < n * rows → n * rows ≤ 0xFFFF8 → (tileOf s t).move.length < 8 →
    Claim.queuesMove (.copy2d t w) t (mPost w) (.block (mDsp w) ((tileOf s t).addr (mAd w)) (mSsp w) ((tileOf s t).addr (mAs w)) n rows ss ds (mPri w)) s) ∧
  (∀ (t : Nat) (w : BitVec 56) (s : State), Claim.canIssue s t w 1 [mSl w] [] = true → bits w 29 20 = 0 → mAs w = 0 → mSsp w = false → 0 < mLen w →
    mLen w % 8 = 0 → mLen w ≤ 0xFFFF8 → (tileOf s t).move.length < 8 →
    Claim.queuesMove (.fill t w) t (mPost w) (.fill (mDsp w) ((tileOf s t).addr (mAd w)) (mLen w) ((tileOf s t).sr (mSl w))) s) ∧
  (∀ (t : Nat) (w : BitVec 56) (s : State), Claim.canIssue s t w 1 [mSl w] [] = true → bits w 29 20 = 0 → mSl w ≠ 0 → mLen w = 0 → mPost w = none →
    ((tileOf s t).sr (mSl w)).toNat = 0 → Claim.leaves (.copy t w) t 1 (tileOf s t) s) ∧
  (∀ (t n rows ss ds : Nat) (w : BitVec 56) (s : State), Claim.canIssue s t w 1 [mSl w, mSl w + 1, mSl w + 2, mSl w + 3] [] = true →
    bits w 29 20 = 0 → mLen w = 0 → mSl w % 4 = 0 → mSl w ≠ 0 → n = ((tileOf s t).sr (mSl w)).toNat → rows = ((tileOf s t).sr (mSl w + 1)).toNat →
    ss = ((tileOf s t).sr (mSl w + 2)).toNat → ds = ((tileOf s t).sr (mSl w + 3)).toNat →
    n % 8 ≠ 0 ∨ rows % 8 ≠ 0 ∨ ss % 8 ≠ 0 ∨ ds % 8 ≠ 0 ∨ 0xFFFF8 < n * rows → Claim.faults (.copy2d t w) t { code := 0x02 } s) ∧
  (∀ (t : Nat) (w : BitVec 56) (s : State), Claim.canIssue s t w 1 [mSl w] [] = true → bits w 29 20 = 0 → mAs w = 0 → mSsp w = false → 0 < mLen w →
    mLen w % 8 = 0 → mLen w ≤ 0xFFFF8 → 8 ≤ (tileOf s t).move.length → exec (.fill t w) s = .next s)

/-- When the oldest FILL into the tile's own data store completes, every word of its range holds the pattern; when a COPY between two ranges of it that do not
overlap completes, the destination holds the source's bytes; every other byte stays, and the post falls due (R71, R74). A row that is not aligned faults in the unit and
writes nothing (R71, R86). An acknowledged store leaves the unit. -/
def Sys2Proof.Claim.BlockMovesComplete : Prop :=
  (∀ (t dst n sn pc : Nat) (pat : Word) (ms : List MoveOp) (s : State),
    (tileOf s t).move = ⟨⟨sn, pc, none⟩, .fill false dst n pat⟩ :: ms → dst % 8 = 0 → n % 8 = 0 → 0 < n → 0x80000 ≤ dst → dst + n ≤ 0xC0000 → tileState s t ≠ 2 →
    (0x80000 + (tileOf s t).codeLo + (tileOf s t).codeLen ≤ dst ∨ dst + n ≤ 0x80000 + (tileOf s t).codeLo) →
    Claim.completes (.blockMoveCompletion t false) s (fun s' =>
      (∀ i, i < n → (tileOf s' t).byte (dst + i) = nth 0#8 (leBytes 8 pat.toNat) (i % 8)) ∧
      (∀ b, (b < dst ∨ dst + n ≤ b) → (tileOf s' t).byte b = (tileOf s t).byte b) ∧
      tileOf s' t = { tileOf s t with move := ms, mem := (tileOf s' t).mem, poison := (tileOf s' t).poison, soft := (tileOf s' t).soft, summary := (tileOf s' t).summary } ∧
      (∀ u, u ≠ t → tileOf s' u = tileOf s u) ∧ s'.stk = s.stk)) ∧
  (∀ (t dst src n pri sn pc : Nat) (ms : List MoveOp) (s : State),
    (tileOf s t).move = ⟨⟨sn, pc, none⟩, .block false dst false src n 1 0 0 pri⟩ :: ms → dst % 8 = 0 → src % 8 = 0 → n % 8 = 0 → 0 < n → 0x80000 ≤ dst → dst + n ≤ 0xC0000 →
    src + n ≤ winTop → tileState s t ≠ 2 → (dst + n ≤ src ∨ src + n ≤ dst) →
    (0x80000 + (tileOf s t).codeLo + (tileOf s t).codeLen ≤ dst ∨ dst + n ≤ 0x80000 + (tileOf s t).codeLo) →
    Claim.completes (.blockMoveCompletion t false) s (fun s' =>
      (∀ i, i < n → (tileOf s' t).byte (dst + i) = (tileOf s t).byte (src + i)) ∧
      (∀ b, (b < dst ∨ dst + n ≤ b) → (tileOf s' t).byte b = (tileOf s t).byte b) ∧
      tileOf s' t = { tileOf s t with
        move := ms, mem := (tileOf s' t).mem, poison := (tileOf s' t).poison, soft := (tileOf s' t).soft, summary := (tileOf s' t).summary,
        samples := (tileOf s' t).samples } ∧ (∀ u, u ≠ t → tileOf s' u = tileOf s u) ∧ s'.stk = s.stk)) ∧
  (∀ (t dst src n pri sn pc : Nat) (dsp ssp : Bool) (ms : List MoveOp) (s : State),
    (tileOf s t).move = ⟨⟨sn, pc, none⟩, .block dsp dst ssp src n 1 0 0 pri⟩ :: ms → src < 2 ^ 48 → src % 8 ≠ 0 → (tileOf s t).seq = .running →
    Claim.completes (.blockMoveCompletion t false) s (fun s' =>
      (tileOf s' t).seq = .faulted { code := 0x04, pc := pc, addr := src } ∧ (tileOf s' t).s = (tileOf s t).s ∧ (∀ u, u ≠ t → tileOf s' u = tileOf s u) ∧
      Claim.sameMemory s s' ∧ s'.stk = s.stk)) ∧
  (∀ (t sn pc : Nat) (hs : List Hdr) (s : State), (tileOf s t).stores = ⟨sn, pc, none⟩ :: hs →
    Claim.completes (.blockMoveCompletion t true) s (fun s' =>
      tileOf s' t = { tileOf s t with stores := hs } ∧ (∀ u, u ≠ t → tileOf s' u = tileOf s u) ∧ s' = { s with tiles := s'.tiles }))

/-! ### Sync, atomics and pushes (R73 to R79) -/

/-- The one-word instructions of a tile, and those of two words (R56, R60). -/
def Sys2Proof.Claim.oneWord : List (Nat → BitVec 56 → Instr) :=
  [.nop, .endProg, .br, .jr, .loop, .swFault, .mfs, .add, .sub, .andd, .orr, .xorr, .shl, .shr, .sra, .mul,
   .minS, .maxS, .lih, .cmp, .plog, .fadd, .fmul, .fma, .fcvt, .aaddr, .mova, .lds, .sts, .copy, .copy2d, .fill,
   .vld, .vst, .vsplat, .vmovs, .vcmp, .vmlog, .vadd, .vsub, .vmul, .vfma, .vmax, .vmin, .vsel, .vfunc, .vrot, .vred,
   .vscan, .vcvt, .vrng, .vsample, .fence, .waitk, .postk, .waitw, .aadd, .aswap, .acas, .rdk, .dqpush, .dqlen, .cgabort, .cgstat]
def Sys2Proof.Claim.twoWord : List (Nat → BitVec 56 → Word → Instr) := [.mopen, .mma, .mma2, .mabort, .dclose, .dkeep, .lmma, .lclose]

/-- FENCE stalls issue until every instruction issued earlier by the descriptor has completed (R75): it waits where one has not, while it waits no instruction
of the tile issues, and it ends when all have. -/
def Obligations.FencesStall : Prop :=
  (∀ (t : Nat) (w : BitVec 56) (s : State), Claim.canIssue s t w 1 [] [] = true → bits w 51 0 = 0 →
    Claim.leaves (.fence t w) t 1 { tileOf s t with seq := if (tileOf s t).drained then .running else .waiting .fence } s) ∧
  (∀ (t : Nat) (s : State), running s = true → (tileOf s t).seq = .waiting .fence → (tileOf s t).drained = true →
    Claim.completes (.fenceRelease t) s (fun s' =>
      tileOf s' t = { tileOf s t with seq := .running } ∧ (∀ u, u ≠ t → tileOf s' u = tileOf s u) ∧ s' = { s with tiles := s'.tiles })) ∧
  (∀ (t : Nat) (s : State), (tileOf s t).drained = false → exec (.fenceRelease t) s = .next s) ∧
  (∀ (t : Nat) (w : BitVec 56) (w1 : Word) (s : State), (tileOf s t).seq = .waiting .fence →
    (∀ mk ∈ Claim.oneWord, exec (mk t w) s = .next s) ∧ (∀ mk ∈ Claim.twoWord, exec (mk t w w1) s = .next s))

/-- POSTK adds n and faults with COUNTER_OVERFLOW where the sum passes 65,535; WAITK waits for its counter to reach n and subtracts n; RDK reads (R73, R74).
With n = 0 POSTK and WAITK fault with RESERVED_FIELD (the model's choice, log 86). -/
def Sys2Proof.Claim.CounterInstructions : Prop :=
  (∀ (t k n : Nat) (w : BitVec 56) (s : State), Claim.canIssue s t w 1 [] [] = true → bits w 31 0 = 0 → k = bits w 51 48 → n = bits w 47 32 → 0 < n →
    (tileOf s t).kr k + n ≤ 65535 →
    Claim.completes (.postk t w) s (fun s' =>
      (tileOf s' t).kr k = (tileOf s t).kr k + n ∧ (∀ j, j ≠ k → (tileOf s' t).kr j = (tileOf s t).kr j) ∧
      Claim.besideIssue { tileOf s t with k := (tileOf s' t).k } (tileOf s' t) ∧ Claim.advanced 1 (tileOf s t) (tileOf s' t) ∧ Claim.elsewhere t s s')) ∧
  (∀ (t k n : Nat) (w : BitVec 56) (s : State), Claim.canIssue s t w 1 [] [] = true → bits w 31 0 = 0 → k = bits w 51 48 → n = bits w 47 32 → 0 < n →
    65535 < (tileOf s t).kr k + n → Claim.faults (.postk t w) t { code := 0x08 } s) ∧
  (∀ (t k n : Nat) (w : BitVec 56) (s : State), Claim.canIssue s t w 1 [] [] = true → bits w 31 0 = 0 → k = bits w 51 48 → n = bits w 47 32 → 0 < n →
    n ≤ (tileOf s t).kr k →
    Claim.completes (.waitk t w) s (fun s' =>
      (tileOf s' t).kr k = (tileOf s t).kr k - n ∧ (∀ j, j ≠ k → (tileOf s' t).kr j = (tileOf s t).kr j) ∧
      Claim.besideIssue { tileOf s t with k := (tileOf s' t).k } (tileOf s' t) ∧ Claim.advanced 1 (tileOf s t) (tileOf s' t) ∧ Claim.elsewhere t s s')) ∧
  (∀ (t k n : Nat) (w : BitVec 56) (s : State), Claim.canIssue s t w 1 [] [] = true → bits w 31 0 = 0 → k = bits w 51 48 → n = bits w 47 32 → 0 < n →
    (tileOf s t).kr k < n → Claim.leaves (.waitk t w) t 1 { tileOf s t with seq := .waiting (.counter k n) } s) ∧
  (∀ (t : Nat) (w : BitVec 56) (s : State), Claim.canFetch s t 1 = true → bits w 47 32 = 0 → Claim.faults (.waitk t w) t { code := 0x02 } s ∧ Claim.faults (.postk t w) t { code := 0x02 } s) ∧
  (∀ (t k n : Nat) (s : State), running s = true → (tileOf s t).seq = .waiting (.counter k n) → n ≤ (tileOf s t).kr k →
    Claim.completes (.waitkRelease t) s (fun s' =>
      (tileOf s' t).kr k = (tileOf s t).kr k - n ∧ (∀ j, j ≠ k → (tileOf s' t).kr j = (tileOf s t).kr j) ∧
      tileOf s' t = { tileOf s t with seq := .running, k := (tileOf s' t).k } ∧ (∀ u, u ≠ t → tileOf s' u = tileOf s u) ∧ s' = { s with tiles := s'.tiles })) ∧
  (∀ (t k n : Nat) (s : State), (tileOf s t).seq = .waiting (.counter k n) → (tileOf s t).kr k < n → exec (.waitkRelease t) s = .next s) ∧
  (∀ (t : Nat) (w : BitVec 56) (s : State), Claim.canIssue s t w 1 [fSd w] [] = true → bits w 42 0 = 0 →
    Claim.setsScalar (.rdk t w) t (fSd w) (w64 ((tileOf s t).kr (bits w 46 43))) s)

/-- WAITW on a word of the data store sets its predicate at once where the condition holds, and else waits; a poisoned word, a misaligned address and one outside the
data store fault; the wait ends with 1 when the condition holds after a write and with 0 at a timeout other than 0 (R73, R76). -/
def Sys2Proof.Claim.WordWaits : Prop :=
  (∀ (t a : Nat) (w : BitVec 56) (s : State), Claim.canIssue s t w 1 [bits w 40 36, bits w 35 31] [bits w 51 49] = true → bits w 30 0 = 0 →
    [0, 1, 6, 9].contains (bits w 48 45) = true → a = (tileOf s t).addr (bits w 44 41) → a % 8 = 0 → 0x80000 ≤ a → a < 0xC0000 → (tileOf s t).wordPoison a = false →
    intCond (bits w 48 45) ((tileOf s t).word a) ((tileOf s t).sr (bits w 40 36)) = true →
    Claim.setsPredicate (.waitw t w) t (bits w 51 49) true s) ∧
  (∀ (t a : Nat) (w : BitVec 56) (s : State), Claim.canIssue s t w 1 [bits w 40 36, bits w 35 31] [bits w 51 49] = true → bits w 30 0 = 0 →
    [0, 1, 6, 9].contains (bits w 48 45) = true → a = (tileOf s t).addr (bits w 44 41) → a % 8 = 0 → 0x80000 ≤ a → a < 0xC0000 → (tileOf s t).wordPoison a = false →
    intCond (bits w 48 45) ((tileOf s t).word a) ((tileOf s t).sr (bits w 40 36)) = false →
    Claim.leaves (.waitw t w) t 1 { tileOf s t with
      seq := .waiting (.word (bits w 51 49) (bits w 48 45) a ((tileOf s t).sr (bits w 40 36)) ((tileOf s t).sr (bits w 35 31)) (tileOf s t).pc) } s) ∧
  (∀ (t a : Nat) (w : BitVec 56) (s : State), Claim.canIssue s t w 1 [bits w 40 36, bits w 35 31] [bits w 51 49] = true → bits w 30 0 = 0 →
    [0, 1, 6, 9].contains (bits w 48 45) = true → a = (tileOf s t).addr (bits w 44 41) → a % 8 ≠ 0 → Claim.faults (.waitw t w) t { code := 0x04, addr := a } s) ∧
  (∀ (t a : Nat) (w : BitVec 56) (s : State), Claim.canIssue s t w 1 [bits w 40 36, bits w 35 31] [bits w 51 49] = true → bits w 30 0 = 0 →
    [0, 1, 6, 9].contains (bits w 48 45) = true → a = (tileOf s t).addr (bits w 44 41) → a % 8 = 0 → (a < 0x80000 ∨ 0xC0000 ≤ a) →
    Claim.faults (.waitw t w) t { code := 0x05, addr := a } s) ∧
  (∀ (t a : Nat) (w : BitVec 56) (s : State), Claim.canIssue s t w 1 [bits w 40 36, bits w 35 31] [bits w 51 49] = true → bits w 30 0 = 0 →
    [0, 1, 6, 9].contains (bits w 48 45) = true → a = (tileOf s t).addr (bits w 44 41) → a % 8 = 0 → 0x80000 ≤ a → a < 0xC0000 → (tileOf s t).wordPoison a = true →
    Claim.completes (.waitw t w) s (fun s' =>
      (tileOf s' t).seq = .faulted { code := 0x07, pc := (tileOf s t).pc } ∧ (tileOf s' t).p = (tileOf s t).p ∧ (∀ u, u ≠ t → tileOf s' u = tileOf s u) ∧ Claim.sameMemory s s')) ∧
  (∀ (t pd cc a pc : Nat) (v tmo : Word) (s : State), running s = true → (tileOf s t).seq = .waiting (.word pd cc a v tmo pc) →
    (tileOf s t).wordPoison a = false → intCond cc ((tileOf s t).word a) v = true →
    Claim.completes (.waitwSatisfied t) s (fun s' =>
      (tileOf s' t).pr pd = true ∧ tileOf s' t = { (tileOf s t).setP pd true with seq := .running } ∧ (∀ u, u ≠ t → tileOf s' u = tileOf s u) ∧ s' = { s with tiles := s'.tiles })) ∧
  (∀ (t pd cc a pc : Nat) (v tmo : Word) (s : State), (tileOf s t).seq = .waiting (.word pd cc a v tmo pc) → (tileOf s t).wordPoison a = false →
    intCond cc ((tileOf s t).word a) v = false → exec (.waitwSatisfied t) s = .next s) ∧
  (∀ (t pd cc a pc : Nat) (v tmo : Word) (s : State), running s = true → (tileOf s t).seq = .waiting (.word pd cc a v tmo pc) → tmo ≠ 0#64 →
    Claim.completes (.waitwTimeout t) s (fun s' =>
      (tileOf s' t).pr pd = (pd == 0) ∧ tileOf s' t = { (tileOf s t).setP pd false with seq := .running } ∧ (∀ u, u ≠ t → tileOf s' u = tileOf s u) ∧ s' = { s with tiles := s'.tiles }))

/-- An atomic on a word of a tile's data store, its own code region left out, enters the move unit; any other target faults with ADDRESS_RANGE, also a misaligned
one (R77). -/
def Sys2Proof.Claim.atomicQueues (mk : Nat → BitVec 56 → Instr) (op : Nat) : Prop :=
  ∀ (t i a o : Nat) (w : BitVec 56) (s : State),
    Claim.canIssue s t w 1 ([fSd w, bits w 42 38] ++ (if op = 2 then [bits w 37 33] else [])) [] = true → bits w 31 0 = 0 → (op ≠ 2 → bits w 37 33 = 0) →
    a = (tileOf s t).addr (bits w 46 43) → a % 8 = 0 → resolve s t (bit w 32) a = .ok (.win i o) → 0x80000 ≤ o → o < 0xC0000 → (i = t → (tileOf s t).inCode o = false) →
    (tileOf s t).move.length < 8 →
    Claim.queuesMove (mk t w) t none (.atomic op (fSd w) i o ((tileOf s t).sr (bits w 42 38)) ((tileOf s t).sr (bits w 37 33)) none) s

def Sys2Proof.Claim.atomicRefuses (mk : Nat → BitVec 56 → Instr) (op : Nat) : Prop :=
  ∀ (t a : Nat) (w : BitVec 56) (s : State),
    Claim.canIssue s t w 1 ([fSd w, bits w 42 38] ++ (if op = 2 then [bits w 37 33] else [])) [] = true → bits w 31 0 = 0 → (op ≠ 2 → bits w 37 33 = 0) →
    a = (tileOf s t).addr (bits w 46 43) → (a % 8 ≠ 0 ∨ bit w 32 = false ∧ (a < 0x80000 ∨ 0xC0000 ≤ a) ∨ bit w 32 = true ∧ a < stackTop ∧ stkPresent s a = true) →
    Claim.faults (mk t w) t { code := 0x05, addr := a } s

/-- AADD, ASWAP and ACAS queue; where no flit in error is met, the oldest acts on its word at the target, and no other byte of any memory changes; its old value is
written into s[sd] when it arrives; a poisoned word keeps its contents, and the instruction faults with POISON (R77). -/
def Sys2Proof.Claim.Atomics : Prop :=
  Claim.atomicQueues Instr.aadd 0 ∧ Claim.atomicQueues Instr.aswap 1 ∧ Claim.atomicQueues Instr.acas 2 ∧
  Claim.atomicRefuses Instr.aadd 0 ∧ Claim.atomicRefuses Instr.aswap 1 ∧ Claim.atomicRefuses Instr.acas 2 ∧
  (∀ (t op sd i o : Nat) (sv sc : Word) (h : Hdr) (ms : List MoveOp) (s : State),
    (tileOf s t).move = ⟨h, .atomic op sd i o sv sc none⟩ :: ms → tileState s i ≠ 4 → tileState s i ≠ 2 → (i = t ∨ s.flitErr = []) → (tileOf s i).wordPoison o = false →
    o % 8 = 0 → o + 8 ≤ 0xC0000 →
    Claim.completes (.atomicRequest t) s (fun s' =>
      (∀ j, j < 8 → (tileOf s' i).byte (o + j) = nth 0#8 (leBytes 8 ((if op = 0 then (tileOf s i).word o + sv else if op = 1 then sv
        else if (tileOf s i).word o = sc then sv else (tileOf s i).word o) : Word).toNat) j) ∧
      (∀ b, (b < o ∨ o + 8 ≤ b) → (tileOf s' i).byte b = (tileOf s i).byte b) ∧
      (tileOf s' t).move = ⟨h, .atomic op sd i o sv sc (some ((tileOf s i).word o, true))⟩ :: ms ∧ (∀ u, u ≠ i → (tileOf s' u).mem = (tileOf s u).mem) ∧
      (∀ u, u ≠ i → u ≠ t → tileOf s' u = tileOf s u) ∧ (∀ u, (tileOf s' u).s = (tileOf s u).s) ∧ s'.stk = s.stk)) ∧
  (∀ (t op sd i o : Nat) (sv sc : Word) (h : Hdr) (ms : List MoveOp) (s : State),
    (tileOf s t).move = ⟨h, .atomic op sd i o sv sc none⟩ :: ms → tileState s i ≠ 4 → tileState s i ≠ 2 → (tileOf s i).wordPoison o = true → (tileOf s t).seq = .running →
    Claim.completes (.atomicRequest t) s (fun s' =>
      (tileOf s' t).seq = .faulted { code := 0x07, pc := h.pc } ∧ (tileOf s' t).s = (tileOf s t).s ∧ Claim.sameMemory s s' ∧ s'.stk = s.stk)) ∧
  (∀ (t : Nat) (s : State) (op sd i o : Nat) (sv sc : Word) (h : Hdr) (ms : List MoveOp), (tileOf s t).move = ⟨h, .atomic op sd i o sv sc none⟩ :: ms → tileState s i = 2 →
    exec (.atomicRequest t) s = .next s) ∧
  (∀ (t op sd i o sn pc : Nat) (sv sc old : Word) (b : Bool) (ms : List MoveOp) (s : State),
    (tileOf s t).move = ⟨⟨sn, pc, none⟩, .atomic op sd i o sv sc (some (old, b))⟩ :: ms →
    Claim.completes (.atomicResultArrival t) s (fun s' =>
      (tileOf s' t).sr sd = (if sd = 0 then 0#64 else old) ∧ (∀ n, n ≠ sd → (tileOf s' t).sr n = (tileOf s t).sr n) ∧
      tileOf s' t = { tileOf s t with move := ms, s := (tileOf s' t).s } ∧ (∀ u, u ≠ t → tileOf s' u = tileOf s u) ∧ s' = { s with tiles := s'.tiles }))

/-- DQPUSH queues a push; a target tile above 1,151 faults with ADDRESS_RANGE, one across the heat slice's boundary with HEAT_CROSS, an entry that is not 64-byte
aligned with MISALIGNED and one outside the data store with ADDRESS_RANGE (the two last are the model's choice, log 88). The target deque takes the entry at its near
end, or refuses it when it is full or its tile drains; the answer is written to p[pd]; DQLEN reads the own deque's length (R78, R200, R202). -/
def Sys2Proof.Claim.DequePushes : Prop :=
  (∀ (t a i : Nat) (w : BitVec 56) (s : State), Claim.canIssue s t w 1 [bits w 44 40] [bits w 51 49] = true → bits w 39 0 = 0 →
    a = (tileOf s t).addr (bits w 48 45) → a % 64 = 0 → 0x80000 ≤ a → a < 0xC0000 → i = ((tileOf s t).sr (bits w 44 40)).toNat → i ≤ 1151 →
    tileState s i ≠ 4 → isHeat s t = isHeat s i → (tileOf s t).move.length < 8 →
    Claim.queuesMove (.dqpush t w) t none (.push (bits w 51 49) i a none) s) ∧
  (∀ (t a i : Nat) (w : BitVec 56) (s : State), Claim.canIssue s t w 1 [bits w 44 40] [bits w 51 49] = true → bits w 39 0 = 0 →
    a = (tileOf s t).addr (bits w 48 45) → i = ((tileOf s t).sr (bits w 44 40)).toNat →
    (a % 64 ≠ 0 → Claim.faults (.dqpush t w) t { code := 0x04, addr := a } s) ∧
    (a % 64 = 0 → (a < 0x80000 ∨ 0xC0000 ≤ a) → Claim.faults (.dqpush t w) t { code := 0x05, addr := a } s) ∧
    (a % 64 = 0 → 0x80000 ≤ a → a < 0xC0000 → 1151 < i → Claim.faults (.dqpush t w) t { code := 0x05, addr := i } s) ∧
    (a % 64 = 0 → 0x80000 ≤ a → a < 0xC0000 → i ≤ 1151 → tileState s i ≠ 4 → isHeat s t ≠ isHeat s i → Claim.faults (.dqpush t w) t { code := 0x0B } s)) ∧
  (∀ (t pd i o : Nat) (h : Hdr) (ms : List MoveOp) (s : State), (tileOf s t).move = ⟨h, .push pd i o none⟩ :: ms →
    anyPoison ((tileOf s t).read o 64) = false → tileState s i ≠ 2 → tileState s i ≠ 4 →
    dMalformed ((chunks 8 (rawBytes ((tileOf s t).read o 64))).map leWord) = false →
    Claim.completes (.push t) s (fun s' =>
      (if tileState s i ≠ 1 ∧ (tileOf s i).dq.length < 64 then
        (tileOf s' i).dq = (tileOf s i).dq ++ [⟨(chunks 8 (rawBytes ((tileOf s t).read o 64))).map leWord, (Claim.runOf s t).ring⟩] ∧
        (tileOf s' t).move = ⟨h, .push pd i o (some 1)⟩ :: ms
       else (tileOf s' i).dq = (tileOf s i).dq ∧ (tileOf s' t).move = ⟨h, .push pd i o (some 0)⟩ :: ms) ∧
      (∀ u, u ≠ i → (tileOf s' u).dq = (tileOf s u).dq) ∧ (∀ u, u ≠ i → u ≠ t → tileOf s' u = tileOf s u) ∧ Claim.sameMemory s s' ∧ s'.stk = s.stk)) ∧
  (∀ (t pd i o : Nat) (h : Hdr) (ms : List MoveOp) (s : State), (tileOf s t).move = ⟨h, .push pd i o none⟩ :: ms →
    anyPoison ((tileOf s t).read o 64) = false → tileState s i ≠ 2 → tileState s i ≠ 4 → (tileOf s t).seq = .running →
    dMalformed ((chunks 8 (rawBytes ((tileOf s t).read o 64))).map leWord) = true →
    Claim.completes (.push t) s (fun s' =>
      (tileOf s' t).seq = .faulted { code := 0x02, pc := h.pc } ∧ (tileOf s' i).dq = (tileOf s i).dq ∧ bit (rget s' (reg .TILE_DQ_ERR i)) 0 = true ∧ Claim.sameMemory s s')) ∧
  (∀ (t pd i o sn pc r : Nat) (ms : List MoveOp) (s : State), (tileOf s t).move = ⟨⟨sn, pc, none⟩, .push pd i o (some r)⟩ :: ms →
    Claim.completes (.dqpushAcknowledgement t) s (fun s' =>
      (tileOf s' t).pr pd = (pd == 0 || r == 1) ∧ (∀ n, n ≠ pd → (tileOf s' t).pr n = (tileOf s t).pr n) ∧
      tileOf s' t = { tileOf s t with move := ms, p := (tileOf s' t).p } ∧ (∀ u, u ≠ t → tileOf s' u = tileOf s u) ∧ s' = { s with tiles := s'.tiles })) ∧
  (∀ (t : Nat) (w : BitVec 56) (s : State), Claim.canIssue s t w 1 [fSd w] [] = true → bits w 46 0 = 0 →
    Claim.setsScalar (.dqlen t w) t (fSd w) (w64 (tileOf s t).dq.length) s)

/-- CGSTAT reads 0xFF without a group and else its state; CGABORT aborts the own open group with cause 2, leaves one that is not open, and faults with RESERVED_FIELD
without a group (R79, R216). -/
def Sys2Proof.Claim.OwnGroup : Prop :=
  (∀ (t : Nat) (w : BitVec 56) (s : State), Claim.canIssue s t w 1 [fSd w] [] = true → bits w 46 0 = 0 → groupIdOf (tileOf s t) = none →
    Claim.setsScalar (.cgstat t w) t (fSd w) 0xFF#64 s) ∧
  (∀ (t g : Nat) (w : BitVec 56) (s : State), Claim.canIssue s t w 1 [fSd w] [] = true → bits w 46 0 = 0 → groupIdOf (tileOf s t) = some g →
    Claim.setsScalar (.cgstat t w) t (fSd w) (w64 (if cgGen s (g % 16) = g / 16 then cgState s (g % 16) else 4)) s) ∧
  (∀ (t g : Nat) (w : BitVec 56) (s : State), Claim.canIssue s t w 1 [] [] = true → bits w 51 0 = 0 → groupIdOf (tileOf s t) = some g → cgStat s g = 0 →
    Claim.completes (.cgabort t w) s (fun s' =>
      cgState s' (g % 16) = 3 ∧ bits (rget s' (reg .CG_STATE (g % 16))) 51 48 = 2 ∧ (cgOf s' (g % 16)).pages = [] ∧ (cgOf s' (g % 16)).running = (cgOf s (g % 16)).running ∧
      (∀ h, h ≠ g % 16 → cgOf s' h = cgOf s h) ∧ Claim.besideIssue (tileOf s t) (tileOf s' t) ∧ Claim.advanced 1 (tileOf s t) (tileOf s' t) ∧
      (∀ u, u ≠ t → tileOf s' u = tileOf s u) ∧ s'.stk = s.stk ∧ s'.shadow = s.shadow)) ∧
  (∀ (t g : Nat) (w : BitVec 56) (s : State), Claim.canIssue s t w 1 [] [] = true → bits w 51 0 = 0 → groupIdOf (tileOf s t) = some g → cgStat s g ≠ 0 →
    Claim.leaves (.cgabort t w) t 1 (tileOf s t) s) ∧
  (∀ (t : Nat) (w : BitVec 56) (s : State), Claim.canIssue s t w 1 [] [] = true → bits w 51 0 = 0 → groupIdOf (tileOf s t) = none →
    Claim.faults (.cgabort t w) t { code := 0x02 } s)

/-! ### Dispatch and stealing (R47, R200 to R207) -/

/-- The sequencer of the tile starts on a descriptor: its words stand in s24 to s31, every other register and the loops are empty, its PC is the entry, the code region
is that of TILE_SEQ_CODE (R47, R50). -/
def Sys2Proof.Claim.starts (t home : Nat) (e : DqEntry) (stolen : Bool) (s s' : State) : Prop :=
  let x := tileOf s' t
  x.seq = .running ∧ x.pc = dEntry e.words ∧ x.run = some ⟨e.words, home, e.ring, stolen⟩ ∧ (∀ j, j < 8 → x.sr (24 + j) = nth 0#64 e.words j) ∧
  (∀ n, n < 24 → x.sr n = 0#64) ∧ (∀ n, x.ar n = 0#64) ∧ (∀ n, x.kr n = 0) ∧ (∀ n, n ≠ 0 → x.pr n = false) ∧ x.v = [] ∧ x.m = [] ∧ x.loops = [] ∧
  x.codeLo = bits (rget s (reg .TILE_SEQ_CODE t)) 5 0 * 4096 ∧ x.codeLen = (bits (rget s (reg .TILE_SEQ_CODE t)) 11 8 + 1) * 4096 ∧
  x.mem = (tileOf s t).mem ∧ x.groups = (tileOf s t).groups ∧ rbits s' (reg .TILE_SEQ_DISPATCHED t) 47 0 = (rbits s (reg .TILE_SEQ_DISPATCHED t) 47 0 + 1) % 2 ^ 48 ∧
  (∀ u, u ≠ t → tileOf s' u = tileOf s u) ∧ s'.stk = s.stk

/-- An idle tile that serves its deque takes the eligible entry nearest its near end (R47, R201, R202). A member of an open commit group is counted as dispatched as it
starts; a stale or excess one is discarded, the tile staying idle (R214). With nothing eligible nothing happens. -/
def Sys2Proof.Claim.DispatchStarts : Prop :=
  (∀ (t k : Nat) (e : DqEntry) (s : State), t < 1152 → running s = true → (tileOf s t).seq = .idle → tileState s t ≤ 1 → (tileOf s t).steal.answer = none →
    (tileOf s t).ownPick = some k → e = nth {words := []} (tileOf s t).dq k → dGroup e.words = 0xFFFF →
    Claim.completes (.dispatch t) s (fun s' => Claim.starts t t e false s s' ∧ (tileOf s' t).dq = dropNth (tileOf s t).dq k ∧ s'.groups = s.groups)) ∧
  (∀ (t k g : Nat) (e : DqEntry) (s : State), t < 1152 → running s = true → (tileOf s t).seq = .idle → tileState s t ≤ 1 → (tileOf s t).steal.answer = none →
    (tileOf s t).ownPick = some k → e = nth {words := []} (tileOf s t).dq k → dGroup e.words ≠ 0xFFFF → g = dGroup e.words % 16 → cgGen s g = dGroup e.words / 16 →
    cgState s g = 0 → cgDispatched s g < cgExpected s g →
    Claim.completes (.dispatch t) s (fun s' => Claim.starts t t e false s s' ∧ (tileOf s' t).dq = dropNth (tileOf s t).dq k ∧ cgDispatched s' g = cgDispatched s g + 1 ∧
      (cgOf s' g).running = (cgOf s g).running ++ [t])) ∧
  (∀ (t k g : Nat) (e : DqEntry) (s : State), t < 1152 → running s = true → (tileOf s t).seq = .idle → tileState s t ≤ 1 → (tileOf s t).steal.answer = none →
    (tileOf s t).ownPick = some k → e = nth {words := []} (tileOf s t).dq k → dGroup e.words ≠ 0xFFFF → g = dGroup e.words % 16 →
    (cgGen s g ≠ dGroup e.words / 16 ∨ cgState s g ≠ 0) →
    Claim.completes (.dispatch t) s (fun s' =>
      (tileOf s' t).seq = .idle ∧ (tileOf s' t).dq = dropNth (tileOf s t).dq k ∧ bit (rget s' (reg .TILE_DQ_ERR t)) 1 = true ∧
      rbits s' (reg .CG_COUNT g) 63 48 = min 0xFFFF (rbits s (reg .CG_COUNT g) 63 48 + 1) ∧ (∀ u, u ≠ t → tileOf s' u = tileOf s u) ∧ s'.groups = s.groups ∧ s'.stk = s.stk)) ∧
  (∀ (t : Nat) (s : State), (tileOf s t).ownPick = none → exec (.dispatch t) s = .next s)

/-- A tile that may steal starts a round; it probes its next victim, which hands over the far-end entry that it may, or none; the thief runs what it got, and after an
answer of none goes on or, with nobody left to probe, waits; the wait ends; a deque's summary follows its entries (R201, R203 to R207). -/
def Sys2Proof.Claim.StealingProceeds : Prop :=
  (∀ (t : Nat) (s : State), maySteal s t = true → (tileOf s t).steal.active = false → (tileOf s t).steal.waiting = false →
    Claim.completes (.stealRound t) s (fun s' =>
      tileOf s' t = { tileOf s t with steal := { (tileOf s t).steal with active := true, pos := 0, victim := none, answer := none } } ∧
      (∀ u, u ≠ t → tileOf s' u = tileOf s u) ∧ s' = { s with tiles := s'.tiles })) ∧
  (∀ (t pos v : Nat) (s : State), maySteal s t = true → (tileOf s t).steal.active = true → (tileOf s t).steal.answer = none →
    nextProbe s t 17 (tileOf s t).steal.pos = some (pos, v) → v ≠ t →
    Claim.completes (.stealProbe t) s (fun s' =>
      (tileOf s' t).steal = { (tileOf s t).steal with
        pos := pos + 1, victim := some v,
        answer := some (if stealPair s t v && summaryAdmits s t v then (tileOf s v).dq.find? (handsOver s t v) else none) } ∧
      tileOf s' t = { tileOf s t with steal := (tileOf s' t).steal } ∧
      (tileOf s' v).dq.length = (tileOf s v).dq.length - (if ((tileOf s' t).steal.answer.getD none).isSome then 1 else 0) ∧
      (tileOf s' v).mem = (tileOf s v).mem ∧ (tileOf s' v).seq = (tileOf s v).seq ∧ (∀ u, u ≠ t → u ≠ v → tileOf s' u = tileOf s u) ∧ s' = { s with tiles := s'.tiles, regs := s'.regs })) ∧
  (∀ (t : Nat) (s : State), maySteal s t = true → (tileOf s t).steal.active = true → (tileOf s t).steal.answer = none → nextProbe s t 17 (tileOf s t).steal.pos = none →
    Claim.completes (.stealProbe t) s (fun s' =>
      (tileOf s' t).steal.active = false ∧ (tileOf s' t).steal.waiting = true ∧
      (tileOf s' t).steal.wait = min (64 * 2 ^ min 10 (bits (rget s (reg .TILE_DQ_CFG t)) 11 8)) ((tileOf s t).steal.wait * 2) ∧
      tileOf s' t = { tileOf s t with steal := (tileOf s' t).steal } ∧ (∀ u, u ≠ t → tileOf s' u = tileOf s u) ∧ s' = { s with tiles := s'.tiles })) ∧
  (∀ (t v : Nat) (e : DqEntry) (s : State), t < 1152 → running s = true → tileState s t ≤ 1 → (tileOf s t).steal.answer = some (some e) → (tileOf s t).steal.victim = some v →
    dGroup e.words = 0xFFFF →
    Claim.completes (.stealAnswer t) s (fun s' => Claim.starts t v e true s s' ∧ (tileOf s' t).dq = (tileOf s t).dq ∧ s'.groups = s.groups ∧
      rbits s' (reg .TILE_STEALS t) 47 0 = (rbits s (reg .TILE_STEALS t) 47 0 + 1) % 2 ^ 48)) ∧
  (∀ (t : Nat) (s : State), t < 1152 → running s = true → tileState s t ≤ 1 → (tileOf s t).steal.answer = some none →
    Claim.completes (.stealAnswer t) s (fun s' =>
      (tileOf s' t).steal.answer = none ∧ (tileOf s' t).steal.waiting = (if (nextProbe s t 17 (tileOf s t).steal.pos).isSome then (tileOf s t).steal.waiting else true) ∧
      rbits s' (reg .TILE_STEAL_MISS t) 47 0 = (rbits s (reg .TILE_STEAL_MISS t) 47 0 + 1) % 2 ^ 48 ∧
      tileOf s' t = { tileOf s t with steal := (tileOf s' t).steal } ∧ (∀ u, u ≠ t → tileOf s' u = tileOf s u) ∧ s' = { s with tiles := s'.tiles, regs := s'.regs })) ∧
  (∀ (t : Nat) (s : State), (tileOf s t).steal.waiting = true →
    Claim.completes (.stealBackoffExpiry t) s (fun s' =>
      tileOf s' t = { tileOf s t with steal := { (tileOf s t).steal with waiting := false } } ∧ (∀ u, u ≠ t → tileOf s' u = tileOf s u) ∧ s' = { s with tiles := s'.tiles })) ∧
  (∀ (t : Nat) (s : State),
    Claim.completes (.dequeReevaluation t) s (fun s' =>
      (tileOf s' t).summary.1 = (tileOf s t).dq.any (fun e => (tileOf s t).eligible e && dAffinity e.words == 2) ∧
      (tileOf s' t).summary.2 = ((tileOf s t).dq.filter (fun e => (tileOf s t).eligible e && dAffinity e.words == 1)).foldl (fun m e => max m (dRadius e.words)) 0 ∧
      tileOf s' t = { tileOf s t with summary := (tileOf s' t).summary } ∧ (∀ u, u ≠ t → tileOf s' u = tileOf s u) ∧ s' = { s with tiles := s'.tiles }))

/-- Scalar loads and stores. -/
def Obligations.LoadsAndStores : Prop := Claim.LoadIssues ∧ Claim.LoadArrives ∧ Claim.StoreWrites

/-- Block moves, from issue to completion. -/
def Obligations.BlockMoves : Prop := Claim.BlockMovesQueue ∧ Claim.BlockMovesComplete

/-- Sync counters, waits on counters and on words. -/
def Obligations.WaitsAndCounters : Prop := Claim.CounterInstructions ∧ Claim.WordWaits

/-- Atomics and descriptor pushes, from issue to acknowledgement. -/
def Obligations.AtomicsAndPushes : Prop := Claim.Atomics ∧ Claim.DequePushes

/-- Commit-group instructions of a tile, dispatch and stealing. -/
def Obligations.DescriptorsStart : Prop := Claim.OwnGroup ∧ Claim.DispatchStarts ∧ Claim.StealingProceeds

/-! ### Matrix arrays, drains and the guard (R88 to R108, R132 to R135, R156, R161, R176 to R186, R398) -/

/-- No array operation waits in a queue of the tile. -/
def Sys2Proof.Claim.queuesEmpty (x : Tile) : Prop := x.qF = [] ∧ x.qGX = [] ∧ x.qGW = []

/-- A matrix or drain instruction is at fault: issue stops, and the fault stands in TILE_ARR_FAULT with its array and group (R86, R110, R111). -/
def Sys2Proof.Claim.arrayFaults (c : Instr) (t code arr g : Nat) (s : State) : Prop :=
  Claim.completes c s (fun s' =>
    (tileOf s' t).seq = .faulted { code := code, pc := (tileOf s t).pc, arr := arr, grp := g } ∧
    rget s' (reg .TILE_ARR_FAULT t) = w64 (code + arr * 2 ^ 8 + g * 2 ^ 10 + 2 ^ 63) ∧
    (tileOf s' t).mem = (tileOf s t).mem ∧ (tileOf s' t).groups = (tileOf s t).groups ∧ (tileOf s' t).s = (tileOf s t).s ∧ (tileOf s' t).a = (tileOf s t).a ∧
    (∀ u, u ≠ t → tileOf s' u = tileOf s u) ∧ s'.stk = s.stk)

/-- MOPEN opens its group, whose tiles are then to be initialised (R97, R98): to the start value of its mode, or from the preload's source. A preload format outside the listed ones faults with FORMAT, INT32 into a MAX or MIN group with GROUP_TYPE, tiles beyond 15 with GROUP_RANGE, an open group of its number with GROUP_STATE, tiles of
another open group of the array with GROUP_OVERLAP (R97, R110). The index plane of a preloaded MAX or MIN group is a free value (log 47). -/
def Sys2Proof.Claim.GroupsOpen : Prop :=
  (∀ (t : Nat) (w : BitVec 56) (w1 : Word) (s : State), Claim.canIssue s t w 2 [] [] = true → isSecond w1 = true → badOpen w w1 = false →
    bits w 39 38 ≠ 3 → (bit w 37 = true → [FP32, INT32, BF16].contains (bits w 31 28) = true ∧ (bits w 31 28 = INT32 → bits w 39 38 = 0)) →
    bits w 47 44 + bits w 43 40 + 1 ≤ 16 → Claim.queuesEmpty (tileOf s t) →
    (tileOf s t).groups.all (fun h => h.arr != xArr w || (h.g != xG w && (decide (bits w 47 44 + bits w 43 40 < h.first) || decide (h.first + h.cnt ≤ bits w 47 44)))) = true →
    Claim.completes (.mopen t w w1) s (fun s' =>
      (∃ k, (bit w 37 = false ∨ bits w 39 38 = 0 → k = none) ∧ (tileOf s' t).groups = (tileOf s t).groups ++
        [{ arr := xArr w, g := xG w, first := bits w 47 44, cnt := bits w 43 40 + 1, mode := bits w 39 38,
           gty := if bit w 37 then (if bits w 31 28 = INT32 then 2 else 1) else 0, owner := (tileOf s t).runNo, sn := (tileOf s t).sn, idxFree := k }]) ∧
      (tileOf s' t).inits = (tileOf s t).inits ++ [{
        hdr := ⟨(tileOf s t).sn, (tileOf s t).pc, xPost w⟩, arr := xArr w, g := xG w, first := bits w 47 44, cnt := bits w 43 40 + 1,
        mode := bits w 39 38, pre := bit w 37, ap := (tileOf s t).addr (bits w 35 32), fmt := bits w 31 28 }] ∧
      Claim.besideIssue { tileOf s t with groups := (tileOf s' t).groups, inits := (tileOf s' t).inits } (tileOf s' t) ∧ Claim.advanced 2 (tileOf s t) (tileOf s' t) ∧
      Claim.elsewhere t s s')) ∧
  (∀ (t : Nat) (w : BitVec 56) (w1 : Word) (s : State), t < 1152 → Claim.canIssue s t w 2 [] [] = true → isSecond w1 = true → badOpen w w1 = false → bits w 39 38 ≠ 3 →
    (bit w 37 = true → [FP32, INT32, BF16].contains (bits w 31 28) = false → Claim.arrayFaults (.mopen t w w1) t 0x25 (xArr w) (xG w) s) ∧
    (bit w 37 = true → bits w 31 28 = INT32 → bits w 39 38 ≠ 0 → Claim.arrayFaults (.mopen t w w1) t 0x24 (xArr w) (xG w) s) ∧
    (bit w 37 = false → 16 < bits w 47 44 + bits w 43 40 + 1 → Claim.arrayFaults (.mopen t w w1) t 0x21 (xArr w) (xG w) s)) ∧
  (∀ (t : Nat) (h : Group) (w : BitVec 56) (w1 : Word) (s : State), t < 1152 → Claim.canIssue s t w 2 [] [] = true → isSecond w1 = true → badOpen w w1 = false → bits w 39 38 ≠ 3 →
    bit w 37 = false → bits w 47 44 + bits w 43 40 + 1 ≤ 16 → Claim.queuesEmpty (tileOf s t) → h ∈ (tileOf s t).groups → h.arr = xArr w →
    (h.g = xG w → Claim.arrayFaults (.mopen t w w1) t 0x20 (xArr w) (xG w) s) ∧
    ((tileOf s t).group (xArr w) (xG w) = none → bits w 47 44 < h.first + h.cnt → h.first < bits w 47 44 + bits w 43 40 + 1 →
      Claim.arrayFaults (.mopen t w w1) t 0x22 (xArr w) (xG w) s))

/-- The initialisation of the oldest MOPEN of an array: a group without preload has the start value of its mode in every element of its tiles, 0, −∞ or +∞ in ADD, MAX
or MIN mode; one with preload has the element that the layout of drained tiles gives each, FP32 and INT32 as they stand and BF16 widened. No other byte of the window
changes (R98, R100, R103). -/
def Sys2Proof.Claim.GroupsAreInitialised : Prop :=
  (∀ (t arr : Nat) (i : Init) (s : State), running s = true → arr < 3 → (tileOf s t).inits = [i] → i.arr = arr → i.hdr.post = none → i.pre = false → i.loaded = 0 → 0 < i.cnt →
    i.first + i.cnt ≤ 16 → (tileOf s t).drains = [] → Claim.queuesEmpty (tileOf s t) →
    Claim.completes (.preloadCompletion t arr) s (fun s' =>
      (∀ k r j, k < i.cnt → r < 32 → j < 32 → accWord (tileOf s' t) arr (i.first + k) r j = (if i.mode = 1 then 0xFF800000#32 else if i.mode = 2 then 0x7F800000#32 else 0#32)) ∧
      (∀ b, (b < accBase arr i.first ∨ accBase arr (i.first + i.cnt) ≤ b) → (tileOf s' t).byte b = (tileOf s t).byte b) ∧
      tileOf s' t = { tileOf s t with inits := [], mem := (tileOf s' t).mem, poison := (tileOf s' t).poison, soft := (tileOf s' t).soft, summary := (tileOf s' t).summary } ∧
      (∀ u, u ≠ t → tileOf s' u = tileOf s u) ∧ s' = { s with tiles := s'.tiles })) ∧
  (∀ (t arr : Nat) (i : Init) (s : State), running s = true → arr < 3 → (tileOf s t).inits = [i] → i.arr = arr → i.hdr.post = none → i.pre = true → i.loaded = 0 → 0 < i.cnt →
    i.first + i.cnt ≤ 16 → i.ap % 128 = 0 → inDataOrBuf i.ap (i.cnt * preloadBytes i.fmt) = true → (tileOf s t).drains = [] → Claim.queuesEmpty (tileOf s t) →
    Claim.completes (.preloadCompletion t arr) s (fun s' =>
      (∀ k r j, k < i.cnt → r < 32 → j < 32 → accWord (tileOf s' t) arr (i.first + k) r j =
        (if i.fmt = BF16 then BitVec.ofNat 32 (leNat (rawBytes ((tileOf s t).read (i.ap + k * 2048 + (j / 16) * 1024 + r * 32 + (j % 16) * 2) 2)) * 65536)
         else BitVec.ofNat 32 (leNat (rawBytes ((tileOf s t).read (i.ap + k * 4096 + (j / 8) * 1024 + r * 32 + (j % 8) * 4) 4)))) ) ∧
      (∀ b, (b < accBase arr i.first ∨ accBase arr (i.first + i.cnt) ≤ b) → (tileOf s' t).byte b = (tileOf s t).byte b) ∧
      tileOf s' t = { tileOf s t with
        inits := [], mem := (tileOf s' t).mem, poison := (tileOf s' t).poison, soft := (tileOf s' t).soft, summary := (tileOf s' t).summary,
        samples := (tileOf s' t).samples } ∧ (∀ u, u ≠ t → tileOf s' u = tileOf s u) ∧ s'.stk = s.stk)) ∧
  (∀ (t arr : Nat) (s : State), (tileOf s t).inits.all (fun i => i.arr != arr) = true → exec (.preloadCompletion t arr) s = .next s)

/-- The head of an array's queue, if there is one, is a matrix instruction. -/
def Sys2Proof.Claim.matrixAhead (q : List ArrOp) : Bool := match q with | ⟨_, .mma _⟩ :: _ => true | [] => true | _ => false

/-- The heads of the three queues are matrix instructions. -/
def Sys2Proof.Claim.matrixHeads (x : Tile) : Bool := Claim.matrixAhead x.qF && Claim.matrixAhead x.qGX && Claim.matrixAhead x.qGW

/-- The operation stands at the end of the queues of the arrays named; nothing else of the device moves but issue. -/
def Sys2Proof.Claim.queuesArray (c : Instr) (t : Nat) (arrs : List Nat) (o : ArrOp) (s : State) : Prop :=
  Claim.leaves c t 2 (arrs.foldl (fun x a => x.setQueue a (x.queue a ++ [o])) (tileOf s t)) s

/-- The fields of an MMA2 (R62, R96). -/
def Sys2Proof.Claim.twoFields (x : Tile) (w : BitVec 56) (w1 : Word) : MmaF :=
  { mmaFields x w w1 true false with arr := 1, aw2 := x.addr ((bits w 43 40 + 1) % 16), asc2 := x.addr ((bits w 39 36 + 1) % 16) }

/-- MMA, MMA2 and LMMA with accepted fields enter the queue of their array, MMA2 those of GX and GW; no accumulator changes yet; with the queue full they wait
(R81, R88, R96, R192). Formats that their rules refuse fault with FORMAT, an MMA2 out of its form with MMA2_FORM, an LMMA on another array than F with
LINEAGE_ARRAY; for an MMA2, whose arr field is ignored, TILE_ARR_FAULT names GX (the model's choice, log 89). -/
def Obligations.MatrixInstructionsQueue : Prop :=
  (∀ (t : Nat) (w : BitVec 56) (w1 : Word) (s : State), Claim.canIssue s t w 2 [] [] = true → isSecond w1 = true → badMma w w1 false = false →
    formatFault (tileOf s t) (mmaFields (tileOf s t) w w1 false false) = false → Claim.matrixHeads (tileOf s t) = true → ((tileOf s t).queue (xArr w)).length < 8 →
    Claim.queuesArray (.mma t w w1) t [xArr w] ⟨⟨(tileOf s t).sn, (tileOf s t).pc, xPost w⟩, .mma (mmaFields (tileOf s t) w w1 false false)⟩ s) ∧
  (∀ (t : Nat) (f : MmaF) (w : BitVec 56) (w1 : Word) (s : State), Claim.canIssue s t w 2 [] [] = true → isSecond w1 = true → badMma w w1 true = false →
    f = Claim.twoFields (tileOf s t) w w1 → f.wm = true → packBits f.fa = 8 → f.oi + f.kb ≤ 8 → formatFault (tileOf s t) f = false → Claim.matrixHeads (tileOf s t) = true →
    (tileOf s t).qGX.length < 8 → (tileOf s t).qGW.length < 8 →
    Claim.queuesArray (.mma2 t w w1) t [1, 2] ⟨⟨(tileOf s t).sn, (tileOf s t).pc, xPost w⟩, .mma f⟩ s) ∧
  (∀ (t : Nat) (f : MmaF) (w : BitVec 56) (w1 : Word) (s : State), Claim.canIssue s t w 2 [] [] = true → isSecond w1 = true → badMma w w1 false = false →
    f = mmaFields (tileOf s t) w w1 false true → f.arr = 0 → f.fa = L12 → f.fw = L12 → f.larr = 0 → f.warr = 0 → f.sle = false → Claim.matrixHeads (tileOf s t) = true →
    (tileOf s t).qF.length < 8 →
    Claim.queuesArray (.lmma t w w1) t [0] ⟨⟨(tileOf s t).sn, (tileOf s t).pc, xPost w⟩, .mma f⟩ s) ∧
  (∀ (t : Nat) (w : BitVec 56) (w1 : Word) (s : State), Claim.canIssue s t w 2 [] [] = true → isSecond w1 = true → badMma w w1 false = false →
    formatFault (tileOf s t) (mmaFields (tileOf s t) w w1 false false) = false → 8 ≤ ((tileOf s t).queue (xArr w)).length → exec (.mma t w w1) s = .next s) ∧
  (∀ (t : Nat) (w : BitVec 56) (w1 : Word) (s : State), t < 1152 → Claim.canIssue s t w 2 [] [] = true → isSecond w1 = true →
    (badMma w w1 false = false → formatFault (tileOf s t) (mmaFields (tileOf s t) w w1 false false) = true → Claim.arrayFaults (.mma t w w1) t 0x25 (xArr w) (xG w) s) ∧
    (badMma w w1 true = false → ((Claim.twoFields (tileOf s t) w w1).wm = false ∨ packBits (Claim.twoFields (tileOf s t) w w1).fa ≠ 8 ∨
      8 < (Claim.twoFields (tileOf s t) w w1).oi + (Claim.twoFields (tileOf s t) w w1).kb) → Claim.arrayFaults (.mma2 t w w1) t 0x28 1 (xG w) s) ∧
    (badMma w w1 false = false → xArr w ≠ 0 → Claim.arrayFaults (.lmma t w w1) t 0x2B (xArr w) (xG w) s))

/-- Counters apart, only the accumulators, the group and the queues of the tile move, and what its reads record of words in error (R24). -/
def Sys2Proof.Claim.onlyArrays (t : Nat) (s s' : State) : Prop :=
  tileOf s' t = { tileOf s t with
    qF := (tileOf s' t).qF, qGX := (tileOf s' t).qGX, qGW := (tileOf s' t).qGW, groups := (tileOf s' t).groups, mem := (tileOf s' t).mem, poison := (tileOf s' t).poison,
    soft := (tileOf s' t).soft, summary := (tileOf s' t).summary, samples := (tileOf s' t).samples } ∧
  (∀ u, u ≠ t → tileOf s' u = tileOf s u) ∧ s' = { s with tiles := s'.tiles, regs := s'.regs, rec_ := s'.rec_, cox := { s.cox with async := s'.cox.async } }

/-- An MMA or LMMA at the head of its queue, into a tile of an open group that is ready and held by no earlier drain, with operands in place, makes one accumulation
step per block into its output tile; where it is one step and is not skipped, each element of a row becomes its accumulation with the step's row and column. An MMA2
makes one step into each of its GX tiles and one per block into its GW tile. Every byte outside those tiles stays (R88, R96, R97, R99, R188). -/
def Sys2Proof.Claim.MatrixAccumulates : Prop :=
  (∀ (t : Nat) (f : MmaF) (h : Group) (sn pc : Nat) (s : State), running s = true → f.two = false → f.arr < 3 → f.rows ≤ 32 → 1 ≤ f.kb →
    (tileOf s t).qF = (if f.arr = 0 then [⟨⟨sn, pc, none⟩, .mma f⟩] else []) → (tileOf s t).qGX = (if f.arr = 1 then [⟨⟨sn, pc, none⟩, .mma f⟩] else []) →
    (tileOf s t).qGW = (if f.arr = 2 then [⟨⟨sn, pc, none⟩, .mma f⟩] else []) → (tileOf s t).group f.arr f.g = some h →
    groupFault (tileOf s t) f.arr f.g f.oi (mmaType f) = none → operandFault (tileOf s t) f = none →
    (tileOf s t).unready sn f.arr f.oi = false → (tileOf s t).heldBefore sn f.arr f.oi = false →
    Claim.completes (.mmaCompletion t f.arr) s (fun s' =>
      Claim.queuesEmpty (tileOf s' t) ∧
      (∃ h', (tileOf s' t).group f.arr f.g = some h' ∧ SMap.get 0 h'.steps f.oi = min 0xFFFF (SMap.get 0 h.steps f.oi + f.kb) ∧
        h'.first = h.first ∧ h'.cnt = h.cnt ∧ h'.mode = h.mode ∧ h'.gty = mmaType f) ∧
      (∀ b, (b < accBase f.arr f.oi ∨ accBase f.arr f.oi + 0x1000 ≤ b) → (tileOf s' t).byte b = (tileOf s t).byte b) ∧ Claim.onlyArrays t s s')) ∧
  (∀ (t r j : Nat) (l : List Num) (f : MmaF) (h : Group) (sn pc : Nat) (s : State), running s = true → f.two = false → f.arr < 3 → f.rows ≤ 32 → f.kb = 1 →
    (tileOf s t).qF = (if f.arr = 0 then [⟨⟨sn, pc, none⟩, .mma f⟩] else []) → (tileOf s t).qGX = (if f.arr = 1 then [⟨⟨sn, pc, none⟩, .mma f⟩] else []) →
    (tileOf s t).qGW = (if f.arr = 2 then [⟨⟨sn, pc, none⟩, .mma f⟩] else []) → (tileOf s t).group f.arr f.g = some h →
    groupFault (tileOf s t) f.arr f.g f.oi (mmaType f) = none → operandFault (tileOf s t) f = none →
    (tileOf s t).unready sn f.arr f.oi = false → (tileOf s t).heldBefore sn f.arr f.oi = false → (tileOf s t).soft = [] →
    r < f.rows → j < 32 → (mmaStep (tileOf s t) f 0).rows.find? (fun p => p.1 == r) = some (r, l) →
    Claim.completes (.mmaCompletion t f.arr) s (fun s' =>
      accWord (tileOf s' t) f.arr f.oi r j =
        if (mmaStep (tileOf s t) f 0).skip && h.mode == 0 then accWord (tileOf s t) f.arr f.oi r j
        else (accumulate h.mode (mmaType f) (accWord (tileOf s t) f.arr f.oi r j) l (nth [] (mmaStep (tileOf s t) f 0).cols j)).1)) ∧
  (∀ (t : Nat) (f : MmaF) (h k : Group) (sn pc : Nat) (s : State), running s = true → f.two = true → f.rows ≤ 32 → 1 ≤ f.kb → f.oi + f.kb ≤ 8 →
    (tileOf s t).qF = [] → (tileOf s t).qGX = [⟨⟨sn, pc, none⟩, .mma f⟩] → (tileOf s t).qGW = [⟨⟨sn, pc, none⟩, .mma f⟩] →
    (tileOf s t).group 1 f.g = some h → (tileOf s t).group 2 f.g = some k →
    (∀ p ∈ mmaTargets f, groupFault (tileOf s t) p.1 f.g p.2 (mmaType f) = none ∧ (tileOf s t).unready sn p.1 p.2 = false ∧ (tileOf s t).heldBefore sn p.1 p.2 = false) →
    operandFault (tileOf s t) f = none →
    Claim.completes (.mmaCompletion t 1) s (fun s' =>
      Claim.queuesEmpty (tileOf s' t) ∧
      (∃ h', (tileOf s' t).group 2 f.g = some h' ∧ SMap.get 0 h'.steps (f.oi + 8) = min 0xFFFF (SMap.get 0 k.steps (f.oi + 8) + f.kb)) ∧
      (∀ b, (b < accBase 1 f.oi ∨ accBase 1 (f.oi + f.kb) ≤ b) → (b < accBase 2 (f.oi + 8) ∨ accBase 2 (f.oi + 9) ≤ b) → (tileOf s' t).byte b = (tileOf s t).byte b) ∧
      Claim.onlyArrays t s s')) ∧
  (∀ (t : Nat) (f : MmaF) (sn pc code : Nat) (s : State), t < 1152 → running s = true → f.two = false → f.arr < 3 → f.g < 4 → (tileOf s t).seq = .running →
    (tileOf s t).qF = (if f.arr = 0 then [⟨⟨sn, pc, none⟩, .mma f⟩] else []) → (tileOf s t).qGX = (if f.arr = 1 then [⟨⟨sn, pc, none⟩, .mma f⟩] else []) →
    (tileOf s t).qGW = (if f.arr = 2 then [⟨⟨sn, pc, none⟩, .mma f⟩] else []) → groupFault (tileOf s t) f.arr f.g f.oi (mmaType f) = some code →
    Claim.completes (.mmaCompletion t f.arr) s (fun s' =>
      (tileOf s' t).seq = .faulted { code := code, pc := pc, arr := f.arr, grp := f.g } ∧ Claim.queuesEmpty (tileOf s' t) ∧ (tileOf s' t).mem = (tileOf s t).mem ∧
      (tileOf s' t).groups = (tileOf s t).groups ∧ rget s' (reg .TILE_ARR_FAULT t) = w64 (code + f.arr * 2 ^ 8 + f.g * 2 ^ 10 + 2 ^ 63)))

/-- An FP32 ADD accumulation is the exact sum of the old value and the step's products, rounded once to nearest even; an integer one adds exactly
and saturates (R99); MAX and MIN keep the old value unless the product sum beats it (R100). -/
def Sys2Proof.Claim.AccumulationRule : Prop :=
  (∀ (old : Half) (l w : List Num), accumulate 0 1 old l w = (toF32 .even (Num.add (f32 old) (Num.sum (List.zipWith Num.mul l w))), false)) ∧
  (∀ (old : Half) (l w : List Num), ((accumulate 0 2 old l w).1).toInt =
    max (-(2 ^ 31 : Int)) (min (2 ^ 31 - 1) (old.toInt + intOf (Num.sum (List.zipWith Num.mul l w))))) ∧
  (∀ (mode : Nat) (old : Half) (l w : List Num), mode = 1 ∨ mode = 2 →
    (accumulate mode 1 old l w).1 = (if beats (mode == 1) (toF32 .even (Num.sum (List.zipWith Num.mul l w))) old then toF32 .even (Num.sum (List.zipWith Num.mul l w)) else old))

/-- MABORT on an open group whose tiles are all initialised and that no kept drain reads closes it and leaves memory (R98, R101; that it waits for
its group's initialisation is the model's choice, log 76); with no such group it faults with GROUP_STATE (R97, R110). -/
def Sys2Proof.Claim.GroupsAbort : Prop :=
  (∀ (t : Nat) (w : BitVec 56) (w1 : Word) (h : Group) (s : State), Claim.canIssue s t w 2 [] [] = true → isSecond w1 = true → badOpen w w1 = false →
    xPost w = none → Claim.queuesEmpty (tileOf s t) → (tileOf s t).group (xArr w) (xG w) = some h →
    (tileOf s t).inits.all (fun i => i.arr != xArr w || i.g != xG w) = true → (tileOf s t).drains.all (fun d => d.f.arr != xArr w || d.f.g != xG w || !d.f.keep) = true →
    Claim.leaves (.mabort t w w1) t 2 { (tileOf s t).clearPoison (xArr w) h.first h.cnt with
      groups := (tileOf s t).groups.filter (fun k => !(k.arr == xArr w && k.g == xG w)) } s) ∧
  (∀ (t : Nat) (w : BitVec 56) (w1 : Word) (s : State), t < 1152 → Claim.canIssue s t w 2 [] [] = true → isSecond w1 = true → badOpen w w1 = false →
    Claim.queuesEmpty (tileOf s t) → (tileOf s t).group (xArr w) (xG w) = none → Claim.arrayFaults (.mabort t w w1) t 0x20 (xArr w) (xG w) s)

/-- A drain instruction whose group is open and fits it passes the group to the drain unit; DCLOSE and LCLOSE close the group, DKEEP keeps it; a drain that needs its
tensor id's entries fetches them where the tile's cache lacks them (R101, R103, R135, R161, R193). With no such group it faults with GROUP_STATE, with one that does not
fit with its code (R103, R107, R110). -/
def Sys2Proof.Claim.drainEnters (c : Instr) (t : Nat) (f : DrainF) (post : Option Nat) (s : State) : Prop :=
  (∀ h : Group, (tileOf s t).group f.arr f.g = some h → drainGroupFault f h = none →
    Claim.completes c s (fun s' =>
      (∃ ix, (h.mode = 0 → ix = []) ∧ (tileOf s' t).drains = (tileOf s t).drains ++
        [{ hdr := ⟨(tileOf s t).sn, (tileOf s t).pc, post⟩, f := f, first := h.first, cnt := h.cnt, mode := h.mode, gty := h.gty, forms := h.forms, idx := ix,
           fetch := needsFetch f.fo f.arro && !(tileOf s t).cache.contains f.tid }]) ∧
      (tileOf s' t).groups = (if f.keep then (tileOf s t).groups else (tileOf s t).groups.filter (fun k => !(k.arr == f.arr && k.g == f.g))) ∧
      Claim.besideIssue { tileOf s t with drains := (tileOf s' t).drains, groups := (tileOf s' t).groups } (tileOf s' t) ∧ Claim.advanced 2 (tileOf s t) (tileOf s' t) ∧
      (∀ u, u ≠ t → tileOf s' u = tileOf s u) ∧ s'.stk = s.stk ∧ s'.blt = s.blt)) ∧
  ((tileOf s t).group f.arr f.g = none → Claim.arrayFaults c t 0x20 f.arr f.g s) ∧
  (∀ h : Group, (tileOf s t).group f.arr f.g = some h → ∀ code : Nat, drainGroupFault f h = some code → Claim.arrayFaults c t code f.arr f.g s)

/-- DCLOSE, DKEEP and LCLOSE; an output pair outside the listed ones faults with FORMAT, an LCLOSE on another array than F with LINEAGE_ARRAY (R103, R110, R193). -/
def Sys2Proof.Claim.DrainsEnter : Prop :=
  (∀ (t : Nat) (w : BitVec 56) (w1 : Word) (s : State), t < 1152 → Claim.canIssue s t w 2 [] [] = true → isSecond w1 = true → badDrain w w1 = false →
    outPairOk (bits w 42 39) (bits w 38 37) = true → (isFP6 (bits w 42 39) = true → (tileOf s t).fp6D ≠ 0) → Claim.queuesEmpty (tileOf s t) →
    Claim.drainEnters (.dclose t w w1) t (drainFields (tileOf s t) w w1 false false) (dPost w) s ∧
    Claim.drainEnters (.dkeep t w w1) t (drainFields (tileOf s t) w w1 true false) (dPost w) s) ∧
  (∀ (t : Nat) (w : BitVec 56) (w1 : Word) (s : State), t < 1152 → Claim.canIssue s t w 2 [] [] = true → isSecond w1 = true → bits w 19 0 = 0 → bits w1 31 0 = 0 →
    xArr w = 0 → (bits w 42 39 = L12 ∨ bits w 42 39 = FP32) → bits w 38 37 = 0 → bits w 31 30 ≤ 1 → bits w 35 32 ≤ 1 → bit w 28 = false → bits w 27 25 = 0 →
    bit w 36 = false → Claim.queuesEmpty (tileOf s t) →
    Claim.drainEnters (.lclose t w w1) t (drainFields (tileOf s t) w w1 false true) (dPost w) s) ∧
  (∀ (t : Nat) (w : BitVec 56) (w1 : Word) (s : State), t < 1152 → Claim.canIssue s t w 2 [] [] = true → isSecond w1 = true → badDrain w w1 = false →
    (outPairOk (bits w 42 39) (bits w 38 37) = false ∨ isFP6 (bits w 42 39) = true ∧ (tileOf s t).fp6D = 0) →
    Claim.arrayFaults (.dclose t w w1) t 0x25 (xArr w) (xG w) s ∧ Claim.arrayFaults (.dkeep t w w1) t 0x25 (xArr w) (xG w) s) ∧
  (∀ (t : Nat) (w : BitVec 56) (w1 : Word) (s : State), t < 1152 → Claim.canIssue s t w 2 [] [] = true → isSecond w1 = true → bits w 19 0 = 0 → bits w1 31 0 = 0 →
    xArr w ≠ 0 → xArr w ≠ 3 → (bits w 42 39 = L12 ∨ bits w 42 39 = FP32) → bits w 38 37 = 0 → bits w 31 30 ≤ 1 → bits w 35 32 ≤ 1 → bit w 28 = false → bits w 27 25 = 0 →
    bit w 36 = false → Claim.arrayFaults (.lclose t w w1) t 0x2B (xArr w) (xG w) s)

/-- The drain at the head of its array's drain unit starts, marking its tensor id in the taint log; a DKEEP on F leaves its scale and bias modes with its group, none
of either for INT32 output; when every tile of it has finished it leaves the unit; a fetched entry joins the tile's cache, the oldest of 16 giving way
(R102, R103, R108, R138, R161, R404). -/
def Sys2Proof.Claim.DrainsRun : Prop :=
  (∀ (t arr : Nat) (d : Drain) (s : State), t < 1152 → running s = true → headDrain (tileOf s t) arr = some d → d.started = false → d.f.tid < 4096 →
    Claim.completes (.drainStart t arr) s (fun s' =>
      headDrain (tileOf s' t) arr = some { d with started := true } ∧ (tileOf s' t).drains.length = (tileOf s t).drains.length ∧
      bit (rget s' (reg .TILE_TAINT t (d.f.tid / 64))) (d.f.tid % 64) = true ∧ (∀ q : Reg, q.off ≠ (reg .TILE_TAINT t (d.f.tid / 64)).off → rget s' q = rget s q) ∧
      tileOf s' t = { tileOf s t with drains := (tileOf s' t).drains, groups := (tileOf s' t).groups } ∧
      ((d.f.keep && arr == 0) = false → (tileOf s' t).groups = (tileOf s t).groups) ∧
      (∀ u, u ≠ t → tileOf s' u = tileOf s u) ∧ s' = { s with tiles := s'.tiles, regs := s'.regs })) ∧
  (∀ (t : Nat) (d : Drain) (h : Group) (s : State), t < 1152 → running s = true → headDrain (tileOf s t) 0 = some d → d.started = false → d.f.keep = true → d.f.tid < 4096 →
    (tileOf s t).group 0 d.f.g = some h → h.sn < d.hdr.sn →
    Claim.completes (.drainStart t 0) s (fun s' =>
      ∃ h', (tileOf s' t).group 0 d.f.g = some h' ∧ h'.dkept = true ∧ h'.dkScm = (if d.f.fo = INT32 then 0 else d.f.scm) ∧ h'.dkBe = (d.f.fo != INT32 && d.f.be) ∧
        h'.first = h.first ∧ h'.cnt = h.cnt ∧ h'.gty = h.gty ∧ h'.mode = h.mode)) ∧
  (∀ (t arr : Nat) (d : Drain) (ds : List Drain) (sn pc : Nat) (s : State), (tileOf s t).drains = d :: ds → d.f.arr = arr → d.hdr = ⟨sn, pc, none⟩ →
    d.started = true → d.cnt ≤ d.tile → Claim.queuesEmpty (tileOf s t) →
    Claim.completes (.drainCompletion t arr) s (fun s' =>
      tileOf s' t = { tileOf s t with drains := ds } ∧ (∀ u, u ≠ t → tileOf s' u = tileOf s u) ∧ s' = { s with tiles := s'.tiles })) ∧
  (∀ (t arr : Nat) (d : Drain) (s : State), headDrain (tileOf s t) arr = some d → d.tile < d.cnt → exec (.drainCompletion t arr) s = .next s) ∧
  (∀ (t arr : Nat) (d : Drain) (s : State), (tileOf s t).drains = [d] → d.f.arr = arr → d.fetch = true →
    Claim.completes (.tscFetchCompletion t arr) s (fun s' =>
      d.f.tid ∈ (tileOf s' t).cache ∧ (tileOf s' t).cache.length ≤ 16 ∧
      tileOf s' t = { tileOf s t with cache := (tileOf s' t).cache, drains := [{ d with fetch := false }] } ∧ (∀ u, u ≠ t → tileOf s' u = tileOf s u) ∧ s' = { s with tiles := s'.tiles }))

/-- A drain whose pass 0 the guard is about to decide: it has started, its entries are there, its tile is ready, its output pair lies off the ladder, in the tile's own
window, with no extremum; no step advance is in progress, and no word of the tile is in error. -/
def Sys2Proof.Claim.decides (s : State) (t arr : Nat) (d : Drain) : Prop :=
  headDrain (tileOf s t) arr = some d ∧ d.started = true ∧ d.fetch = false ∧ d.adj = none ∧ d.pend = false ∧ d.tile < d.cnt ∧ d.passes = 0 ∧ d.kind = 0 ∧ d.slot = 0 ∧
  d.mode = 0 ∧ d.f.mm = 0 ∧ d.f.dsp = false ∧ d.f.lin = false ∧ rungOf d.f.fo d.f.arro = none ∧ s.blt.advWait = [] ∧ (tileOf s t).unready d.hdr.sn arr (d.first + d.tile) = false ∧
  (tileOf s t).soft = [] ∧ tileState s t ≠ 2

/-- A tile of a drain whose output pair lies off the ladder, with clean rows and no residue verdict failed, is written in one pass: the drain goes on
to its next tile and the tile's report is sent (R103, R106, R156, R178). A failed verdict holds the tile for adjudication, with the rows before the failing one written
(R106, R398). A slot that the guard asked for is given in order of allocation; with none left the tile stops, and its drain with it (R182). -/
def Sys2Proof.Claim.GuardDecides : Prop :=
  (∀ (t arr : Nat) (d e : Drain) (rows : List ChainRow) (s s1 s2 : State), Claim.decides s t arr d →
    e = { d with fmt := d.f.fo, farr := d.f.arro } → s1 = setDrain t e s → chainTile (tileOf s1 t) e = .ok rows →
    rows.all (fun r => !r.pois) = true → rows.length = 32 → (passVerdict s1 e (convTile s1 e rows)).2 = none → selects s1 e = false →
    writePieces t false (tilePieces (ownPlace (tileOf s1 t) e) e.fmt e.farr (convTile s1 e rows) 0 32) s1 = (s2, none) →
    Claim.completes (.guardPassDecision t arr none) s (fun s' =>
      (headDrain (tileOf s' t) arr).map (fun k => (k.tile, k.passes, k.started)) = some (d.tile + 1, 0, true) ∧
      s'.blt.reports.length = s.blt.reports.length + 1 ∧ (tileOf s' t).mem = (tileOf s2 t).mem ∧ (tileOf s' t).groups = (tileOf s t).groups ∧ (tileOf s' t).s = (tileOf s t).s ∧
      (∀ u, u ≠ t → tileOf s' u = tileOf s u) ∧ s'.stk = s.stk)) ∧
  (∀ (t arr r : Nat) (d e : Drain) (rows : List ChainRow) (s s1 s2 : State), Claim.decides s t arr d → r < 32 → assist s 6 = false →
    e = { d with fmt := d.f.fo, farr := d.f.arro } → s1 = setDrain t e s → chainTile (tileOf s1 t) e = .ok rows →
    rows.all (fun r => !r.pois) = true → rows.length = 32 → selects s1 e = false →
    writePieces t false (tilePieces (ownPlace (tileOf s1 t) e) e.fmt e.farr (convTile s1 e rows) 0 r) s1 = (s2, none) →
    Claim.completes (.guardPassDecision t arr (some r)) s (fun s' =>
      headDrain (tileOf s' t) arr = some { e with adj := some { row := r } } ∧ s'.blt.reports = s.blt.reports ∧ (tileOf s' t).mem = (tileOf s2 t).mem ∧
      (∀ u, u ≠ t → tileOf s' u = tileOf s u) ∧ s'.stk = s.stk)) ∧
  (∀ (t arr : Nat) (d : Drain) (rows : List ChainRow) (s : State), headDrain (tileOf s t) arr = some d → d.slot = 1 → d.pend = false →
    chainTile (tileOf s t) d = .ok rows → d.f.tid < 4096 →
    rbits s (reg .BLT_GUARD d.f.tid) 19 8 < bits (effReg s (reg .BLT_SPILL d.f.tid)) 59 48 →
    Claim.completes (.spillSlotAllocation t arr) s (fun s' =>
      headDrain (tileOf s' t) arr = some { d with slot := 2, slotNo := rbits s (reg .BLT_GUARD d.f.tid) 19 8 } ∧
      rbits s' (reg .BLT_GUARD d.f.tid) 19 8 = rbits s (reg .BLT_GUARD d.f.tid) 19 8 + 1 ∧
      (∀ q : Reg, q.off ≠ (reg .BLT_GUARD d.f.tid).off → rget s' q = rget s q) ∧ tileOf s' t = { tileOf s t with drains := (tileOf s' t).drains } ∧
      (∀ u, u ≠ t → tileOf s' u = tileOf s u) ∧ s' = { s with tiles := s'.tiles, regs := s'.regs })) ∧
  (∀ (t arr : Nat) (d : Drain) (ds : List Drain) (rows : List ChainRow) (s : State), (tileOf s t).drains = d :: ds → d.f.arr = arr → d.slot = 1 → d.pend = false →
    chainTile (tileOf s t) d = .ok rows → d.f.tid < 4096 → bits (effReg s (reg .BLT_SPILL d.f.tid)) 59 48 ≤ rbits s (reg .BLT_GUARD d.f.tid) 19 8 →
    (tileOf s t).seq = .running → ds = [] → Claim.queuesEmpty (tileOf s t) →
    Claim.completes (.spillSlotAllocation t arr) s (fun s' =>
      (tileOf s' t).drains = [] ∧ (∃ f : FaultInfo, (tileOf s' t).seq = .faulted f ∧ f.pc = d.hdr.pc) ∧ bit (rget s' (reg .GUARD_ERR)) 0 = true ∧
      rbits s' (reg .GUARD_STOPS) 47 0 = (rbits s (reg .GUARD_STOPS) 47 0 + 1) % 2 ^ 48 ∧ s'.blt.reports.length = s.blt.reports.length + 1))

/-- The oldest report reaches the blotter: the running maximum is the greater one and the four class counters grow, wrapping in 48 bits
(R156, R176); with none under way nothing happens. -/
def Sys2Proof.Claim.BlotterCounts : Prop :=
  (∀ (r : Report) (rs : List Report) (z sa nf n : Nat) (s : State), s.blt.reports = r :: rs → r.tid < 4096 → r.cnts = [z, sa, nf, n] →
    Claim.completes .blotterReport s (fun s' =>
      rbits s' (reg .TSC_AMAX r.tid) 31 0 = max (rbits s (reg .TSC_AMAX r.tid) 31 0) r.amax.toNat ∧
      rbits s' (reg .BLT_ZERO r.tid) 47 0 = (rbits s (reg .BLT_ZERO r.tid) 47 0 + z) % 2 ^ 48 ∧
      rbits s' (reg .BLT_SAT r.tid) 47 0 = (rbits s (reg .BLT_SAT r.tid) 47 0 + sa) % 2 ^ 48 ∧
      rbits s' (reg .BLT_NONFIN r.tid) 47 0 = (rbits s (reg .BLT_NONFIN r.tid) 47 0 + nf) % 2 ^ 48 ∧
      rbits s' (reg .BLT_TOTAL r.tid) 47 0 = (rbits s (reg .BLT_TOTAL r.tid) 47 0 + n) % 2 ^ 48 ∧
      s' = { s with regs := s'.regs, blt := { s.blt with reports := rs } } ∧
      (∀ q : Reg, q.off ≠ (reg .TSC_AMAX r.tid).off → q.off ≠ (reg .BLT_ZERO r.tid).off → q.off ≠ (reg .BLT_SAT r.tid).off → q.off ≠ (reg .BLT_NONFIN r.tid).off →
        q.off ≠ (reg .BLT_TOTAL r.tid).off → rget s' q = rget s q))) ∧
  (∀ s : State, s.blt.reports = [] → exec .blotterReport s = .next s)

/-- What the start of a recompute moves: the count of adjudications (R111) and the event (R414), beside the adjudication itself. -/
def Sys2Proof.Claim.recomputes (t : Nat) (s s' : State) : Prop :=
  rbits s' (reg .TILE_RES_ADJ t) 47 0 = (rbits s (reg .TILE_RES_ADJ t) 47 0 + 1) % 2 ^ 48 ∧
  tileOf s' t = { tileOf s t with drains := (tileOf s' t).drains, vAdj := (tileOf s' t).vAdj } ∧ (∀ u, u ≠ t → tileOf s' u = tileOf s u) ∧
  s' = { s with tiles := s'.tiles, regs := s'.regs }

/-- Rows whose residue verdict failed are recomputed on another array of their tile that serves, where there is one, and else on the nearest idle tile; a vector
instruction on the nearest idle tile; a recompute that fails its own verdict is made once more on a third tile; where that fails too, the drain or the instruction ends
and its descriptor fails with QUARANTINE (R398, R402). -/
def Sys2Proof.Claim.AdjudicationProceeds : Prop :=
  (∀ (t unit b u : Nat) (d : Drain) (a : Adj) (s : State), t < 1152 → unit < 3 → headDrain (tileOf s t) unit = some d → d.adj = some a → a.started = false → a.attempts = 1 →
    b < 3 → arrayServes (tileOf s t) d b = true →
    Claim.completes (.adjudication t unit (some b) u) s (fun s' =>
      headDrain (tileOf s' t) unit = some { d with adj := some { a with started := true, tile2 := t, unit2 := b, at_ := t } } ∧ Claim.recomputes t s s')) ∧
  (∀ (t unit u : Nat) (ob : Option Nat) (d : Drain) (a : Adj) (s : State), t < 1152 → unit < 3 → headDrain (tileOf s t) unit = some d → d.adj = some a → a.started = false →
    a.attempts = 1 → (List.range 3).all (fun b => !arrayServes (tileOf s t) d b) = true → nearestHelper s t u t = true →
    Claim.completes (.adjudication t unit ob u) s (fun s' =>
      headDrain (tileOf s' t) unit = some { d with adj := some { a with started := true, tile2 := u, unit2 := unit, at_ := u } } ∧ Claim.recomputes t s s')) ∧
  (∀ (t unit u : Nat) (ob : Option Nat) (d : Drain) (a : Adj) (s : State), t < 1152 → unit < 3 → headDrain (tileOf s t) unit = some d → d.adj = some a → a.started = false →
    a.attempts ≠ 1 → nearestHelper s t u a.tile2 = true →
    Claim.completes (.adjudication t unit ob u) s (fun s' =>
      headDrain (tileOf s' t) unit = some { d with adj := some { a with started := true, at_ := u } } ∧ Claim.recomputes t s s')) ∧
  (∀ (t u : Nat) (ob : Option Nat) (a : Adj) (s : State), t < 1152 → (tileOf s t).vAdj = some a → a.started = false → nearestHelper s t u (if a.attempts = 1 then t else a.tile2) = true →
    Claim.completes (.adjudication t 3 ob u) s (fun s' =>
      (tileOf s' t).vAdj = some (if a.attempts = 1 then { a with started := true, tile2 := u, unit2 := 3, at_ := u } else { a with started := true, at_ := u }) ∧
      (tileOf s' t).drains = (tileOf s t).drains ∧ Claim.recomputes t s s')) ∧
  (∀ (t unit : Nat) (d : Drain) (a : Adj) (same firstSame : Bool) (s : State), unit < 3 → headDrain (tileOf s t) unit = some d → d.adj = some a →
    a.started = true → a.attempts = 1 →
    Claim.completes (.adjudicationResult t unit false same firstSame) s (fun s' =>
      headDrain (tileOf s' t) unit = some { d with adj := some { a with attempts := 2, started := false } } ∧
      tileOf s' t = { tileOf s t with drains := (tileOf s' t).drains } ∧ (∀ u, u ≠ t → tileOf s' u = tileOf s u) ∧ s' = { s with tiles := s'.tiles })) ∧
  (∀ (t unit : Nat) (d : Drain) (a : Adj) (same firstSame : Bool) (s : State), unit < 3 → (tileOf s t).drains = [d] → d.f.arr = unit → d.adj = some a →
    a.started = true → a.attempts ≠ 1 → (tileOf s t).seq = .running → Claim.queuesEmpty (tileOf s t) →
    Claim.completes (.adjudicationResult t unit false same firstSame) s (fun s' =>
      (tileOf s' t).drains = [] ∧ (tileOf s' t).seq = .faulted { code := 0x10, pc := d.hdr.pc, arr := unit, grp := d.f.g } ∧ (tileOf s' t).mem = (tileOf s t).mem ∧
      (tileOf s' t).s = (tileOf s t).s))

/-- Accumulation groups open, are initialised and abort. -/
def Obligations.MatrixGroups : Prop := Claim.GroupsOpen ∧ Claim.GroupsAreInitialised ∧ Claim.GroupsAbort

/-- What a matrix instruction adds to its accumulators. -/
def Obligations.MatrixSums : Prop := Claim.MatrixAccumulates ∧ Claim.AccumulationRule

/-- Drains, from the queue of their array to their last pass. -/
def Obligations.Drains : Prop := Claim.DrainsEnter ∧ Claim.DrainsRun

/-- The numeric guard, the blotter and the adjudication of a failed check. -/
def Obligations.GuardActs : Prop := Claim.GuardDecides ∧ Claim.BlotterCounts ∧ Claim.AdjudicationProceeds

/-! ### The vector engine (R112 to R131) -/

/-- The forms of a vector instruction whose reserved fields are 0, when it can issue: one outside the accepted ones faults with VEC_FORM at its PC and shows in
TILE_VEC_FAULT (R130, R131); an accepted one enters the vector queue with its a and s registers read when there is room, and waits when there is none; no register and
no byte of memory has changed yet (R59, R81). -/
def Sys2Proof.Claim.queuesVector (mk : Nat → BitVec 56 → Instr) (opc : Nat) (rs : BitVec 56 → List Nat) (fields form : BitVec 56 → Bool) : Prop :=
  ∀ (t : Nat) (w : BitVec 56) (s : State), Claim.canIssue s t w 1 (rs w) [] = true → bits w 15 0 = 0 → fields w = true →
    (form w = true → (tileOf s t).vec.length < queueDepth →
      Claim.leaves (mk t w) t 1 { tileOf s t with
        vec := (tileOf s t).vec ++ [⟨⟨(tileOf s t).sn, (tileOf s t).pc, vPost w⟩, opc, w, (tileOf s t).addr (vAb w), (tileOf s t).sr (vSs w)⟩] } s) ∧
    (form w = true → queueDepth ≤ (tileOf s t).vec.length → exec (mk t w) s = .next s) ∧
    (form w = false → Claim.completes (mk t w) s (fun s' =>
      (tileOf s' t).seq = .faulted { code := 0x40, pc := (tileOf s t).pc } ∧ rget s' (reg .TILE_VEC_FAULT t) = 0x8000000000000040#64 ∧
      (tileOf s' t).vec = (tileOf s t).vec ∧ (tileOf s' t).s = (tileOf s t).s ∧ (tileOf s' t).v = (tileOf s t).v ∧ (tileOf s' t).mem = (tileOf s t).mem ∧
      s' = { s with tiles := s'.tiles, regs := s'.regs, fresh := s'.fresh } ∧ ∀ u, u ≠ t → tileOf s' u = tileOf s u))

/-- Every vector instruction, with the fields and forms that its rule accepts (R59, R81, R112 to R119, R128, R130). -/
def Obligations.VectorInstructionsQueue : Prop :=
  Claim.queuesVector Instr.vld 0x80 (fun _ => []) (fun w => vTy w != 3 && decide (vFn w ≤ 2)) (fun w => vFn w == 0 || vTy w != 1) ∧
  Claim.queuesVector Instr.vst 0x81 (fun _ => []) (fun w => vTy w != 3 && decide (vFn w ≤ 2) && vVd w == 0) (fun w => vFn w == 0 || vTy w != 1) ∧
  Claim.queuesVector Instr.vsplat 0x82 (fun w => [vSs w]) (fun w => vTy w != 3) (fun _ => true) ∧
  Claim.queuesVector Instr.vmovs 0x83 (fun w => [vSs w]) (fun w => vTy w != 3) (fun _ => true) ∧
  Claim.queuesVector Instr.vcmp 0x84 (fun _ => []) (fun w => vTy w != 3 && decide (vFn w ≤ 13) && (decide (vFn w ≤ 9) == (vTy w == 2))) (fun _ => true) ∧
  Claim.queuesVector Instr.vmlog 0x85 (fun _ => []) (fun w => decide (vFn w ≤ 6) && decide (vVa w ≤ 3) && decide (vVb w ≤ 3) && !vMu w) (fun _ => true) ∧
  Claim.queuesVector Instr.vadd 0x88 (fun _ => []) (fun w => vTy w != 3) (fun _ => true) ∧
  Claim.queuesVector Instr.vsub 0x89 (fun _ => []) (fun w => vTy w != 3) (fun _ => true) ∧
  Claim.queuesVector Instr.vmul 0x8A (fun _ => []) (fun w => vTy w != 3) (fun _ => true) ∧
  Claim.queuesVector Instr.vfma 0x8B (fun _ => []) (fun w => vTy w != 3) (fun w => vTy w != 2) ∧
  Claim.queuesVector Instr.vmax 0x8C (fun _ => []) (fun w => vTy w != 3) (fun _ => true) ∧
  Claim.queuesVector Instr.vmin 0x8D (fun _ => []) (fun w => vTy w != 3) (fun _ => true) ∧
  Claim.queuesVector Instr.vsel 0x8E (fun _ => []) (fun w => vTy w != 3 && !vMu w) (fun _ => true) ∧
  Claim.queuesVector Instr.vfunc 0x90 (fun _ => []) (fun w => vTy w != 3 && decide (vFn w ≤ 7)) (fun w => vTy w != 2) ∧
  Claim.queuesVector Instr.vrot 0x94 (fun _ => []) (fun w => vTy w != 3) (fun w => vTy w == 0) ∧
  Claim.queuesVector Instr.vred 0x98 (fun _ => []) (fun w => vTy w != 3 && decide (vFn w % 8 ≤ 5)) (fun w => vTy w != 1) ∧
  Claim.queuesVector Instr.vscan 0x99 (fun _ => []) (fun w => vTy w != 3) (fun w => vTy w != 1) ∧
  Claim.queuesVector Instr.vcvt 0xA0 (fun _ => []) (fun w => vTy w != 3) (fun w => cvtFmts.contains (vFn w)) ∧
  Claim.queuesVector Instr.vrng 0xA8 (fun w => [vSs w]) (fun w => vTy w != 3) (fun w => (vFn w == 1 && vTy w == 2) || (vFn w == 0 && vTy w == 0)) ∧
  Claim.queuesVector Instr.vsample 0xA9 (fun w => [vSs w]) (fun w => vTy w != 3) (fun w => vTy w == 0 && decide (vFn w ≤ 1))

/-- The oldest vector instruction, posting nothing, waits at the head of the queue of a running tile with no adjudication under way. -/
def Sys2Proof.Claim.vectorHead (s : State) (t opc : Nat) (w : BitVec 56) (av : Nat) (sv : Word) (rest : List VecOp) (sn pc : Nat) : Prop :=
  running s = true ∧ (tileOf s t).vAdj = none ∧ (tileOf s t).vec = ⟨⟨sn, pc, none⟩, opc, w, av, sv⟩ :: rest

/-- What the unit moves beside the tile's own result when an instruction finishes: TILE_VEC_BUSY counts it (R131), event counters count it, and fetch of store words in
error leaves its records (R24); the rest of the device stays. -/
def Sys2Proof.Claim.unitCounts (t : Nat) (s s' : State) : Prop :=
  s' = { s with tiles := s'.tiles, regs := s'.regs, fresh := s'.fresh, rec_ := s'.rec_, cox := { s.cox with async := s'.cox.async } } ∧
  (∀ u, u ≠ t → tileOf s' u = tileOf s u) ∧
  ((tileOf s t).soft = [] → s'.rec_ = s.rec_ ∧ s'.cox.async = s.cox.async ∧ (tileOf s' t).soft = [] ∧
    (rget s' (reg .TILE_VEC_BUSY t)).toNat = ((rget s (reg .TILE_VEC_BUSY t)).toNat + 1) % 2 ^ 48 ∧
    ∀ r : Reg, r.off ≠ (reg .TILE_VEC_BUSY t).off → r.off ≠ (reg .TILE_PMC_OVF t).off → (∀ k, k < 8 → r.off ≠ (reg .TILE_PMC_CTR t k).off) → rget s' r = rget s r)

/-- Only the queue, the lanes of one vector register and the instruction's own sample move in the tile, but for marks of words in error. -/
def Sys2Proof.Claim.onlyLanes (t vd : Nat) (rest : List VecOp) (s s' : State) : Prop :=
  tileOf s' t = { tileOf s t with
    v := (tileOf s' t).v, vpois := (tileOf s' t).vpois, samples := (tileOf s' t).samples, soft := (tileOf s' t).soft,
    poison := (tileOf s' t).poison, vec := rest, vAdj := none } ∧
  (∀ k, (k < vd * 64 ∨ vd * 64 + 64 ≤ k) → SMap.get 0#32 (tileOf s' t).v k = SMap.get 0#32 (tileOf s t).v k ∧ SMap.get false (tileOf s' t).vpois k = SMap.get false (tileOf s t).vpois k) ∧
  ((tileOf s t).soft = [] → (tileOf s' t).poison = (tileOf s t).poison) ∧ Claim.unitCounts t s s'

/-- VADD, VSUB, VMUL, VFMA, VMAX and VMIN, whose residue check agrees where they have one, write their function into every active element and leave the others, poison
following the sources (R113, R115, R122, R129); VSPLAT writes its scalar into them, clean (R114). One whose check disagrees writes nothing: it waits at the head for its
adjudication (R129). While one is under way no instruction of the queue finishes. -/
def Obligations.VectorArithmetic : Prop :=
  (∀ (t opc av sn pc : Nat) (w : BitVec 56) (sv : Word) (rest : List VecOp) (ok : Bool) (s : State), Claim.vectorHead s t opc w av sv rest sn pc →
    [0x88, 0x89, 0x8A, 0x8B, 0x8C, 0x8D].contains opc = true → ok = true ∨ 0x8C ≤ opc → vTy w ≠ 3 →
    Claim.completes (.vectorCompletion t ok) s (fun s' => Claim.onlyLanes t (vVd w) rest s s' ∧
      ∀ e, e < elemsOf (vTy w) → (tileOf s' t).elem (vTy w) (vVd w) e =
        if (tileOf s t).active w e then
          vecArith opc (vTy w) ((tileOf s t).elem (vTy w) (vVa w) e) ((tileOf s t).elem (vTy w) (vVb w) e) ((tileOf s t).elem (vTy w) (vVc w) e) % 2 ^ (if vTy w = 1 then 16 else 32)
        else (tileOf s t).elem (vTy w) (vVd w) e)) ∧
  (∀ (t opc av sn pc : Nat) (w : BitVec 56) (sv : Word) (rest : List VecOp) (s : State), Claim.vectorHead s t opc w av sv rest sn pc →
    [0x88, 0x89, 0x8A, 0x8B, 0x8C, 0x8D].contains opc = true → vTy w = 0 ∨ vTy w = 2 →
    Claim.completes (.vectorCompletion t true) s (fun s' =>
      ∀ l, l < 64 → (tileOf s' t).lanePois (vVd w) l =
        if (tileOf s t).active w l then (tileOf s t).lanePois (vVa w) l || (tileOf s t).lanePois (vVb w) l || (opc == 0x8B && (tileOf s t).lanePois (vVc w) l)
        else (tileOf s t).lanePois (vVd w) l)) ∧
  (∀ (t av sn pc : Nat) (w : BitVec 56) (sv : Word) (rest : List VecOp) (ok : Bool) (s : State), Claim.vectorHead s t 0x82 w av sv rest sn pc →
    Claim.completes (.vectorCompletion t ok) s (fun s' => Claim.onlyLanes t (vVd w) rest s s' ∧
      (∀ e, e < elemsOf (vTy w) → (tileOf s' t).elem (vTy w) (vVd w) e =
        if (tileOf s t).active w e then sv.toNat % 2 ^ (if vTy w = 1 then 16 else 32) else (tileOf s t).elem (vTy w) (vVd w) e) ∧
      (vTy w ≠ 1 → ∀ l, l < 64 → (tileOf s' t).lanePois (vVd w) l = (!(tileOf s t).active w l && (tileOf s t).lanePois (vVd w) l)))) ∧
  (∀ (t opc av sn pc : Nat) (w : BitVec 56) (sv : Word) (rest : List VecOp) (s : State), Claim.vectorHead s t opc w av sv rest sn pc →
    [0x88, 0x89, 0x8A, 0x8B, 0x94, 0x99].contains opc = true → assist s 6 = false →
    Claim.completes (.vectorCompletion t false) s (fun s' =>
      tileOf s' t = { tileOf s t with vAdj := some {} } ∧ s' = { s with tiles := s'.tiles, regs := s'.regs } ∧ ∀ u, u ≠ t → tileOf s' u = tileOf s u)) ∧
  (∀ (t : Nat) (ok : Bool) (s : State), (tileOf s t).vec = [] ∨ (tileOf s t).vAdj.isSome = true ∨ running s = false → exec (.vectorCompletion t ok) s = .next s)

/-- VMOVS, VCMP and VMLOG write a scalar register or a mask, VSEL picks by its mask (R114); a poisoned lane in VMOVS faults with LANE_POISON at its PC and
writes nothing (R122, R130). -/
def Sys2Proof.Claim.VectorMovesAndMasks : Prop :=
  (∀ (t av sn pc : Nat) (w : BitVec 56) (sv : Word) (rest : List VecOp) (ok : Bool) (s : State), Claim.vectorHead s t 0x83 w av sv rest sn pc →
    (tileOf s t).lanePois (vVa w) 0 = false →
    Claim.completes (.vectorCompletion t ok) s (fun s' =>
      tileOf s' t = { (tileOf s t).setS (vSs w) (((tileOf s t).lane (vVa w) 0).zeroExtend 64) with vec := rest, vAdj := none, samples := (tileOf s' t).samples } ∧
      Claim.unitCounts t s s')) ∧
  (∀ (t av sn pc : Nat) (w : BitVec 56) (sv : Word) (rest : List VecOp) (ok : Bool) (s : State), Claim.vectorHead s t 0x83 w av sv rest sn pc →
    (tileOf s t).lanePois (vVa w) 0 = true → (tileOf s t).seq = .running →
    Claim.completes (.vectorCompletion t ok) s (fun s' =>
      (tileOf s' t).seq = .faulted { code := 0x42, pc := pc } ∧ rget s' (reg .TILE_VEC_FAULT t) = 0x8000000000000042#64 ∧ (tileOf s' t).s = (tileOf s t).s ∧
      (tileOf s' t).v = (tileOf s t).v ∧ (tileOf s' t).mem = (tileOf s t).mem ∧ s' = { s with tiles := s'.tiles, regs := s'.regs } ∧
      ∀ u, u ≠ t → tileOf s' u = tileOf s u)) ∧
  (∀ (t av sn pc : Nat) (w : BitVec 56) (sv : Word) (rest : List VecOp) (ok : Bool) (s : State), Claim.vectorHead s t 0x84 w av sv rest sn pc →
    Claim.completes (.vectorCompletion t ok) s (fun s' =>
      (∀ e, e < 128 → (SMap.get 0#128 (tileOf s' t).m (bits w 50 49)).getLsbD e =
        (decide (e < elemsOf (vTy w)) && (tileOf s t).active w e &&
          (if vTy w = 2 then intCond (vFn w) (BitVec.ofNat 32 ((tileOf s t).elem 2 (vVa w) e)) (BitVec.ofNat 32 ((tileOf s t).elem 2 (vVb w) e))
           else floatCond (vFn w) (toF32 .even (elemNum (vTy w) ((tileOf s t).elem (vTy w) (vVa w) e))) (toF32 .even (elemNum (vTy w) ((tileOf s t).elem (vTy w) (vVb w) e)))))) ∧
      tileOf s' t = { tileOf s t with m := (tileOf s' t).m, vec := rest, vAdj := none, samples := (tileOf s' t).samples } ∧
      (∀ k, k ≠ bits w 50 49 → SMap.get 0#128 (tileOf s' t).m k = SMap.get 0#128 (tileOf s t).m k) ∧ Claim.unitCounts t s s')) ∧
  (∀ (t av sn pc : Nat) (w : BitVec 56) (sv : Word) (rest : List VecOp) (ok : Bool) (s : State), Claim.vectorHead s t 0x85 w av sv rest sn pc →
    Claim.completes (.vectorCompletion t ok) s (fun s' =>
      (∀ e, e < 128 → (SMap.get 0#128 (tileOf s' t).m (bits w 50 49)).getLsbD e =
        logicFn (vFn w) ((SMap.get 0#128 (tileOf s t).m (vVa w)).getLsbD e) ((SMap.get 0#128 (tileOf s t).m (vVb w)).getLsbD e)) ∧
      tileOf s' t = { tileOf s t with m := (tileOf s' t).m, vec := rest, vAdj := none, samples := (tileOf s' t).samples } ∧
      (∀ k, k ≠ bits w 50 49 → SMap.get 0#128 (tileOf s' t).m k = SMap.get 0#128 (tileOf s t).m k) ∧ Claim.unitCounts t s s')) ∧
  (∀ (t av sn pc : Nat) (w : BitVec 56) (sv : Word) (rest : List VecOp) (ok : Bool) (s : State), Claim.vectorHead s t 0x8E w av sv rest sn pc →
    Claim.completes (.vectorCompletion t ok) s (fun s' => Claim.onlyLanes t (vVd w) rest s s' ∧
      ∀ e, e < elemsOf (vTy w) → (tileOf s' t).elem (vTy w) (vVd w) e =
        (tileOf s t).elem (vTy w) (if (SMap.get 0#128 (tileOf s t).m (vMk w)).getLsbD e then vVa w else vVb w) e))

/-- The address fault, or the poisoned source lane, of a VST or VLD of the unit: its code at its PC, the fault shows in TILE_VEC_FAULT where the code is of the unit's
own, nothing is written (R119 to R122, R130, R131). -/
def Sys2Proof.Claim.memoryFaults (t pc : Nat) (f : Nat × Nat × Nat) (ok : Bool) (s : State) : Prop :=
  Claim.completes (.vectorCompletion t ok) s (fun s' =>
      (tileOf s' t).seq = .faulted { code := f.1, pc := pc, addr := f.2.1, lane := f.2.2 } ∧
      (0x40 ≤ f.1 ∧ f.1 < 0x60 → rget s' (reg .TILE_VEC_FAULT t) = w64 (f.1 % 256 + (f.2.2 % 128) * 2 ^ 8 + 2 ^ 63)) ∧
      (tileOf s' t).s = (tileOf s t).s ∧ (tileOf s' t).v = (tileOf s t).v ∧ (tileOf s' t).mem = (tileOf s t).mem ∧ s'.stk = s.stk ∧
      ∀ u, u ≠ t → tileOf s' u = tileOf s u)

/-- Of the consecutive form with 32-bit lanes, VLD reads the window and VST writes it; inactive lanes and every byte outside the active elements stay (R113, R119); an
address fault, and a poisoned lane in VST, fault with their lane (R120, R122, R130). -/
def Sys2Proof.Claim.VectorMemory : Prop :=
  (∀ (t av sn pc : Nat) (w : BitVec 56) (sv : Word) (rest : List VecOp) (ok : Bool) (s : State), Claim.vectorHead s t 0x80 w av sv rest sn pc →
    vFn w = 0 → vTy w = 0 ∨ vTy w = 2 → av % 8 = 0 → av + 256 ≤ 0xC0000 →
    Claim.completes (.vectorCompletion t ok) s (fun s' => Claim.onlyLanes t (vVd w) rest s s' ∧
      ∀ l, l < 64 → (tileOf s' t).lane (vVd w) l =
        if (tileOf s t).active w l then BitVec.ofNat 32 (leNat (rawBytes ((tileOf s t).read (av + 4 * l) 4))) else (tileOf s t).lane (vVd w) l)) ∧
  (∀ (t av sn pc : Nat) (w : BitVec 56) (sv : Word) (rest : List VecOp) (ok : Bool) (s : State), Claim.vectorHead s t 0x81 w av sv rest sn pc →
    vFn w = 0 → vTy w = 0 ∨ vTy w = 2 → av % 8 = 0 → 0x80000 ≤ av → av + 256 ≤ 0xC0000 → vecFault s t (tileOf s t) w av true = none →
    (∀ l, l < 64 → (tileOf s t).active w l = true → (tileOf s t).lanePois (vVa w) l = false) → tileState s t ≠ 2 →
    Claim.completes (.vectorCompletion t ok) s (fun s' =>
      (∀ l, l < 64 → (tileOf s t).active w l = true → rawBytes ((tileOf s' t).read (av + 4 * l) 4) = leBytes 4 ((tileOf s t).lane (vVa w) l).toNat) ∧
      (∀ b, (∀ l, l < 64 → (tileOf s t).active w l = true → b < av + 4 * l ∨ av + 4 * l + 4 ≤ b) → (tileOf s' t).byte b = (tileOf s t).byte b) ∧
      tileOf s' t = { tileOf s t with
        mem := (tileOf s' t).mem, poison := (tileOf s' t).poison, soft := (tileOf s' t).soft, summary := (tileOf s' t).summary, vec := rest,
        vAdj := none, samples := (tileOf s' t).samples } ∧
      (∀ u, u ≠ t → tileOf s' u = tileOf s u) ∧ s'.stk = s.stk)) ∧
  (∀ (t av sn pc : Nat) (w : BitVec 56) (sv : Word) (rest : List VecOp) (f : Nat × Nat × Nat) (ok : Bool) (s : State),
    vecFault s t (tileOf s t) w av false = some f → Claim.vectorHead s t 0x80 w av sv rest sn pc → (tileOf s t).seq = .running → Claim.memoryFaults t pc f ok s) ∧
  (∀ (t av sn pc : Nat) (w : BitVec 56) (sv : Word) (rest : List VecOp) (f : Nat × Nat × Nat) (ok : Bool) (s : State),
    vecFault s t (tileOf s t) w av true = some f → Claim.vectorHead s t 0x81 w av sv rest sn pc → (tileOf s t).seq = .running → Claim.memoryFaults t pc f ok s) ∧
  (∀ (t av sn pc e : Nat) (w : BitVec 56) (sv : Word) (rest : List VecOp) (ok : Bool) (s : State),
    vecFault s t (tileOf s t) w av true = none → vFn w = 0 → vTy w = 0 ∨ vTy w = 2 → e < 64 → (tileOf s t).active w e = true → (tileOf s t).lanePois (vVa w) e = true →
    (∀ l, l < e → (tileOf s t).active w l = true → (tileOf s t).lanePois (vVa w) l = false) → Claim.vectorHead s t 0x81 w av sv rest sn pc → (tileOf s t).seq = .running → Claim.memoryFaults t pc (0x42, 0, e) ok s)

/-- Vector instructions that move elements. -/
def Obligations.VectorMoves : Prop := Claim.VectorMovesAndMasks ∧ Claim.VectorMemory

/-! ### What holds back every instruction of a tile (R56 to R59, R81, R82, R86) -/

/-- What issue must know of an instruction: how it is made, its words, whether its reserved fields and field values are accepted, the scalar and predicate registers it
names, and the counter it posts to. -/
structure Sys2Proof.Claim.Gate where
  make : Nat → BitVec 56 → Word → Instr
  words : Nat
  fields : BitVec 56 → Word → Bool
  scalars : BitVec 56 → List Nat
  predicates : BitVec 56 → List Nat
  post : BitVec 56 → Option Nat

/-- The reserved fields of format S, and the registers that it names (R59). -/
def Sys2Proof.Claim.fieldsS (w : BitVec 56) : Bool := bits w 35 32 == 0 && (!fIm w || fSb w == 0)

def Sys2Proof.Claim.readsS (w : BitVec 56) : List Nat := [fSd w, fSa w] ++ (if fIm w then [] else [fSb w])

/-- The scalar, memory and synchronisation instructions (R48, R59 to R79, R195). -/
def Sys2Proof.Claim.scalarGates : List Claim.Gate := [
  ⟨(fun t w _ => .nop t w), 1, (fun w _ => Claim.zeroJ w), (fun _ => []), (fun _ => []), (fun _ => none)⟩,
  ⟨(fun t w _ => .endProg t w), 1, (fun w _ => Claim.zeroJ w), (fun _ => []), (fun _ => []), (fun _ => none)⟩,
  ⟨(fun t w _ => .br t w), 1, (fun w _ => Claim.zeroJ w), (fun _ => []), (fun _ => []), (fun _ => none)⟩,
  ⟨(fun t w _ => .jr t w), 1, (fun w _ => Claim.zeroJ w), (fun w => [fSa w]), (fun _ => []), (fun _ => none)⟩,
  ⟨(fun t w _ => .loop t w), 1, (fun w _ => Claim.zeroJ w && bits w 31 8 == 0), (fun w => [fSa w]), (fun _ => []), (fun _ => none)⟩,
  ⟨(fun t w _ => .swFault t w), 1, (fun w _ => Claim.zeroJ w && bits w 31 16 == 0), (fun _ => []), (fun _ => []), (fun _ => none)⟩,
  ⟨(fun t w _ => .mfs t w), 1, (fun w _ => Claim.fieldsS w && [0, 1, 2, 3, 4, 5, 6, 16, 17].contains (bits w 5 0)), (fun w => [fSd w]), (fun _ => []), (fun _ => none)⟩,
  ⟨(fun t w _ => .add t w), 1, (fun w _ => Claim.fieldsS w), Claim.readsS, (fun _ => []), (fun _ => none)⟩,
  ⟨(fun t w _ => .sub t w), 1, (fun w _ => Claim.fieldsS w), Claim.readsS, (fun _ => []), (fun _ => none)⟩,
  ⟨(fun t w _ => .andd t w), 1, (fun w _ => Claim.fieldsS w), Claim.readsS, (fun _ => []), (fun _ => none)⟩,
  ⟨(fun t w _ => .orr t w), 1, (fun w _ => Claim.fieldsS w), Claim.readsS, (fun _ => []), (fun _ => none)⟩,
  ⟨(fun t w _ => .xorr t w), 1, (fun w _ => Claim.fieldsS w), Claim.readsS, (fun _ => []), (fun _ => none)⟩,
  ⟨(fun t w _ => .shl t w), 1, (fun w _ => Claim.fieldsS w), Claim.readsS, (fun _ => []), (fun _ => none)⟩,
  ⟨(fun t w _ => .shr t w), 1, (fun w _ => Claim.fieldsS w), Claim.readsS, (fun _ => []), (fun _ => none)⟩,
  ⟨(fun t w _ => .sra t w), 1, (fun w _ => Claim.fieldsS w), Claim.readsS, (fun _ => []), (fun _ => none)⟩,
  ⟨(fun t w _ => .mul t w), 1, (fun w _ => Claim.fieldsS w), Claim.readsS, (fun _ => []), (fun _ => none)⟩,
  ⟨(fun t w _ => .minS t w), 1, (fun w _ => Claim.fieldsS w), Claim.readsS, (fun _ => []), (fun _ => none)⟩,
  ⟨(fun t w _ => .maxS t w), 1, (fun w _ => Claim.fieldsS w), Claim.readsS, (fun _ => []), (fun _ => none)⟩,
  ⟨(fun t w _ => .lih t w), 1, (fun w _ => Claim.fieldsS w && fIm w), Claim.readsS, (fun _ => []), (fun _ => none)⟩,
  ⟨(fun t w _ => .cmp t w), 1, (fun w _ => bits w 33 32 == 0 && decide (qCc w ≤ 13)), (fun w => qSa w :: (if qIm w then [] else [qSb w])), (fun w => [qPd w]), (fun _ => none)⟩,
  ⟨(fun t w _ => .plog t w), 1, (fun w _ => bits w 39 0 == 0 && bits w 42 40 != 7), (fun _ => []), (fun w => [qPd w, bits w 48 46, bits w 45 43]), (fun _ => none)⟩,
  ⟨(fun t w _ => .fadd t w), 1, (fun w _ => Claim.fieldsS w), Claim.readsS, (fun _ => []), (fun _ => none)⟩,
  ⟨(fun t w _ => .fmul t w), 1, (fun w _ => Claim.fieldsS w), Claim.readsS, (fun _ => []), (fun _ => none)⟩,
  ⟨(fun t w _ => .fma t w), 1, (fun w _ => Claim.fieldsS w && !fIm w), Claim.readsS, (fun _ => []), (fun _ => none)⟩,
  ⟨(fun t w _ => .fcvt t w), 1, (fun w _ => bits w 36 32 == 0 && decide (fSb w ≤ 1)), (fun w => [fSd w, fSa w]), (fun _ => []), (fun _ => none)⟩,
  ⟨(fun t w _ => .aaddr t w), 1, (fun w _ => bits w 35 32 == 0), (fun w => [aSs w]), (fun _ => []), (fun _ => none)⟩,
  ⟨(fun t w _ => .mova t w), 1, (fun w _ => bits w 34 32 == 0), (fun w => [aSs w]), (fun _ => []), (fun _ => none)⟩,
  ⟨(fun t w _ => .lds t w), 1, (fun w _ => bits w 38 32 == 0), (fun w => [lSt w]), (fun _ => []), (fun _ => none)⟩,
  ⟨(fun t w _ => .sts t w), 1, (fun w _ => bits w 38 32 == 0 && !lSx w), (fun w => [lSt w]), (fun _ => []), (fun _ => none)⟩,
  ⟨(fun t w _ => .copy t w), 1, (fun w _ => bits w 29 20 == 0 && (if mSl w = 0 then decide (0 < mLen w) && mLen w % 8 == 0 && decide (mLen w ≤ 0xFFFF8) else mLen w == 0)), (fun w => [mSl w]), (fun _ => []), mPost⟩,
  ⟨(fun t w _ => .copy2d t w), 1, (fun w _ => bits w 29 20 == 0 && mLen w == 0 && mSl w != 0 && mSl w % 4 == 0), (fun w => [mSl w, mSl w + 1, mSl w + 2, mSl w + 3]), (fun _ => []), mPost⟩,
  ⟨(fun t w _ => .fill t w), 1, (fun w _ => bits w 29 20 == 0 && mAs w == 0 && !mSsp w && decide (0 < mLen w) && mLen w % 8 == 0 && decide (mLen w ≤ 0xFFFF8)), (fun w => [mSl w]), (fun _ => []), mPost⟩,
  ⟨(fun t w _ => .fence t w), 1, (fun w _ => bits w 51 0 == 0), (fun _ => []), (fun _ => []), (fun _ => none)⟩,
  ⟨(fun t w _ => .waitk t w), 1, (fun w _ => bits w 31 0 == 0 && bits w 47 32 != 0), (fun _ => []), (fun _ => []), (fun _ => none)⟩,
  ⟨(fun t w _ => .postk t w), 1, (fun w _ => bits w 31 0 == 0 && bits w 47 32 != 0), (fun _ => []), (fun _ => []), (fun _ => none)⟩,
  ⟨(fun t w _ => .waitw t w), 1, (fun w _ => bits w 30 0 == 0 && [0, 1, 6, 9].contains (bits w 48 45)), (fun w => [bits w 40 36, bits w 35 31]), (fun w => [bits w 51 49]), (fun _ => none)⟩,
  ⟨(fun t w _ => .aadd t w), 1, (fun w _ => bits w 37 33 == 0 && bits w 31 0 == 0), (fun w => [fSd w, bits w 42 38]), (fun _ => []), (fun _ => none)⟩,
  ⟨(fun t w _ => .aswap t w), 1, (fun w _ => bits w 37 33 == 0 && bits w 31 0 == 0), (fun w => [fSd w, bits w 42 38]), (fun _ => []), (fun _ => none)⟩,
  ⟨(fun t w _ => .acas t w), 1, (fun w _ => bits w 31 0 == 0), (fun w => [fSd w, bits w 42 38, bits w 37 33]), (fun _ => []), (fun _ => none)⟩,
  ⟨(fun t w _ => .rdk t w), 1, (fun w _ => bits w 42 0 == 0), (fun w => [fSd w]), (fun _ => []), (fun _ => none)⟩,
  ⟨(fun t w _ => .dqpush t w), 1, (fun w _ => bits w 39 0 == 0), (fun w => [bits w 44 40]), (fun w => [bits w 51 49]), (fun _ => none)⟩,
  ⟨(fun t w _ => .dqlen t w), 1, (fun w _ => bits w 46 0 == 0), (fun w => [fSd w]), (fun _ => []), (fun _ => none)⟩,
  ⟨(fun t w _ => .cgabort t w), 1, (fun w _ => bits w 51 0 == 0), (fun _ => []), (fun _ => []), (fun _ => none)⟩,
  ⟨(fun t w _ => .cgstat t w), 1, (fun w _ => bits w 46 0 == 0), (fun w => [fSd w]), (fun _ => []), (fun _ => none)⟩]

/-- The two-word instructions of the matrix arrays (R62, R111, R193). -/
def Sys2Proof.Claim.matrixGates : List Claim.Gate := [
  ⟨.mopen, 2, (fun w w1 => !bit w 36 && bits w 27 23 == 0 && bits w 17 0 == 0 && bits w1 55 0 == 0 && xArr w != 3 && bits w 39 38 != 3), (fun _ => []), (fun _ => []), xPost⟩,
  ⟨.mma, 2, (fun w w1 => bits w 17 0 == 0 && bits w1 5 0 == 0 && bits w 27 26 != 3 && bits w 25 24 != 3 && xArr w != 3), (fun _ => []), (fun _ => []), xPost⟩,
  ⟨.mma2, 2, (fun w w1 => bits w 17 0 == 0 && bits w1 5 0 == 0 && bits w 27 26 != 3 && bits w 25 24 != 3), (fun _ => []), (fun _ => []), xPost⟩,
  ⟨.mabort, 2, (fun w w1 => !bit w 36 && bits w 27 23 == 0 && bits w 17 0 == 0 && bits w1 55 0 == 0 && xArr w != 3), (fun _ => []), (fun _ => []), xPost⟩,
  ⟨.lmma, 2, (fun w w1 => bits w 17 0 == 0 && bits w1 5 0 == 0 && bits w 27 26 != 3 && bits w 25 24 != 3 && xArr w != 3), (fun _ => []), (fun _ => []), xPost⟩,
  ⟨.dclose, 2, (fun w w1 => bits w 19 0 == 0 && bits w1 31 0 == 0 && xArr w != 3 && bits w 38 37 != 3 && decide (bits w 35 32 ≤ 8) && bits w 31 30 != 3 && decide (bits w 27 25 ≤ 4) && (!bit w 28 || xArr w == 1)), (fun _ => []), (fun _ => []), dPost⟩,
  ⟨.dkeep, 2, (fun w w1 => bits w 19 0 == 0 && bits w1 31 0 == 0 && xArr w != 3 && bits w 38 37 != 3 && decide (bits w 35 32 ≤ 8) && bits w 31 30 != 3 && decide (bits w 27 25 ≤ 4) && (!bit w 28 || xArr w == 1)), (fun _ => []), (fun _ => []), dPost⟩,
  ⟨.lclose, 2, (fun w w1 => bits w 19 0 == 0 && bits w1 31 0 == 0 && xArr w != 3 && (bits w 42 39 == L12 || bits w 42 39 == FP32) && bits w 38 37 == 0 && decide (bits w 31 30 ≤ 1) && decide (bits w 35 32 ≤ 1) && !bit w 28 && bits w 27 25 == 0 && !bit w 36), (fun _ => []), (fun _ => []), dPost⟩]

/-- The vector instructions (R59, R112 to R126). -/
def Sys2Proof.Claim.vectorGates : List Claim.Gate := [
  ⟨(fun t w _ => .vld t w), 1, (fun w _ => bits w 15 0 == 0 && vTy w != 3 && decide (vFn w ≤ 2)), (fun _ => []), (fun _ => []), vPost⟩,
  ⟨(fun t w _ => .vst t w), 1, (fun w _ => bits w 15 0 == 0 && vTy w != 3 && decide (vFn w ≤ 2) && vVd w == 0), (fun _ => []), (fun _ => []), vPost⟩,
  ⟨(fun t w _ => .vsplat t w), 1, (fun w _ => bits w 15 0 == 0 && vTy w != 3), (fun w => [vSs w]), (fun _ => []), vPost⟩,
  ⟨(fun t w _ => .vmovs t w), 1, (fun w _ => bits w 15 0 == 0 && vTy w != 3), (fun w => [vSs w]), (fun _ => []), vPost⟩,
  ⟨(fun t w _ => .vcmp t w), 1, (fun w _ => bits w 15 0 == 0 && vTy w != 3 && decide (vFn w ≤ 13) && (decide (vFn w ≤ 9) == (vTy w == 2))), (fun _ => []), (fun _ => []), vPost⟩,
  ⟨(fun t w _ => .vmlog t w), 1, (fun w _ => bits w 15 0 == 0 && decide (vFn w ≤ 6) && decide (vVa w ≤ 3) && decide (vVb w ≤ 3) && !vMu w), (fun _ => []), (fun _ => []), vPost⟩,
  ⟨(fun t w _ => .vadd t w), 1, (fun w _ => bits w 15 0 == 0 && vTy w != 3), (fun _ => []), (fun _ => []), vPost⟩,
  ⟨(fun t w _ => .vsub t w), 1, (fun w _ => bits w 15 0 == 0 && vTy w != 3), (fun _ => []), (fun _ => []), vPost⟩,
  ⟨(fun t w _ => .vmul t w), 1, (fun w _ => bits w 15 0 == 0 && vTy w != 3), (fun _ => []), (fun _ => []), vPost⟩,
  ⟨(fun t w _ => .vfma t w), 1, (fun w _ => bits w 15 0 == 0 && vTy w != 3), (fun _ => []), (fun _ => []), vPost⟩,
  ⟨(fun t w _ => .vmax t w), 1, (fun w _ => bits w 15 0 == 0 && vTy w != 3), (fun _ => []), (fun _ => []), vPost⟩,
  ⟨(fun t w _ => .vmin t w), 1, (fun w _ => bits w 15 0 == 0 && vTy w != 3), (fun _ => []), (fun _ => []), vPost⟩,
  ⟨(fun t w _ => .vsel t w), 1, (fun w _ => bits w 15 0 == 0 && vTy w != 3 && !vMu w), (fun _ => []), (fun _ => []), vPost⟩,
  ⟨(fun t w _ => .vfunc t w), 1, (fun w _ => bits w 15 0 == 0 && vTy w != 3 && decide (vFn w ≤ 7)), (fun _ => []), (fun _ => []), vPost⟩,
  ⟨(fun t w _ => .vrot t w), 1, (fun w _ => bits w 15 0 == 0 && vTy w != 3), (fun _ => []), (fun _ => []), vPost⟩,
  ⟨(fun t w _ => .vred t w), 1, (fun w _ => bits w 15 0 == 0 && vTy w != 3 && decide (vFn w % 8 ≤ 5)), (fun _ => []), (fun _ => []), vPost⟩,
  ⟨(fun t w _ => .vscan t w), 1, (fun w _ => bits w 15 0 == 0 && vTy w != 3), (fun _ => []), (fun _ => []), vPost⟩,
  ⟨(fun t w _ => .vcvt t w), 1, (fun w _ => bits w 15 0 == 0 && vTy w != 3), (fun _ => []), (fun _ => []), vPost⟩,
  ⟨(fun t w _ => .vrng t w), 1, (fun w _ => bits w 15 0 == 0 && vTy w != 3), (fun w => [vSs w]), (fun _ => []), vPost⟩,
  ⟨(fun t w _ => .vsample t w), 1, (fun w _ => bits w 15 0 == 0 && vTy w != 3), (fun w => [vSs w]), (fun _ => []), vPost⟩]

/-- Every instruction of the opcode map. -/
def Sys2Proof.Claim.instructions : List Claim.Gate := Claim.scalarGates ++ Claim.matrixGates ++ Claim.vectorGates

/-- Row k of the instructions as a command on tile t. -/
def Sys2Proof.Claim.gate (k : Nat) : Claim.Gate := Claim.instructions.getD k ⟨fun t w _ => .nop t w, 1, fun w _ => Claim.zeroJ w, fun _ => [], fun _ => [], fun _ => none⟩

/-- The second word of a two-word instruction carries 0xFF (R56). -/
def Sys2Proof.Claim.paired (g : Claim.Gate) (w1 : Word) : Bool := g.words == 1 || bits w1 63 56 == 0xFF

/-- What holds back each instruction of the map, in this order, before its own rule counts. A tile that does not run issues nothing. A word outside the code region faults
with CODE_RANGE, a poisoned one with POISON, a missing second word with ILLEGAL_OPCODE, a reserved field or field value with RESERVED_FIELD, each at its PC (R56, R59,
R60, R86). A register still to be written holds issue (R82). A false guard leaves its effect out: it posts and moves on (R56, R74). -/
def Obligations.EveryInstructionIsGated : Prop :=
  (∀ (k t : Nat) (w : BitVec 56) (w1 : Word) (s : State), k < 72 → running s = false ∨ (tileOf s t).seq ≠ .running → exec ((Claim.gate k).make t w w1) s = .next s) ∧
  (∀ (k t : Nat) (w : BitVec 56) (w1 : Word) (s : State), k < 72 → running s = true → (tileOf s t).seq = .running →
    (tileOf s t).pcOutside (tileOf s t).pc = true ∨ (Claim.gate k).words = 2 ∧ (tileOf s t).pcOutside ((tileOf s t).pc + 8) = true →
    Claim.faults ((Claim.gate k).make t w w1) t { code := 0x03 } s) ∧
  (∀ (k t : Nat) (w : BitVec 56) (w1 : Word) (s : State), k < 72 → running s = true → (tileOf s t).seq = .running →
    (tileOf s t).pcOutside (tileOf s t).pc = false → ((Claim.gate k).words = 2 → (tileOf s t).pcOutside ((tileOf s t).pc + 8) = false) →
    ((tileOf s t).fetched 0).2 = true ∨ (Claim.gate k).words = 2 ∧ ((tileOf s t).fetched 1).2 = true →
    Claim.faults ((Claim.gate k).make t w w1) t { code := 0x07 } s) ∧
  (∀ (k t : Nat) (w : BitVec 56) (w1 : Word) (s : State), k < 72 → Claim.canFetch s t (Claim.gate k).words = true → Claim.paired (Claim.gate k) w1 = false →
    Claim.faults ((Claim.gate k).make t w w1) t { code := 0x01 } s) ∧
  (∀ (k t : Nat) (w : BitVec 56) (w1 : Word) (s : State), k < 72 → Claim.canFetch s t (Claim.gate k).words = true → Claim.paired (Claim.gate k) w1 = true →
    (Claim.gate k).fields w w1 = false → Claim.faults ((Claim.gate k).make t w w1) t { code := 0x02 } s) ∧
  (∀ (k t : Nat) (w : BitVec 56) (w1 : Word) (s : State), k < 72 → Claim.canFetch s t (Claim.gate k).words = true → Claim.paired (Claim.gate k) w1 = true →
    (Claim.gate k).fields w w1 = true → Claim.ready (tileOf s t) w ((Claim.gate k).scalars w) ((Claim.gate k).predicates w) = false →
    exec ((Claim.gate k).make t w w1) s = .next s) ∧
  (∀ (k t : Nat) (w : BitVec 56) (w1 : Word) (s : State), k < 72 → Claim.canFetch s t (Claim.gate k).words = true → Claim.paired (Claim.gate k) w1 = true →
    (Claim.gate k).fields w w1 = true → Claim.ready (tileOf s t) w ((Claim.gate k).scalars w) ((Claim.gate k).predicates w) = true → guardOf (tileOf s t) w = false →
    ((Claim.gate k).post w = none → Claim.leaves ((Claim.gate k).make t w w1) t (Claim.gate k).words (tileOf s t) s) ∧
    (∀ c, (Claim.gate k).post w = some c → (tileOf s t).kr c < 65535 →
      Claim.leaves ((Claim.gate k).make t w w1) t (Claim.gate k).words ((tileOf s t).setK c ((tileOf s t).kr c + 1)) s))

/-! ### What register writes, events and frames leave alone -/

/-- Every register whose offset is not listed holds what it held. -/
def Sys2Proof.Claim.regsKeep (offs : List Nat) (s s' : State) : Prop := ∀ r : Reg, offs.contains r.off = false → rget s' r = rget s r

/-- Only registers move, and of those only the ones listed. -/
def Sys2Proof.Claim.onlyRegs (offs : List Nat) (s s' : State) : Prop := s' = { s with regs := s'.regs } ∧ Claim.regsKeep offs s s'

/-- The registers that the record of an event may change (R410, R411, R383). -/
def Sys2Proof.Claim.eventRegs : List Nat :=
  [(reg .ERR_HEAD).off, (reg .ERR_COUNT).off, (reg .ERR_PORT_LOST).off] ++ (List.range 8).map (fun c => (reg .MBX_CPL_OVF c).off)

/-- One event was recorded: its entry stands at the old head of the ring, the head and the count went on by one (R410, R411). -/
def Sys2Proof.Claim.recorded (code die src : Nat) (a b : Word) (s s' : State) : Prop :=
  SMap.get [] s'.rec_.log (rbits s (reg .ERR_HEAD) 17 0) = recordWords s code die src a b ++ [0#64, 0#64, 0#64, 0#64] ∧
  rbits s' (reg .ERR_HEAD) 17 0 = (rbits s (reg .ERR_HEAD) 17 0 + 1) % errEntries ∧
  rbits s' (reg .ERR_COUNT) 47 0 = (rbits s (reg .ERR_COUNT) 47 0 + 1) % 2 ^ 48

/-- Only an event was recorded: no tile, no stack byte, no register but those of the record. -/
def Sys2Proof.Claim.onlyRecorded (code die src : Nat) (a b : Word) (s s' : State) : Prop :=
  Claim.recorded code die src a b s s' ∧ s' = { s with regs := s'.regs, rec_ := s'.rec_, cox := { s.cox with async := s'.cox.async } } ∧
  Claim.regsKeep Claim.eventRegs s s'

/-! ### Tensor scales, thresholds and the schedule (R157 to R159, R185, R195, R264 to R268) -/

/-- Writes of the deferred registers take the writable bits of their data and change nothing in force (R158, R173, R185, R195); a spill region
that leaves stack memory is refused and recorded (R195); a swap request sets its bit (R267). -/
def Sys2Proof.Claim.DeferredWrites : Prop :=
  (∀ (q : Req) (id : Nat) (v : Word) (s : State), id < 4096 → Claim.completes (.tscNextWrite q id v) s (fun s' =>
    rbits s' (reg .TSC_NEXT id) 31 0 = bits v 31 0 ∧ Claim.onlyRegs [(reg .TSC_NEXT id).off] s s')) ∧
  (∀ (q : Req) (id : Nat) (v : Word) (s : State), id < 4096 → Claim.completes (.tscCtlWrite q id v) s (fun s' =>
    rbits s' (reg .TSC_CTL id) 13 0 = bits v 13 0 ∧ rbits s' (reg .TSC_CTL id) 31 14 = rbits s (reg .TSC_CTL id) 31 14 ∧
    rbits s' (reg .TSC_CTL id) 63 32 = bits v 63 32 ∧ effReg s' (reg .TSC_CTL id) = effReg s (reg .TSC_CTL id) ∧ Claim.onlyRegs [(reg .TSC_CTL id).off] s s')) ∧
  (∀ (q : Req) (id : Nat) (v : Word) (s : State), id < 4096 → Claim.completes (.bltEntryWrite q (reg .BLT_THR id).off v) s (fun s' =>
    rbits s' (reg .BLT_THR id) 53 0 = bits v 53 0 ∧ rbits s' (reg .BLT_THR id) 63 56 = bits v 63 56 ∧ Claim.onlyRegs [(reg .BLT_THR id).off] s s')) ∧
  (∀ (q : Req) (id : Nat) (v : Word) (s : State), id < 4096 → Claim.completes (.bltEntryWrite q (reg .BLT_GUARD id).off v) s (fun s' =>
    rbits s' (reg .BLT_GUARD id) 7 0 = bits v 7 0 ∧ rbits s' (reg .BLT_GUARD id) 63 8 = rbits s (reg .BLT_GUARD id) 63 8 ∧ Claim.onlyRegs [(reg .BLT_GUARD id).off] s s')) ∧
  (∀ (q : Req) (l : Nat) (v : Word) (s : State), l < 256 → Claim.completes (.bltEntryWrite q (reg .BLT_LAYER l).off v) s (fun s' =>
    rbits s' (reg .BLT_LAYER l) 1 0 = bits v 1 0 ∧ rbits s' (reg .BLT_LAYER l) 63 2 = rbits s (reg .BLT_LAYER l) 63 2 ∧ Claim.onlyRegs [(reg .BLT_LAYER l).off] s s')) ∧
  (∀ (q : Req) (id : Nat) (v : Word) (s : State), id < 4096 → bits v 47 10 * 1024 + bits v 59 48 * 0xC00 ≤ stackTop →
    Claim.completes (.bltSpillWrite q id v) s (fun s' => rbits s' (reg .BLT_SPILL id) 59 10 = bits v 59 10 ∧ Claim.onlyRegs [(reg .BLT_SPILL id).off] s s')) ∧
  (∀ (q : Req) (id : Nat) (v : Word) (s : State), id < 4096 → stackTop < bits v 47 10 * 1024 + bits v 59 48 * 0xC00 →
    Claim.completes (.bltSpillWrite q id v) s (fun s' => Claim.onlyRecorded 0x0F08 0xFF (Req.code q) (w64 ((reg .BLT_SPILL id).off)) v s s')) ∧
  (∀ (q : Req) (s : State), Claim.completes (.schedSwapRequest q) s (fun s' =>
    bit (rget s' (reg .SCHED_CTL)) 1 = true ∧ bit (rget s' (reg .SCHED_CTL)) 0 = bit (rget s (reg .SCHED_CTL)) 0 ∧ Claim.onlyRegs [(reg .SCHED_CTL).off] s s'))

/-- A segment entry of the inactive bank takes its data whole; one of the active bank is refused and recorded (R267). -/
def Sys2Proof.Claim.SegmentWrites : Prop :=
  (∀ (q : Req) (k j : Nat) (v : Word) (s : State), k < 16 → j < 4 → bit (rget s (reg .SCHED_CTL)) 0 = true →
    Claim.completes (.schedSegWrite q (reg .SCHED_SEG_A k j).off v) s (fun s' => rget s' (reg .SCHED_SEG_A k j) = v ∧ Claim.onlyRegs [(reg .SCHED_SEG_A k j).off] s s')) ∧
  (∀ (q : Req) (k j : Nat) (v : Word) (s : State), k < 16 → j < 4 → bit (rget s (reg .SCHED_CTL)) 0 = false →
    Claim.completes (.schedSegWrite q (reg .SCHED_SEG_B k j).off v) s (fun s' => rget s' (reg .SCHED_SEG_B k j) = v ∧ Claim.onlyRegs [(reg .SCHED_SEG_B k j).off] s s')) ∧
  (∀ (q : Req) (k j : Nat) (v : Word) (s : State), k < 16 → j < 4 → bit (rget s (reg .SCHED_CTL)) 0 = false →
    Claim.completes (.schedSegWrite q (reg .SCHED_SEG_A k j).off v) s (Claim.onlyRecorded 0x0F08 0xFF (Req.code q) (w64 (reg .SCHED_SEG_A k j).off) v s)) ∧
  (∀ (q : Req) (k j : Nat) (v : Word) (s : State), k < 16 → j < 4 → bit (rget s (reg .SCHED_CTL)) 0 = true →
    Claim.completes (.schedSegWrite q (reg .SCHED_SEG_B k j).off v) s (Claim.onlyRecorded 0x0F08 0xFF (Req.code q) (w64 (reg .SCHED_SEG_B k j).off) v s))

/-- A request for a step advance waits; with fifteen waiting behind the one in progress it is refused and recorded (R264). At the advance S grows by one or takes the
value set for it, every tile's scale cache is empty, the reports are taken, a mirror write that fails shows in TSC_ERR, and the base dies wait for the new values (R159,
R264, R268); with a drain in the middle of a tile it waits. Their delivery gives a base die that waits S, the learning rate and the weight-decay factor (R268). -/
def Obligations.StepAdvances : Prop :=
  (∀ (q : Req) (s : State), s.blt.advWait.length < 16 → Claim.completes (.stepAdvanceRequest q) s (fun s' =>
    s'.blt = { s.blt with advWait := s.blt.advWait ++ [none] } ∧ rget s' (reg .SCHED_PEND) = w64 s.blt.advWait.length ∧
    s' = { s with blt := s'.blt, regs := s'.regs } ∧ Claim.regsKeep [(reg .SCHED_PEND).off] s s')) ∧
  (∀ (q : Req) (s : State), s.blt.advWait.length = 16 → Claim.completes (.stepAdvanceRequest q) s (Claim.onlyRecorded 0x0F07 0xFF (Req.code q) (w64 15) 0#64 s)) ∧
  (∀ (ok : Bool) (c : Option CmdRef) (w : List (Option CmdRef)) (s : State), advanceReady s = true → s.blt.advWait = c :: w →
    (∀ r ∈ s.blt.reports, r.tid < 4096) → (∀ e ∈ s.blt.hist, e.1 < 4096) → (∀ e ∈ s.blt.evt, e.1 < 4096) → SMap.wf ({} : Tile) s.tiles = true →
    Claim.completes (.stepAdvance ok) s (fun s' =>
      stepOf s' = (if bit (rget s (reg .SCHED_STEP_NEXT)) 63 then rbits s (reg .SCHED_STEP_NEXT) 47 0 else (stepOf s + 1) % 2 ^ 48) ∧
      bit (rget s' (reg .SCHED_STEP_NEXT)) 63 = false ∧
      rbits s' (reg .TSC_ADV) 47 0 = (rbits s (reg .TSC_ADV) 47 0 + 1) % 2 ^ 48 ∧ rget s' (reg .TSC_ADV_EPOCH) = dieEpoch s 0 ∧
      s'.blt.reports = [] ∧ s'.blt.advWait = w ∧ (bit (rget s (reg .TSC_MIRROR)) 0 = false ∨ ok = false → s'.stk = s.stk) ∧
      (bit (rget s (reg .TSC_MIRROR)) 0 = true → ok = false → bit (rget s' (reg .TSC_ERR)) 0 = true) ∧
      (∀ t, t < numTiles → (tileOf s' t).cache = [] ∧ (tileOf s' t).mem = (tileOf s t).mem ∧ (tileOf s' t).pc = (tileOf s t).pc) ∧
      (∀ n, n < 8 → (SMap.get ({} : BaseDie) s'.bn n).held = true ∧
        (bit (rget s (reg .TSC_MIRROR)) 0 = false ∨ ok = false → (SMap.get ({} : BaseDie) s'.bn n).jobs = (SMap.get ({} : BaseDie) s.bn n).jobs)))) ∧
  (∀ (ok : Bool) (s : State), advanceReady s = false → exec (.stepAdvance ok) s = .next s) ∧
  (∀ (n : Nat) (b : BaseDie) (s : State), SMap.get ({} : BaseDie) s.bn n = b → b.held = true →
    Claim.completes (.stepValuesDelivery n) s (fun s' =>
      SMap.get ({} : BaseDie) s'.bn n = { b with held := false, lr := (rget s (reg .SCHED_LR)).truncate 32, wdf := BitVec.ofNat 32 (rbits s (reg .SCHED_LR) 63 32), step := stepOf s } ∧
      s' = { s with bn := s'.bn } ∧ ∀ m, m ≠ n → SMap.get ({} : BaseDie) s'.bn m = SMap.get ({} : BaseDie) s.bn m)) ∧
  (∀ (n : Nat) (s : State), (SMap.get ({} : BaseDie) s.bn n).held = false → exec (.stepValuesDelivery n) s = .next s)

/-! ### Commit groups and regions (R210 to R217) -/

/-- A committing group none of whose pages waits for a stack flips them all and is committed (R215); one whose lines were all written moves no byte. Frozen work commits
nothing (R369), nor does a group that is not committing or waits. A region's restore ends with its registers cleared or declared anew, and every page of it current (R210). -/
def Obligations.GroupsFlip : Prop :=
  (∀ (g : Nat) (s : State), g < 16 → s.gate.frozen = false → cgState s g = 1 → (cgOf s g).internal = false → groupWaits s g = false → (cgOf s g).cmd = none →
    ((cgOf s g).pages.map (fun e => e.1)).Nodup →
    Claim.completes (.commitFlip g) s (fun s' =>
      cgState s' g = 2 ∧ (cgOf s' g).pages = [] ∧ rget s' (reg .CG_EPOCH g) = coxEpoch s ∧
      (∀ p, SMap.get false s'.shadow p = (if (cgOf s g).pages.any (fun e => e.1 == p) then !SMap.get false s.shadow p else SMap.get false s.shadow p)) ∧
      (∀ u, (tileOf s' u).mem = (tileOf s u).mem) ∧ (∀ h, h ≠ g → cgOf s' h = cgOf s h) ∧
      ((∀ e ∈ (cgOf s g).pages, e.2 = BitVec.allOnes 64) →
        s' = { s with regs := s'.regs, groups := s'.groups, shadow := s'.shadow } ∧ Claim.regsKeep [(reg .CG_STATE g).off, (reg .CG_EPOCH g).off] s s'))) ∧
  (∀ (g : Nat) (s : State), s.gate.frozen = true ∨ cgState s g ≠ 1 ∨ (cgOf s g).internal = true ∨ groupWaits s g = true → exec (.commitFlip g) s = .next s) ∧
  (∀ (r : Nat) (x : Restore) (s : State), r < 32 → s.gate.frozen = false → s.restores = [x] → x.r = r → x.clear = true → s.shadow = [] →
    Claim.completes (.regionRestoreComplete r) s (fun s' =>
      s'.restores = [] ∧ rget s' (reg .SHR_BASE r) = 0#64 ∧ rget s' (reg .SHR_TWIN r) = 0#64 ∧ rget s' (reg .SHR_SIZE r) = 0#64 ∧
      s'.stk = s.stk ∧ s'.shadow = [] ∧ s'.tiles = s.tiles ∧ s'.groups = s.groups)) ∧
  (∀ (r : Nat) (x : Restore) (s : State), r < 32 → s.gate.frozen = false → s.restores = [x] → x.r = r → x.clear = false → s.shadow = [] →
    Claim.completes (.regionRestoreComplete r) s (fun s' =>
      s'.restores = [] ∧ rget s' (reg .SHR_BASE r) = w64 (x.base + 1) ∧ rget s' (reg .SHR_TWIN r) = w64 x.twin ∧ rget s' (reg .SHR_SIZE r) = w64 x.pages ∧
      s'.stk = s.stk ∧ s'.shadow = [] ∧ s'.tiles = s.tiles ∧ s'.groups = s.groups)) ∧
  (∀ (r : Nat) (x : Restore) (s : State), r < 32 → s.gate.frozen = false → s.restores = [x] → x.r = r →
    (∀ p, shrBase s r ≤ p * 4096 → p * 4096 < shrBase s r + shrPages s r * 4096 →
      stkWaits s (p * 4096) 4096 = false ∧ ∀ i, i < 16 → placeCritical s (physOf s (p * 4096 + i * 256)) = false) →
    Claim.completes (.regionRestoreComplete r) s (fun s' =>
      s'.restores = [] ∧ (∀ p, SMap.get false s'.shadow p =
        (SMap.get false s.shadow p && !(decide (shrBase s r ≤ p * 4096) && decide (p * 4096 < shrBase s r + shrPages s r * 4096)))) ∧ s'.tiles = s.tiles)) ∧
  (∀ (r : Nat) (s : State), s.gate.frozen = true ∨ s.restores = [] → exec (.regionRestoreComplete r) s = .next s)

/-! ### Stack controllers (R226 to R241, R409) -/

/-- A read of lines without errors answers the bytes of memory and changes none of them; one or two symbols in error of a line are corrected and counted in
STK_CE (R231); three or four poison what is delivered and are recorded (R232); one of an address that maps nothing reads 0 and is recorded (R13); a write inside one
line stores its bytes and no other, one outside stack memory is recorded (R226, R229). A stack at its critical step makes requests wait (R241). -/
def Obligations.StackRequests : Prop :=
  (∀ (q : Req) (cls dpa len : Nat) (late : Bool) (s : State), stkWaits s dpa len = false → (linesOf dpa len).all (fun l => stkPresent s l) = true → s.stk.flips = [] →
    Claim.completes (.stackReadRequest q cls dpa len [] late) s (fun s' =>
      s'.ports.rdata = rawBytes (stkPeek s dpa len) ∧ s'.ports.rpoison = anyPoison (stkPeek s dpa len) ∧
      s'.stk.mem = s.stk.mem ∧ s'.stk.flips = [] ∧ s'.tiles = s.tiles ∧ s'.shadow = s.shadow ∧ s'.groups = s.groups)) ∧
  (∀ (q : Req) (cls dpa p k : Nat) (errs : List (Nat × Nat)) (late : Bool) (s : State), stkWaits s dpa 64 = false → dpa % 64 = 0 → stkPresent s dpa = true → s.stk.flips = [] →
    p = physOf s (backing s false dpa) → serveStack s p < 8 → placeLost s p = false → k = lineErrs (errs.foldl (fun s e => hitLine (p / 64) e.1 e.2 s) s) (p / 64) → 1 ≤ k → k ≤ 2 → combOf s (p / 64) = none →
    SMap.get false s.stk.poison (p / 64) = false → assist s 8 = false →
    Claim.completes (.stackReadRequest q cls dpa 64 errs late) s (fun s' =>
      s'.ports.rdata = rawBytes (stkPeek s dpa 64) ∧ s'.ports.rpoison = false ∧ s'.stk.mem = s.stk.mem ∧ s'.stk.flips = [] ∧
      rbits s' (reg .STK_CE (serveStack s p)) 47 0 = (rbits s (reg .STK_CE (serveStack s p)) 47 0 + 1) % 2 ^ 48 ∧ s'.tiles = s.tiles)) ∧
  (∀ (q : Req) (cls dpa p k : Nat) (errs : List (Nat × Nat)) (late : Bool) (s : State), stkWaits s dpa 64 = false → dpa % 64 = 0 → stkPresent s dpa = true → s.stk.flips = [] →
    p = physOf s (backing s false dpa) → serveStack s p < 8 → placeLost s p = false → k = lineErrs (errs.foldl (fun s e => hitLine (p / 64) e.1 e.2 s) s) (p / 64) → 3 ≤ k → k ≤ 4 → assist s 8 = false →
    Claim.completes (.stackReadRequest q cls dpa 64 errs late) s (fun s' =>
      s'.ports.rpoison = true ∧ bit (rget s' (reg .STK_ERR (serveStack s p))) 0 = true ∧
      rbits s' (reg .STK_UE (serveStack s p)) 47 0 = (rbits s (reg .STK_UE (serveStack s p)) 47 0 + 1) % 2 ^ 48 ∧
      rget s' (reg .STK_ERR_ADDR (serveStack s p)) = w64 (errAddr (servePlace s (p / 64 * 64))) ∧ s'.stk.mem = s.stk.mem ∧ s'.tiles = s.tiles)) ∧
  (∀ (q : Req) (cls dpa len : Nat) (errs : List (Nat × Nat)) (late : Bool) (s : State), stkWaits s dpa len = false → (linesOf dpa len).all (fun l => stkPresent s l) = false →
    Claim.completes (.stackReadRequest q cls dpa len errs late) s (fun s' =>
      s'.ports.rdata = List.replicate len 0#8 ∧ s'.ports.rpoison = false ∧ Claim.recorded 0x0F03 0xFF (Req.code q) (w64 (dpa % 2 ^ 48)) 0#64 s s' ∧
      s' = { s with regs := s'.regs, rec_ := s'.rec_, ports := s'.ports, cox := { s.cox with async := s'.cox.async } })) ∧
  (∀ (q : Req) (dpa : Nat) (data : List Byte) (s : State), stkWaits s dpa data.length = false → dpa < stackTop → 0 < data.length → dpa % 64 + data.length ≤ 64 →
    stkPresent s dpa = true → placeLost s (physOf s (backing s false dpa)) = false → s.stk.flips = [] →
    Claim.completes (.stackWriteRequest q dpa data) s (fun s' =>
      (∀ i, i < data.length → SMap.get 0#8 s'.stk.mem (physOf s (backing s false dpa + i)) = nth 0#8 data i) ∧
      (∀ b, (∀ i, i < data.length → physOf s (backing s false dpa + i) ≠ b) → SMap.get 0#8 s'.stk.mem b = SMap.get 0#8 s.stk.mem b) ∧
      s'.tiles = s.tiles ∧ s'.shadow = s.shadow ∧ s'.groups = s.groups)) ∧
  (∀ (q : Req) (dpa : Nat) (data : List Byte) (s : State), stkWaits s dpa data.length = false → stackTop ≤ dpa →
    Claim.completes (.stackWriteRequest q dpa data) s (Claim.onlyRecorded 0x0F03 0xFF (Req.code q) (w64 (dpa % 2 ^ 48)) 0x100#64 s)) ∧
  (∀ (q : Req) (cls dpa len : Nat) (errs : List (Nat × Nat)) (late : Bool) (s : State), stkWaits s dpa len = true → exec (.stackReadRequest q cls dpa len errs late) s = .next s) ∧
  (∀ (q : Req) (dpa : Nat) (data : List Byte) (s : State), stkWaits s dpa data.length = true → exec (.stackWriteRequest q dpa data) s = .next s)

/-- A stack whose controller works: neither at its critical step nor lost (R241, R408). -/
def Sys2Proof.Claim.works (s : State) (n : Nat) : Bool := decide (n < 8) && !stackCritical s n && !stackLost s n

/-- The periodic work of a stack controller: a combining entry of a clean line times out into one read-modify-write, refresh takes at most four slots or eight from the
warm step on, a patrol of a clean stack counts its lines and one of a stack with one correctable error corrects it and counts it, a sample sets the thermal step, whose
entries and exits are three degrees apart (R226, R229, R231, R233, R241). A critical or lost stack does none of the first three. -/
def Sys2Proof.Claim.StackUpkeep : Prop :=
  (∀ (n : Nat) (e : Comb) (es : List Comb) (s : State), Claim.works s n = true → s.stk.wcb = e :: es → es.all (fun x => x.line != e.line) = true →
    serveStack s (e.line * 64) = n → s.stk.flips = [] → s.stk.rows = [] → SMap.get false s.stk.poison e.line = false → e.pois = 0#64 → e.use < 8 →
    Claim.completes (.combiningTimeout n) s (fun s' =>
      s'.stk = { s.stk with wcb := es } ∧ rbits s' (reg .STK_RMW n) 47 0 = (rbits s (reg .STK_RMW n) 47 0 + 1) % 2 ^ 48 ∧
      rbits s' (reg .STK_RD_LINES n) 47 0 = (rbits s (reg .STK_RD_LINES n) 47 0 + 1) % 2 ^ 48 ∧
      rbits s' (reg .STK_WR_LINES n) 47 0 = (rbits s (reg .STK_WR_LINES n) 47 0 + 1) % 2 ^ 48 ∧
      (rget s' (reg .PMC_STK_SLOT (n * 8 + e.use))).toNat = ((rget s (reg .PMC_STK_SLOT (n * 8 + e.use))).toNat + 2) % 2 ^ 64 ∧ s' = { s with stk := s'.stk, regs := s'.regs } ∧
      Claim.regsKeep [(reg .STK_RMW n).off, (reg .STK_RD_LINES n).off, (reg .STK_WR_LINES n).off, (reg .PMC_STK_SLOT (n * 8 + e.use)).off] s s')) ∧
  (∀ (n : Nat) (s : State), stackCritical s n = true ∨ stackLost s n = true ∨ s.stk.wcb = [] → exec (.combiningTimeout n) s = .next s) ∧
  (∀ (n pc : Nat) (s : State), Claim.works s n = true → pc < 64 →
    Claim.completes (.refresh n pc) s (fun s' =>
      (∃ k, k ≤ (if rbits s (reg .STK_TEMP n) 9 8 = 0 then 4 else 8) ∧
        (rget s' (reg .PMC_STK_SLOT (n * 8 + 5))).toNat = ((rget s (reg .PMC_STK_SLOT (n * 8 + 5))).toNat + k) % 2 ^ 64) ∧
      s' = { s with regs := s'.regs, fresh := s'.fresh } ∧ Claim.regsKeep [(reg .PMC_STK_SLOT (n * 8 + 5)).off] s s')) ∧
  (∀ (n pc : Nat) (s : State), Claim.works s n = false → exec (.refresh n pc) s = .next s) ∧
  (∀ (n : Nat) (met : Bool) (s : State), Claim.works s n = true → s.stk.flips = [] → s.stk.poison = [] → s.stk.wcb = [] →
    Claim.completes (.patrolScrub n [] met) s (fun s' =>
      (met = true → (rget s' (reg .PMC_STK_SLOT (n * 8 + 6))).toNat = ((rget s (reg .PMC_STK_SLOT (n * 8 + 6))).toNat + stackLines) % 2 ^ 64) ∧
      bit (rget s' (reg .STK_ERR n)) 3 = (!met || bit (rget s (reg .STK_ERR n)) 3) ∧ s' = { s with regs := s'.regs, fresh := s'.fresh } ∧
      Claim.regsKeep [(reg .PMC_STK_SLOT (n * 8 + 6)).off, (reg .STK_ERR n).off] s s')) ∧
  (∀ (n dpa wire beats k : Nat) (s : State), Claim.works s n = true → s.stk.flips = [] → s.stk.poison = [] → s.stk.wcb = [] → dpa < stackTop →
    serveStack s (physOf s dpa) = n → k = lineErrs (hitLine (physOf s dpa / 64) wire beats s) (physOf s dpa / 64) → 1 ≤ k → k ≤ 2 → assist s 8 = false →
    Claim.completes (.patrolScrub n [(dpa, wire, beats)] true) s (fun s' =>
      rbits s' (reg .STK_CE n) 47 0 = (rbits s (reg .STK_CE n) 47 0 + 1) % 2 ^ 48 ∧ s'.stk.flips = [] ∧ s'.stk.mem = s.stk.mem ∧ s'.tiles = s.tiles)) ∧
  (∀ (n : Nat) (errs : List (Nat × Nat × Nat)) (met : Bool) (s : State), Claim.works s n = false → exec (.patrolScrub n errs met) s = .next s) ∧
  (∀ (n : Nat) (temp : Int) (s : State), n < 8 →
    Claim.completes (.stackTempSample n temp) s (fun s' =>
      rbits s' (reg .STK_TEMP n) 9 8 = thermStep (rbits s (reg .STK_TEMP n) 9 8) temp ∧ rbits s' (reg .STK_TEMP n) 7 0 = ofSigned 8 temp ∧
      (thermStep (rbits s (reg .STK_TEMP n) 9 8) temp ≠ rbits s (reg .STK_TEMP n) 9 8 →
        Claim.recorded 0x0604 (n / 2) n (w64 (rbits s (reg .STK_TEMP n) 9 8 + thermStep (rbits s (reg .STK_TEMP n) 9 8) temp * 2 ^ 8)) (w64 (ofSigned 16 temp)) s s') ∧
      s'.stk = { s.stk with hot := s'.stk.hot } ∧ s' = { s with stk := s'.stk, regs := s'.regs, rec_ := s'.rec_, cox := { s.cox with async := s'.cox.async } })) ∧
  (∀ (c : Nat) (t : Int), c < 4 → (105 ≤ t → thermStep c t = 3) ∧ (t < 85 → c = 0 → thermStep c t = 0) ∧ (t ≤ 82 → thermStep c t = 0) ∧
    (c = 3 → 103 ≤ t → thermStep c t = 3) ∧ (c = 3 → t = 102 → thermStep c t = 2))

/-- A row's field spare is marked bad and given up before its next one is taken (R236). -/
def Sys2Proof.Claim.spareGivenUp (s : State) (k : Nat) : State :=
  { s with stk := { s.stk with
    badSpare := (match s.stk.remap.find? (fun e => e.1 == k) with | some e => SMap.put false s.stk.badSpare (keyBank k * 4 + e.2) true | none => s.stk.badSpare),
    remap := s.stk.remap.filter (fun e => e.1 != k) } }

/-- Repairs that the hardware makes itself, in cells that hold no errors: a failing row goes to the next field spare of its bank, where a spare that held it is bad; a
failing page to a reserve page, which is withdrawn; a failing channel is retired, with the next window withdrawn. Each ends its rows' entries and is recorded (R234 to
R239, R410). Without a failing row, or in a critical or lost stack, no repair runs. A lost stack's jobs end and it is recorded; a group with dirty pages there that is
still open aborts with cause 5 (R216, R217, R408, R409). -/
def Sys2Proof.Claim.StackRepairs : Prop :=
  (∀ (n pc bank row i k : Nat) (s : State), Claim.works s n = true → pc < 64 → bank < 16 → row < 0x10000 → assist s 8 = false → k = rowKey (n * 64 + pc) bank row →
    repairKind s k = 1 → rowFails s (fun x => x == k) = true → freeSpareRow (Claim.spareGivenUp s k) (keyBank k) = some i →
    s.cox.proposals.all (fun p => !p.decided) = true → s.stk.flips = [] → s.stk.poison = [] →
    Claim.completes (.rowRemap n pc bank row []) s (fun s' =>
      s'.stk.remap = SMap.set (Claim.spareGivenUp s k).stk.remap k i ∧ s'.stk.badSpare = (Claim.spareGivenUp s k).stk.badSpare ∧
      rowFails s' (fun x => x == k) = false ∧ rbits s' (reg .STK_REMAPS n) 47 0 = (rbits s (reg .STK_REMAPS n) 47 0 + 1) % 2 ^ 48 ∧
      bit (rget s' (reg .STK_ERR n)) 1 = true ∧ Claim.recorded 0x0602 (n / 2) n (w64 (1 + pc * 2 ^ 8)) 1#64 s s' ∧ s'.stk.mem = s.stk.mem ∧ s'.tiles = s.tiles)) ∧
  (∀ (n pc bank row : Nat) (errs : List (Nat × Nat × Nat)) (s : State),
    Claim.works s n = false ∨ rowFails s (fun x => x == rowKey (n * 64 + pc) bank row) = false ∨ repairKind s (rowKey (n * 64 + pc) bank row) ≠ 1 →
    exec (.rowRemap n pc bank row errs) s = .next s) ∧
  (∀ (n pc page g repl : Nat) (s : State), Claim.works s n = true → pc < 64 → page < 196608 → assist s 8 = false →
    s.stk.rows.any (fun r => r.failing && rowInPage (n * 64 + pc) page r.row && repairKind s r.row == 2) = true → freeSlot s = some g → sparePage s (n * 64 + pc) = some repl →
    committingAt s (fun q => q / 4096 == (n * 64 + pc) * 196608 + page) = false → s.cox.proposals.all (fun p => !p.decided) = true → s.stk.flips = [] → s.stk.poison = [] →
    Claim.completes (.pageRetirement n pc page []) s (fun s' =>
      SMap.get 0 s'.stk.redirect ((n * 64 + pc) * 196608 + page) = (n * 64 + pc) * 196608 + repl ∧ SMap.get false s'.stk.withdrawn ((n * 64 + pc) * 196608 + repl) = true ∧
      pagesOf s' (n * 64 + pc) = pagesOf s (n * 64 + pc) + 1 ∧ freeSlot s' = some g ∧ bit (rget s' (reg .STK_ERR n)) 2 = true ∧
      rbits s' (reg .MEM_RESERVE) 15 0 = (rbits s (reg .MEM_RESERVE) 15 0 + 1) % 2 ^ 16 ∧ rbits s' (reg .ERR_COUNT) 47 0 = (rbits s (reg .ERR_COUNT) 47 0 + 1) % 2 ^ 48 ∧
      s'.stk.mem = s.stk.mem ∧ s'.tiles = s.tiles)) ∧
  (∀ (n pc page : Nat) (errs : List (Nat × Nat × Nat)) (s : State), Claim.works s n = false ∨ freeSlot s = none ∨
    s.stk.rows.any (fun r => r.failing && rowInPage (n * 64 + pc) page r.row && repairKind s r.row == 2) = false → exec (.pageRetirement n pc page errs) s = .next s) ∧
  (∀ (n pc g : Nat) (s : State), Claim.works s n = true → pc < 64 → assist s 8 = false →
    s.stk.rows.any (fun r => r.failing && keyChan r.row == n * 64 + pc && repairKind s r.row == 3) = true → freeSlot s = some g →
    committingAt s (fun q => physChan q == n * 64 + pc) = false → s.cox.proposals.all (fun p => !p.decided) = true → s.stk.flips = [] → s.stk.poison = [] →
    Claim.completes (.channelRetirement n pc) s (fun s' =>
      chanRetired s' (n * 64 + pc) = true ∧ s'.stk.gone = s.stk.gone ++ [n * 64 + pc] ∧ rbits s' (reg .MEM_RESERVE) 19 16 = (s.stk.gone.length + 1) % 16 ∧
      bit (rget s' (reg .STK_ERR n)) 2 = true ∧ Claim.recorded 0x0602 (n / 2) n (w64 (3 + pc * 2 ^ 8)) (w64 196608) s s' ∧
      s'.stk.mem = s.stk.mem.filter (fun e => !lineInWindow s s.stk.gone.length (e.1 / 64)) ∧ s'.tiles = s.tiles)) ∧
  (∀ (n pc : Nat) (s : State), Claim.works s n = false ∨ freeSlot s = none ∨
    s.stk.rows.any (fun r => r.failing && keyChan r.row == n * 64 + pc && repairKind s r.row == 3) = false → exec (.channelRetirement n pc) s = .next s) ∧
  (∀ (n : Nat) (s : State), n < 8 → stackLost s n = false → (∀ g, g < 16 → (cgOf s g).pages.any (pageInStack s n) = false) →
    Claim.completes (.stackLoss n) s (fun s' =>
      stackLost s' n = true ∧ (bdOf s' n).eng = [] ∧ (∀ j ∈ (bdOf s' n).jobs, j.lost = true) ∧ (bdOf s' n).jobs.length = (bdOf s n).jobs.length ∧
      Claim.recorded 0x0D02 (n / 2) n (w64 n) 0#64 s s' ∧ s' = { s with regs := s'.regs, rec_ := s'.rec_, bn := s'.bn, cox := { s.cox with async := s'.cox.async } })) ∧
  (∀ (n g : Nat) (s : State), n < 8 → g < 16 → stackLost s n = false → (∀ h, h < 16 → cgState s h ≠ 1) → cgState s g = 0 → (cgOf s g).pages.any (pageInStack s n) = true →
    Claim.completes (.stackLoss n) s (fun s' => cgState s' g = 3 ∧ rbits s' (reg .CG_STATE g) 51 48 = 5 ∧ (cgOf s' g).pages = [] ∧ stackLost s' n = true)) ∧
  (∀ (n : Nat) (s : State), 8 ≤ n ∨ stackLost s n = true → exec (.stackLoss n) s = .next s)

/-- Register writes that come into force at a step advance. -/
def Obligations.ScaleAndScheduleWrites : Prop := Claim.DeferredWrites ∧ Claim.SegmentWrites

/-- The upkeep and the repair of the stacks. -/
def Obligations.StacksAreKept : Prop := Claim.StackUpkeep ∧ Claim.StackRepairs

/-! ### Command frames and completion frames (R374 to R379) -/

/-- A completion ring takes a frame at once: enabled, nothing held before it, a slot free (R375), no frame waiting for its place and no step advance of its rings
outstanding (R379), no switch of the cox under way (R372). -/
def Sys2Proof.Claim.ringOpen (s : State) (c : Nat) : Bool :=
  cplEnabled s c && (SMap.get [] s.cox.held c).isEmpty && cplHasSlot s c && s.cox.order.isEmpty && s.cox.running.all (fun q => !(q.isAdv && cplOf s q.ring == c)) && s.gate.switching.isNone

/-- The slot at the old tail of the command's completion ring holds its frame, with the phase of this pass (R375, R377). -/
def Sys2Proof.Claim.frameAt (r : CmdRef) (status detail : Nat) (result : Word) (s s' : State) : Prop :=
  SMap.get [] s'.cox.slots (cplOf s r.ring * 4096 + rbits s (reg .MBX_CPL_TAIL (cplOf s r.ring)) 11 0) =
    setBit (nth 0#64 (frameWords s r status detail result) 0) 24 (!(SMap.get false s.cox.phase (cplOf s r.ring))) :: (frameWords s r status detail result).drop 1

/-- The frame of a command stands in the completion ring at its old tail, and the tail went on by one (R375, R377). -/
def Sys2Proof.Claim.framed (r : CmdRef) (status detail : Nat) (result : Word) (s s' : State) : Prop :=
  Claim.frameAt r status detail result s s' ∧
  rbits s' (reg .MBX_CPL_TAIL (cplOf s r.ring)) 11 0 = (rbits s (reg .MBX_CPL_TAIL (cplOf s r.ring)) 11 0 + 1) % cplFrames s (cplOf s r.ring)

/-- The command that the frame at the head of a ring is (R374, R377). -/
def Sys2Proof.Claim.refOf (s : State) (ring : Nat) (f : Frame) : CmdRef := ⟨ring, rbits s (reg .MBX_CMD_HEAD ring) 11 0, f.w0⟩

/-- The cox takes this frame now and serves it: the ring is ready, the opcode is that of the command, its group is enabled, the fields that the catalogue
does not list are 0, and its buffer does not wait for a stack (R241, R374 to R376, R387). -/
def Sys2Proof.Claim.taken (s : State) (ring opc : Nat) (f : Frame) (k : CmdForm) : Prop :=
  cmdReady s ring f = true ∧ bits f.w0 15 0 = opc ∧ groupOn s ring opc = true ∧ frameOk f k = true ∧ (k.buf && bufWaits f s) = false

/-! ### Base-note engines (R244 to R263, R268 to R272) -/

/-- On engine e of stack n it is the turn of pass p of job j, `rest` are the passes behind it, and the next word of its program is w (R248, R255, R261). -/
def Sys2Proof.Claim.engineAt (s : State) (n e : Nat) (p : Pass) (rest : List Pass) (j : Job) (w : BitVec 32) : Prop :=
  running s = true ∧ stackCritical s n = false ∧ passesOf s n e = p :: rest ∧ p.job ≠ 0 ∧ (bdOf s n).jobs.find? (fun k => k.no == p.job) = some j ∧
  SMap.get 0#32 (bdOf s n).prog (j.start + p.pcw) = w

/-- Only the passes on one engine move. -/
def Sys2Proof.Claim.onlyEngine (n e : Nat) (s s' : State) : Prop :=
  s' = { s with bn := s'.bn } ∧ bdOf s' n = { bdOf s n with eng := (bdOf s' n).eng } ∧ (∀ f, f ≠ e → passesOf s' n f = passesOf s n f) ∧ ∀ m, m ≠ n → bdOf s' m = bdOf s m

/-- The engine instruction writes its function of a, b and c into all 64 lanes of x[d] and keeps its verdict; the program goes on by one word and the turn to the next
pass (R255, R261). -/
def Sys2Proof.Claim.laneOp (mk : Nat → Nat → Instr) (op : Nat) (ok : Bool) (g : Half → Half → Half → Half) : Prop :=
  ∀ (n e : Nat) (p : Pass) (rest : List Pass) (j : Job) (w : BitVec 32) (s : State), Claim.engineAt s n e p rest j w → iOp w = op →
    Claim.completes (mk n e) s (fun s' => Claim.onlyEngine n e s s' ∧
      ∃ q, passesOf s' n e = rest ++ [q] ∧ q = { p with x := q.x, pcw := p.pcw + 1, disagree := p.disagree || !ok } ∧
        (∀ l, l < 64 → q.lane (iD w) l = g (p.lane (iA w) l) (srcB j p w l) (srcC j p w l)) ∧
        (∀ k, (k < iD w * 64 ∨ iD w * 64 + 64 ≤ k) → SMap.get 0#32 q.x k = SMap.get 0#32 p.x k))

/-- The instructions of the engines with their opcodes (R256). -/
def Sys2Proof.Claim.engineOps : List (Nat × (Nat → Nat → Bool → Instr)) := [
  (0x00, fun n e _ => .bnNop n e), (0x01, .bnAdd), (0x02, .bnSub), (0x03, .bnRsb), (0x04, .bnMul), (0x05, .bnFma), (0x06, .bnFns), (0x07, .bnDiv), (0x08, .bnSqrt),
  (0x09, fun n e _ => .bnRcp n e), (0x0A, fun n e _ => .bnRsq n e), (0x0B, fun n e _ => .bnExp n e), (0x0C, fun n e _ => .bnLog n e), (0x0D, fun n e _ => .bnMax n e),
  (0x0E, fun n e _ => .bnMin n e), (0x0F, fun n e _ => .bnAbs n e), (0x10, fun n e _ => .bnSel n e), (0x11, fun n e _ => .bnPowt n e), (0x12, fun n e _ => .bnBcnt n e),
  (0x20, fun n e _ => .bnLdg n e), (0x21, fun n e _ => .bnLdw n e), (0x22, fun n e _ => .bnLdm n e), (0x23, fun n e _ => .bnLdx n e), (0x28, fun n e _ => .bnStw n e),
  (0x29, fun n e _ => .bnStm n e), (0x2A, fun n e _ => .bnStc n e), (0x2B, fun n e _ => .bnStx n e), (0x3F, fun n e _ => .bnEnd n e)]

def Sys2Proof.Claim.engineOp (k : Nat) : Nat × (Nat → Nat → Bool → Instr) := Claim.engineOps.getD k (0x00, fun n e _ => .bnNop n e)

/-- The arithmetic of the engines (R256, R260), with the verdict of the residue check where the unit carries one (R262). An instruction that is not the next of the pass
whose turn it is does not run; in a critical stack, or without work, none does (R241, R255, R261). -/
def Obligations.EngineArithmetic : Prop :=
  (∀ ok : Bool,
    Claim.laneOp (fun n e => .bnAdd n e ok) 0x01 ok (fun a b _ => fadd a b) ∧ Claim.laneOp (fun n e => .bnSub n e ok) 0x02 ok (fun a b _ => fsub a b) ∧
    Claim.laneOp (fun n e => .bnRsb n e ok) 0x03 ok (fun a b _ => fsub b a) ∧ Claim.laneOp (fun n e => .bnMul n e ok) 0x04 ok (fun a b _ => fmul a b) ∧
    Claim.laneOp (fun n e => .bnFma n e ok) 0x05 ok (fun a b c => ffma a b c) ∧ Claim.laneOp (fun n e => .bnFns n e ok) 0x06 ok (fun a b c => ffma (fneg a) b c) ∧
    Claim.laneOp (fun n e => .bnDiv n e ok) 0x07 ok (fun a b _ => fdiv a b) ∧ Claim.laneOp (fun n e => .bnSqrt n e ok) 0x08 ok (fun a _ _ => fsqrt a)) ∧
  Claim.laneOp Instr.bnRcp 0x09 true (fun a _ _ => vfunc 3 a) ∧ Claim.laneOp Instr.bnRsq 0x0A true (fun a _ _ => vfunc 2 a) ∧
  Claim.laneOp Instr.bnExp 0x0B true (fun a _ _ => vfunc 0 a) ∧ Claim.laneOp Instr.bnLog 0x0C true (fun a _ _ => vfunc 1 a) ∧
  Claim.laneOp Instr.bnMax 0x0D true (fun a b _ => toF32 .even (numMax true (f32 a) (f32 b))) ∧
  Claim.laneOp Instr.bnMin 0x0E true (fun a b _ => toF32 .even (numMax false (f32 a) (f32 b))) ∧
  Claim.laneOp Instr.bnAbs 0x0F true (fun a _ _ => toF32 .even (f32 a).abs) ∧
  Claim.laneOp Instr.bnSel 0x10 true (fun a b c => if Num.lt (f32 a) .zero then c else b) ∧
  (∀ (n e : Nat) (p : Pass) (rest : List Pass) (j : Job) (w : BitVec 32) (s : State), Claim.engineAt s n e p rest j w → iOp w = 0x11 →
    Claim.completes (.bnPowt n e) s (fun s' => Claim.onlyEngine n e s s' ∧
      ∃ q, passesOf s' n e = rest ++ [q] ∧ q = { p with x := q.x, pcw := p.pcw + 1 } ∧ (∀ l, l < 64 → q.lane (iD w) l = powt (j.u (iB w)) (p.t l)) ∧
        (∀ k, (k < iD w * 64 ∨ iD w * 64 + 64 ≤ k) → SMap.get 0#32 q.x k = SMap.get 0#32 p.x k))) ∧
  (∀ (n e : Nat) (p : Pass) (rest : List Pass) (j : Job) (w : BitVec 32) (s : State), Claim.engineAt s n e p rest j w → iOp w = 0x12 →
    Claim.completes (.bnBcnt n e) s (fun s' => Claim.onlyEngine n e s s' ∧
      ∃ q, passesOf s' n e = rest ++ [q] ∧ q = { p with x := q.x, pcw := p.pcw + 1 } ∧ (∀ l, l < 64 → q.lane (iD w) l = toF32 .even (.ofInt (p.t l))) ∧
        (∀ k, (k < iD w * 64 ∨ iD w * 64 + 64 ≤ k) → SMap.get 0#32 q.x k = SMap.get 0#32 p.x k))) ∧
  (∀ (n e : Nat) (p : Pass) (rest : List Pass) (j : Job) (w : BitVec 32) (s : State), Claim.engineAt s n e p rest j w → iOp w = 0x00 →
    Claim.completes (.bnNop n e) s (fun s' => Claim.onlyEngine n e s s' ∧ passesOf s' n e = rest ++ [{ p with pcw := p.pcw + 1 }])) ∧
  (∀ (k n e : Nat) (ok : Bool) (s : State), k < 28 →
    running s = false ∨ stackCritical s n = true ∨ passesOf s n e = [] ∨
      (match (bdOf s n).jobs.find? (fun j => j.no == (passOf s n e).job) with
       | none => true
       | some j => iOp (SMap.get 0#32 (bdOf s n).prog (j.start + (passOf s n e).pcw)) != (Claim.engineOp k).1) = true →
    exec ((Claim.engineOp k).2 n e ok) s = .next s)

/-- What a stream load leaves of its pass and the device: only its lanes and the first poisoned address that it met; in a stack whose cells hold no errors no memory
changes (R244, R254). -/
def Sys2Proof.Claim.loaded (n e : Nat) (p q : Pass) (rest : List Pass) (w : BitVec 32) (at_ : Nat → Nat × Nat) (s s' : State) : Prop :=
  passesOf s' n e = rest ++ [q] ∧ q = { p with x := q.x, pcw := p.pcw + 1, poisonAt := q.poisonAt } ∧
  (∀ k, (k < iD w * 64 ∨ iD w * 64 + 64 ≤ k) → SMap.get 0#32 q.x k = SMap.get 0#32 p.x k) ∧
  ((∀ l, l < 64 → p.present l = true → anyPoison (stkPeek s (at_ l).1 (at_ l).2) = false) → q.poisonAt = p.poisonAt) ∧
  (∀ f, f ≠ e → passesOf s' n f = passesOf s n f) ∧ (bdOf s' n).jobs = (bdOf s n).jobs ∧ s'.stk.mem = s.stk.mem ∧ s'.tiles = s.tiles

/-- A stream load gives its lanes the elements of the array, 0 in the lanes of absent blocks (R246, R257). -/
def Sys2Proof.Claim.streamLoad (mk : Nat → Nat → Instr) (op : Nat) (at_ : Job → Pass → BitVec 32 → Nat → Nat × Nat) (v : State → Job → Pass → BitVec 32 → Nat → Half) : Prop :=
  ∀ (n e : Nat) (p : Pass) (rest : List Pass) (j : Job) (w : BitVec 32) (s : State), Claim.engineAt s n e p rest j w → iOp w = op → s.stk.flips = [] →
    Claim.completes (mk n e) s (fun s' => ∃ q, Claim.loaded n e p q rest w (at_ j p w) s s' ∧
      ∀ l, l < 64 → q.lane (iD w) l = if p.present l then v s j p w l else 0#32)

/-- LDW and LDX read FP32 words of the master and auxiliary arrays, LDM moments at the scale of the block's header (R245, R246, R257); LDG reads the gradient times its
block scale, where the arrangement has one, and the tensor scale of the record (R257). -/
def Sys2Proof.Claim.EngineLoads : Prop :=
  Claim.streamLoad Instr.bnLdw 0x21 (fun j p _ l => (j.mBase + laneEl j p l * 4, 4)) (fun s j p _ l => BitVec.ofNat 32 (p.num s (j.mBase + laneEl j p l * 4) 4)) ∧
  Claim.streamLoad Instr.bnLdx 0x23 (fun j p _ l => (j.aBase + laneEl j p l * 4, 4)) (fun s j p _ l => BitVec.ofNat 32 (p.num s (j.aBase + laneEl j p l * 4) 4)) ∧
  Claim.streamLoad Instr.bnLdm 0x22 (fun j p w l => (j.moBase (iSel w) + laneEl j p l, 1))
    (fun s j p w l => toF32 .even (Num.mul (decodeNum INT8 (p.num s (j.moBase (iSel w) + laneEl j p l) 1)) (decodeNum E8M0 (bits (p.hdr (l / 32)) (8 * iSel w + 7) (8 * iSel w))))) ∧
  (∀ (n e : Nat) (p : Pass) (rest : List Pass) (j : Job) (w : BitVec 32) (s : State), Claim.engineAt s n e p rest j w → iOp w = 0x20 → s.stk.flips = [] → j.gArr = 0 →
    Claim.completes (.bnLdg n e) s (fun s' => ∃ q, Claim.loaded n e p q rest w (fun l => ((gradAt j p l).1, (gradAt j p l).2.1)) s s' ∧
      ∀ l, l < 64 → q.lane (iD w) l = if p.present l then toF32 .even (Num.mul (decodeNum j.gFmt (p.num s (gradAt j p l).1 (gradAt j p l).2.1)) (f32 j.gTs)) else 0#32)) ∧
  (∀ (n e : Nat) (p : Pass) (rest : List Pass) (j : Job) (w : BitVec 32) (s : State), Claim.engineAt s n e p rest j w → iOp w = 0x20 → s.stk.flips = [] → j.gArr ≠ 0 →
    Claim.completes (.bnLdg n e) s (fun s' => ∃ q, passesOf s' n e = rest ++ [q] ∧ q = { p with x := q.x, pcw := p.pcw + 1, poisonAt := q.poisonAt } ∧ s'.stk.mem = s.stk.mem ∧
      ∀ l, l < 64 → q.lane (iD w) l = if p.present l then toF32 .even (Num.mul (Num.mul (decodeNum j.gFmt (p.num s (gradAt j p l).1 (gradAt j p l).2.1))
        (decodeNum (if j.gArr = 1 then UE4M3 else E8M0) (p.num s (gradAt j p l).2.2 1))) (f32 j.gTs)) else 0#32))

/-- STW and STX hold the FP32 words of each present block for the end of the pass and flag a non-finite lane in the block's header; STM holds the moment codes at their
new scale, which the header takes with its flags; STC holds the copy's codes and scale bytes, and the snapshot's where the record asks for one, and flags a saturated
block: memory stays as it is until the pass ends (R245, R258, R259, R262, R270). -/
def Sys2Proof.Claim.EngineStores : Prop :=
  (∀ (n e : Nat) (p : Pass) (rest : List Pass) (j : Job) (w : BitVec 32) (s : State), Claim.engineAt s n e p rest j w → iOp w = 0x28 →
    Claim.completes (.bnStw n e) s (fun s' => Claim.onlyEngine n e s s' ∧
      ∃ q, passesOf s' n e = rest ++ [q] ∧ q = { p with wr := q.wr, hdr0 := q.hdr0, hdr1 := q.hdr1, pcw := p.pcw + 1 } ∧
        q.wr = p.wr ++ p.blocks.map (fun k => (j.mBase + laneEl j p (32 * k) * 4, (List.range 32).flatMap (fun i => leBytes 4 (p.lane (iA w) (32 * k + i)).toNat))) ∧
        (∀ k, k < 2 → q.hdr k = if p.blocks.contains k then setBit (p.hdr k) 32 (bit (p.hdr k) 32 || p.nonfin (iA w) k) else p.hdr k))) ∧
  (∀ (n e : Nat) (p : Pass) (rest : List Pass) (j : Job) (w : BitVec 32) (s : State), Claim.engineAt s n e p rest j w → iOp w = 0x2B →
    Claim.completes (.bnStx n e) s (fun s' => Claim.onlyEngine n e s s' ∧
      ∃ q, passesOf s' n e = rest ++ [q] ∧ q = { p with wr := q.wr, hdr0 := q.hdr0, hdr1 := q.hdr1, pcw := p.pcw + 1 } ∧
        q.wr = p.wr ++ p.blocks.map (fun k => (j.aBase + laneEl j p (32 * k) * 4, (List.range 32).flatMap (fun i => leBytes 4 (p.lane (iA w) (32 * k + i)).toNat))) ∧
        (∀ k, k < 2 → q.hdr k = if p.blocks.contains k then setBit (p.hdr k) 32 (bit (p.hdr k) 32 || p.nonfin (iA w) k) else p.hdr k))) ∧
  (∀ (n e : Nat) (p : Pass) (rest : List Pass) (j : Job) (w : BitVec 32) (sc : Nat → Nat) (s : State), Claim.engineAt s n e p rest j w → iOp w = 0x29 →
    (∀ k, sc k = momentScale (magMax ((((List.range 32).map (fun m => p.lane (iA w) (32 * k + m))).filter (fun v => (f32 v).isFin)).map (fun v => numMag (f32 v).abs)))) →
    Claim.completes (.bnStm n e) s (fun s' => Claim.onlyEngine n e s s' ∧
      ∃ q, passesOf s' n e = rest ++ [q] ∧ q = { p with wr := q.wr, hdr0 := q.hdr0, hdr1 := q.hdr1, pcw := p.pcw + 1 } ∧
        q.wr = p.wr ++ p.blocks.map (fun k => (j.moBase (iSel w) + laneEl j p (32 * k), (List.range 32).map (fun i => BitVec.ofNat 8 (momentCode (p.lane (iA w) (32 * k + i)) (sc k))))) ∧
        (∀ k, p.blocks.contains k = true → bits (q.hdr k) (8 * iSel w + 7) (8 * iSel w) = sc k % 256 ∧ bit (q.hdr k) 32 = (bit (p.hdr k) 32 || p.nonfin (iA w) k) ∧
          bits (q.hdr k) 31 16 = bits (p.hdr k) 31 16))) ∧
  (∀ (n e : Nat) (p : Pass) (rest : List Pass) (j : Job) (w : BitVec 32) (us : Nat → List Unit7) (s : State), Claim.engineAt s n e p rest j w → iOp w = 0x2A →
    (∀ k, us k = (chunks (if j.cArr = 1 then 16 else 32) ((List.range 32).map (fun i => f32 (p.lane (iA w) (32 * k + i))))).map
      (copyBlock j.cFmt j.cArr (if takesScale j.cFmt j.cArr then some j.scale else none))) →
    Claim.completes (.bnStc n e) s (fun s' => Claim.onlyEngine n e s s' ∧
      ∃ q, passesOf s' n e = rest ++ [q] ∧ q = { p with wr := q.wr, snap := q.snap, hdr0 := q.hdr0, hdr1 := q.hdr1, cnts := q.cnts, amax := q.amax, pcw := p.pcw + 1 } ∧
        q.wr = p.wr ++ p.blocks.flatMap (fun k => copyPieces j.cBase j.cScale j p k (us k)) ∧
        q.snap = p.snap ++ (if j.snapOn then p.blocks.flatMap (fun k => copyPieces j.sBase (j.sBase + j.cScale - j.cBase) j p k (us k)) else []) ∧
        (∀ k, k < 2 → q.hdr k = if p.blocks.contains k then setBit (p.hdr k) 34 (bit (p.hdr k) 34 || (us k).any (fun u => u.els.any (·.sat))) else p.hdr k)))

/-- The end of a pass whose turn it is: it leaves its engine (R248, R261). One with its checks agreed writes its headers last and counts for its job (R248); after a repeat
the engine that ran it first is charged, and a second charge within 24 hours retires it (R262). A poisoned pass writes nothing and is counted (R254). One that disagrees
writes nothing: it waits to be repeated, and when the repeat disagrees too its job shows it (R262). -/
def Sys2Proof.Claim.PassesEnd : Prop :=
  (∀ (n e : Nat) (p : Pass) (rest : List Pass) (j : Job) (w : BitVec 32) (s : State), Claim.engineAt s n e p rest j w → iOp w = 0x3F → p.poisonAt = none → p.disagree = false →
    n < 8 → p.repeats = 0 →
    Claim.completes (.bnEnd n e) s (fun s' =>
      passesOf s' n e = rest ∧ ((bdOf s' n).jobs.find? (fun k => k.no == p.job)).map (fun k => (k.done, k.poisoned, k.check)) = some (j.done + 1, j.poisoned, j.check) ∧
      rbits s' (reg .STK_BN_PASSES n) 47 0 = (rbits s (reg .STK_BN_PASSES n) 47 0 + 1) % 2 ^ 48 ∧
      (∀ f, f ≠ e → passesOf s' n f = passesOf s n f) ∧ (∀ m, m ≠ n → bdOf s' m = bdOf s m) ∧ (bdOf s' n).prog = (bdOf s n).prog ∧ s'.tiles = s.tiles)) ∧
  (∀ (n e a : Nat) (p : Pass) (rest : List Pass) (j : Job) (w : BitVec 32) (s : State), Claim.engineAt s n e p rest j w → iOp w = 0x3F → p.poisonAt = none → p.disagree = false →
    p.repeats = 0 → p.pres0 = true → p.pres1 = false → p.snap = [] → a = hdrAt j p.no 0 → a % 8 = 0 → stkPresent s a = true → placeLost s (physOf s (backing s false a)) = false →
    s.stk.flips = [] →
    Claim.completes (.bnEnd n e) s (fun s' => rawBytes (stkPeek s' a 8) = leBytes 8 p.hdr0.toNat)) ∧
  (∀ (n e : Nat) (p : Pass) (rest : List Pass) (j : Job) (w : BitVec 32) (s : State), Claim.engineAt s n e p rest j w → iOp w = 0x3F → p.poisonAt = none → p.disagree = false →
    n < 8 → p.repeats ≠ 0 → p.firstEng < 8 →
    Claim.completes (.bnEnd n e) s (fun s' =>
      passesOf s' n e = rest ∧ ((bdOf s' n).jobs.find? (fun k => k.no == p.job)).map (fun k => (k.done, k.check)) = some (j.done + 1, j.check) ∧
      bit (rget s' (reg .STK_BN_STAT n)) p.firstEng = (bit (rget s (reg .STK_BN_STAT n)) p.firstEng &&
        (SMap.get 0 (bdOf s n).dpLast p.firstEng == 0 || decide (SMap.get 0 (bdOf s n).dpLast p.firstEng - 1 + dayNs ≤ (epoch s).toNat))) ∧
      SMap.get 0 (bdOf s' n).dpLast p.firstEng = (epoch s).toNat + 1 ∧ s'.tiles = s.tiles)) ∧
  (∀ (n e a : Nat) (p : Pass) (rest : List Pass) (j : Job) (w : BitVec 32) (s : State), Claim.engineAt s n e p rest j w → iOp w = 0x3F → p.poisonAt = some a → n < 8 →
    Claim.completes (.bnEnd n e) s (fun s' =>
      passesOf s' n e = rest ∧ ((bdOf s' n).jobs.find? (fun k => k.no == p.job)).map (fun k => (k.done, k.poisoned)) = some (j.done + 1, j.poisoned + 1) ∧
      bit (rget s' (reg .STK_BN_ERR n)) 0 = true ∧ rget s' (reg .STK_BN_ERR_ADDR n) = w64 (a % 2 ^ 48) ∧ s' = { s with bn := s'.bn, regs := s'.regs })) ∧
  (∀ (n e : Nat) (p : Pass) (rest : List Pass) (j : Job) (w : BitVec 32) (s : State), Claim.engineAt s n e p rest j w → iOp w = 0x3F → p.poisonAt = none → p.disagree = true →
    p.repeats = 0 →
    Claim.completes (.bnEnd n e) s (fun s' =>
      passesOf s' n e = rest ∧ (bdOf s' n).redo = (bdOf s n).redo ++ [p] ∧ (bdOf s' n).jobs = (bdOf s n).jobs ∧ bit (rget s' (reg .STK_BN_ERR n)) 1 = true ∧
      s' = { s with bn := s'.bn, regs := s'.regs } ∧ Claim.regsKeep [(reg .STK_BN_ERR n).off] s s')) ∧
  (∀ (n e : Nat) (p : Pass) (rest : List Pass) (j : Job) (w : BitVec 32) (s : State), Claim.engineAt s n e p rest j w → iOp w = 0x3F → p.poisonAt = none → p.disagree = true →
    n < 8 → p.repeats ≠ 0 →
    Claim.completes (.bnEnd n e) s (fun s' =>
      passesOf s' n e = rest ∧ ((bdOf s' n).jobs.find? (fun k => k.no == p.job)).map (fun k => (k.done, k.check)) = some (j.done + 1, true) ∧
      bit (rget s' (reg .STK_BN_ERR n)) 1 = true ∧ s' = { s with bn := s'.bn, regs := s'.regs }))

/-- The map word and header word of a pass in memory: its first block alone is mapped, and it is present with header w0. -/
def Sys2Proof.Claim.passInputs (s : State) (j : Job) (no : Nat) (w0 : Word) : Prop :=
  stkPeek s (j.pBase + ((passRow j no / 32) * j.perRow + passBlk j no) * 4) 8 = cleanBytes (leBytes 4 (2 ^ (passRow j no % 32)) ++ leBytes 4 0) ∧
  stkPeek s (hdrAt j no 0) 8 = cleanBytes (leBytes 8 w0.toNat) ∧ bit w0 48 = true ∧ s.stk.flips = []

/-- An engine of a stack can take another pass. -/
def Sys2Proof.Claim.takesPass (s : State) (n e : Nat) : Bool := running s && !stackCritical s n && decide ((passesOf s n e).length < 4)

/-- The oldest job of a stack that has a pass to deal. -/
def Sys2Proof.Claim.nextJob (b : BaseDie) : Option Job := b.jobs.find? (fun j => j.started && !j.aborted && !j.lost && decide (j.next < j.passes))

/-- An engine in service with fewer than four passes takes the next pass of the oldest job that has one, behind those that it has (R248, R251, R261). Where its first block
alone is mapped and present, the header's step counter goes on and its flags clear, and no memory changes (R246 to R248); where no block is mapped, the pass has ended,
its blocks counted as absent (R247); where the map word is poisoned it has ended poisoned (R254). A pass whose check disagreed starts over on the next engine (R262). -/
def Sys2Proof.Claim.PassesStart : Prop :=
  (∀ (n e : Nat) (j : Job) (w0 : Word) (s : State), n < 8 → Claim.takesPass s n e = true → engineOn s n e = true → Claim.nextJob (bdOf s n) = some j → Claim.passInputs s j j.next w0 →
    Claim.completes (.bnPassStart n e) s (fun s' =>
      passesOf s' n e = passesOf s n e ++ [{ job := j.no, no := j.next, pres0 := true, hdr0 := beginHdr w0, hdr1 := beginHdr (leWord []), firstEng := e }] ∧
      ((bdOf s' n).jobs.find? (fun k => k.no == j.no)).map (fun k => k.next) = some (j.next + 1) ∧
      (∀ f, f ≠ e → passesOf s' n f = passesOf s n f) ∧ s'.stk.mem = s.stk.mem ∧ s'.tiles = s.tiles)) ∧
  (∀ (n e : Nat) (j : Job) (s : State), n < 8 → Claim.takesPass s n e = true → engineOn s n e = true → Claim.nextJob (bdOf s n) = some j → s.stk.flips = [] →
    stkPeek s (j.pBase + ((passRow j j.next / 32) * j.perRow + passBlk j j.next) * 4) 8 = cleanBytes (List.replicate 8 0#8) →
    Claim.completes (.bnPassStart n e) s (fun s' =>
      (bdOf s' n).eng = (bdOf s n).eng ∧ ((bdOf s' n).jobs.find? (fun k => k.no == j.no)).map (fun k => (k.next, k.done, k.poisoned)) = some (j.next + 1, j.done + 1, j.poisoned) ∧
      rbits s' (reg .STK_BN_ABSENT n) 47 0 = (rbits s (reg .STK_BN_ABSENT n) 47 0 + 2) % 2 ^ 48 ∧ s'.stk.mem = s.stk.mem ∧ s'.tiles = s.tiles)) ∧
  (∀ (n e a : Nat) (j : Job) (s : State), n < 8 → Claim.takesPass s n e = true → engineOn s n e = true → Claim.nextJob (bdOf s n) = some j → s.stk.flips = [] →
    a = j.pBase + ((passRow j j.next / 32) * j.perRow + passBlk j j.next) * 4 → anyPoison (stkPeek s a 8) = true →
    Claim.completes (.bnPassStart n e) s (fun s' =>
      (bdOf s' n).eng = (bdOf s n).eng ∧ ((bdOf s' n).jobs.find? (fun k => k.no == j.no)).map (fun k => (k.next, k.done, k.poisoned)) = some (j.next + 1, j.done + 1, j.poisoned + 1) ∧
      bit (rget s' (reg .STK_BN_ERR n)) 0 = true ∧ rget s' (reg .STK_BN_ERR_ADDR n) = w64 (a % 2 ^ 48) ∧ s'.stk.mem = s.stk.mem ∧ s'.tiles = s.tiles)) ∧
  (∀ (n e : Nat) (s : State), Claim.takesPass s n e = false ∨ engineOn s n e = false ∨ Claim.nextJob (bdOf s n) = none → exec (.bnPassStart n e) s = .next s) ∧
  (∀ (n e f : Nat) (p : Pass) (qs rs : List Pass) (j : Job) (w0 : Word) (s : State), n < 8 → (bdOf s n).redo = qs ++ p :: rs → qs.all (fun q => q.firstEng != e) = true → p.firstEng = e →
    nextEngine s n e = some f → Claim.takesPass s n f = true → (bdOf s n).jobs.find? (fun j => j.no == p.job) = some j → Claim.passInputs s j p.no w0 →
    Claim.completes (.bnPassRepeat n e) s (fun s' =>
      passesOf s' n f = passesOf s n f ++ [{ job := j.no, no := p.no, pres0 := true, hdr0 := beginHdr w0, hdr1 := beginHdr (leWord []), repeats := 1, firstEng := e }] ∧
      (bdOf s' n).redo = qs ++ rs ∧ (bdOf s' n).jobs = (bdOf s n).jobs ∧ (∀ g, g ≠ f → passesOf s' n g = passesOf s n g) ∧ s'.stk.mem = s.stk.mem ∧ s'.tiles = s.tiles)) ∧
  (∀ (n e : Nat) (s : State), (bdOf s n).redo.all (fun q => q.firstEng != e) = true ∨ running s = false ∨ stackCritical s n = true → exec (.bnPassRepeat n e) s = .next s)

/-- The record of an update job that BN_JOB names reads clean, in form and place (R249, R250). -/
def Sys2Proof.Claim.jobRecord (s : State) (n a : Nat) (j : Job) : Bool :=
  decide (a % 8 = 0) && decide (a + 256 ≤ stackTop) && (linesOf a 256).all (fun l => stkPresent s l) && !anyPoison (stkPeek s a 256) && jobForm (bdOf s n) j &&
  (jobArrays (bdOf s n) j).all (fun p => inStack s n p.1 p.2) && flagWordOk s j.startWord && flagWordOk s j.doneWord

/-- The status that a job ends with (R253, R270). -/
def Sys2Proof.Claim.endsWith (j : Job) : Nat :=
  if j.lost then stSTACK_LOST else if j.aborted then stGROUP_ABORTED else if j.check then stCHECK else if j.poisoned ≠ 0 then stPARTIAL else stOK

/-- An update job (R249 to R253, R268, R391): submission accepts a record in form and place, refuses another, and waits for a critical stack (R241); its start word, once
seen met, stays met; it starts in order with the values that its base die holds, as a member of its commit group where it names an open one with room; when every pass
has ended, or its stack is lost, its completion word grows by one, its final frame is posted and it leaves the queue. -/
def Sys2Proof.Claim.UpdateJobs : Prop :=
  (∀ (ring n a : Nat) (f : Frame) (j : Job) (s : State), Claim.taken s ring 0x0303 f { ops := [maskBits 2 0, maskBits 47 0] } → n = bits f.w1 2 0 → a = bits f.w2 47 0 →
    assist s 3 = false → stkWaits s a 256 = false → s.stk.flips = [] →
    j = { no := (bdOf s n).jobNo + 1, recAt := a, rec_ := rawBytes (stkPeek s a 256), cmd := Claim.refOf s ring f } → Claim.jobRecord s n a j = true → (bdOf s n).jobs.length < 32 →
    Claim.completes (.bnJob ring f) s (fun s' =>
      (bdOf s' n).jobs = (bdOf s n).jobs ++ [{ j with lost := stackLost s n }] ∧ (bdOf s' n).jobNo = (bdOf s n).jobNo + 1 ∧ rbits s' (reg .STK_BN_STAT n) 13 8 = ((bdOf s n).jobs.length + 1) % 64 ∧
      s'.cox.running = s.cox.running ++ [Claim.refOf s ring f] ∧ s'.stk.mem = s.stk.mem ∧ s'.tiles = s.tiles ∧ (∀ m, m ≠ n → bdOf s' m = bdOf s m))) ∧
  (∀ (ring n : Nat) (f : Frame) (s : State), Claim.taken s ring 0x0303 f { ops := [maskBits 2 0, maskBits 47 0] } → n = bits f.w1 2 0 → stkWaits s (bits f.w2 47 0) 256 = false →
    assist s 3 = true ∨ bits f.w2 47 0 % 8 ≠ 0 → Claim.ringOpen s (cplOf s ring) = true →
    Claim.completes (.bnJob ring f) s (fun s' =>
      Claim.framed (Claim.refOf s ring f) (if assist s 3 then stREFUSED_MODE else stREFUSED_ADDR) 0 0#64 s s' ∧ bit (rget s' (reg .STK_BN_ERR n)) 3 = true ∧ s'.bn = s.bn ∧ s'.stk = s.stk ∧
      s'.tiles = s.tiles ∧ s'.cox.running = s.cox.running)) ∧
  (∀ (ring : Nat) (f : Frame) (s : State), stkWaits s (bits f.w2 47 0) 256 = true → exec (.bnJob ring f) s = .next s) ∧
  (∀ (s : State), Claim.completes .startWordPoll s (fun s' =>
      s' = { s with watch := s'.watch } ∧ (∀ k, s.watch.met.contains k = true → s'.watch.met.contains k = true) ∧
      (∀ n, n < 8 → ∀ j ∈ (bdOf s n).jobs, j.started = false → j.startWord ≠ 0 → startMet s j.startWord j.startVal = true → s'.watch.met.contains (n, j.no) = true) ∧
      ∀ c ∈ s.fab.colls, c.started = false → c.startWord ≠ 0 → startMet s c.startWord c.startVal = true → s'.watch.met.contains (8, c.id) = true)) ∧
  (∀ (n k : Nat) (b : BaseDie) (j : Job) (s : State), n < 8 → bdOf s n = b → firstWaiting b = k → b.jobs[k]? = some j → running s = true → startsHeld s b = false → j.lost = false →
    (s.watch.met.contains (n, j.no) || startMet s j.startWord j.startVal) = true → (b.jobs.take k).any (mastersOverlap j) = false → j.group = 0xFFFF ∨ memberCheck s j.group = 0 →
    Claim.completes (.updateJobStart n) s (fun s' =>
      (bdOf s' n).jobs.find? (fun i => i.no == j.no) = some { j with
        started := true, member := (if j.group = 0xFFFF then j.member else some (j.group % 16)),
        lr := b.lr, wdf := b.wdf, step := b.step, scale := copyScale s j } ∧
      (j.group ≠ 0xFFFF → cgDispatched s' (j.group % 16) = (cgDispatched s (j.group % 16) + 1) % 512) ∧
      (bdOf s' n).eng = b.eng ∧ s'.stk = s.stk ∧ s'.tiles = s.tiles)) ∧
  (∀ (n k : Nat) (b : BaseDie) (j : Job) (s : State), n < 8 → bdOf s n = b → firstWaiting b = k → b.jobs[k]? = some j → running s = true → startsHeld s b = false → j.lost = false →
    (s.watch.met.contains (n, j.no) || startMet s j.startWord j.startVal) = true → (b.jobs.take k).any (mastersOverlap j) = false → j.group ≠ 0xFFFF → memberCheck s j.group ≠ 0 →
    Claim.completes (.updateJobStart n) s (fun s' =>
      ((bdOf s' n).jobs.find? (fun i => i.no == j.no)).map (fun i => (i.started, i.aborted)) = some (true, true) ∧ (bdOf s' n).eng = b.eng ∧ s'.stk = s.stk ∧ s'.tiles = s.tiles)) ∧
  (∀ (n k : Nat) (b : BaseDie) (j : Job) (s : State), bdOf s n = b → firstWaiting b = k → b.jobs[k]? = some j →
    running s = false ∨ startsHeld s b = true ∨ j.lost = true ∨ (s.watch.met.contains (n, j.no) || startMet s j.startWord j.startVal) = false ∨ (b.jobs.take k).any (mastersOverlap j) = true →
    exec (.updateJobStart n) s = .next s) ∧
  (∀ (n : Nat) (j : Job) (s : State), n < 8 →
    (bdOf s n).jobs.find? (fun j => j.lost || (j.started && (j.aborted || decide (j.done = j.passes)))) = some j → running s = true ∨ j.lost = true → stkWaits s j.recAt 256 = false →
    flagWaits s j.doneWord = false → j.member = none → j.copyOn = false → nth 0 j.cnts 3 = 0 → s.stk.flips = [] →
    j.doneWord = 0 ∨ j.doneWord % 8 = 0 ∧ stkPresent s j.doneWord = true ∧ placeLost s (physOf s (backing s false j.doneWord)) = false ∧ linePoisoned s j.doneWord = false →
    j.cmd.ring < 8 → bit j.cmd.w0 18 = false → Claim.ringOpen s (cplOf s j.cmd.ring) = true →
    Claim.completes (.updateJobCompletion n) s (fun s' =>
      (∀ i ∈ (bdOf s' n).jobs, i.no ≠ j.no) ∧ Claim.framed j.cmd (Claim.endsWith j) j.poisoned (w64 (j.firstPoison % 2 ^ 48 + j.tag * 2 ^ 48)) s s' ∧
      (j.doneWord ≠ 0 → leWord (rawBytes (stkPeek s' j.doneWord 8)) = leWord (rawBytes (stkPeek s j.doneWord 8)) + 1#64) ∧ (j.doneWord = 0 → s'.stk = s.stk) ∧
      s'.cox.running = s.cox.running.erase j.cmd ∧ s'.tiles = s.tiles)) ∧
  (∀ (n : Nat) (s : State), (bdOf s n).jobs.find? (fun j => j.lost || (j.started && (j.aborted || decide (j.done = j.passes)))) = none → exec (.updateJobCompletion n) s = .next s)

/-- BN_LOAD writes the program words of its buffer, in host or stack memory, into every stack of its mask, from the first word named, when none of them has a job and every
word is one that the engines know (R255, R376, R391). A buffer of another length, or one that runs past the program store, is refused with REFUSED_FORM and marks the
stacks of the mask. -/
def Sys2Proof.Claim.ProgramsLoad : Prop :=
  (∀ (ring : Nat) (f : Frame) (d : PBytes) (ws : List (BitVec 32)) (s : State), Claim.taken s ring 0x0302 f { ops := [maskBits 15 0], buf := true } → s.stk.flips = [] →
    bufLen f % 4 = 0 → bits f.w1 15 8 + bufLen f / 4 ≤ 256 → (∀ k, k < 8 → (bits f.w1 7 0).testBit k = true → (bdOf s k).jobs = []) → bufOk f (bufLen f) s = true →
    d = (if bit f.w7 32 then stkPeek s f.w6.toNat (bufLen f) else cleanBytes ((List.range (bufLen f)).map (fun i => nth 0#8 f.buf i))) → anyPoison d = false →
    ws = (chunks 4 (rawBytes d)).map (fun c => BitVec.ofNat 32 (leNat c)) → ws.all bnWordOk = true → bit f.w0 18 = false → Claim.ringOpen s (cplOf s ring) = true →
    Claim.completes (.bnLoad ring f) s (fun s' =>
      (∀ k, k < 8 → (bits f.w1 7 0).testBit k = true → bdOf s' k = { bdOf s k with prog := SMap.putList 0#32 (bdOf s k).prog (bits f.w1 15 8) ws }) ∧
      (∀ k, (bits f.w1 7 0).testBit k = false → bdOf s' k = bdOf s k) ∧ Claim.framed (Claim.refOf s ring f) stOK 0 0#64 s s' ∧ s'.stk.mem = s.stk.mem ∧ s'.tiles = s.tiles)) ∧
  (∀ (ring : Nat) (f : Frame) (s : State), Claim.taken s ring 0x0302 f { ops := [maskBits 15 0], buf := true } → bufLen f % 4 ≠ 0 ∨ 256 < bits f.w1 15 8 + bufLen f / 4 →
    Claim.ringOpen s (cplOf s ring) = true →
    Claim.completes (.bnLoad ring f) s (fun s' =>
      Claim.framed (Claim.refOf s ring f) stREFUSED_FORM 0 0#64 s s' ∧ (∀ k, k < 8 → (bits f.w1 7 0).testBit k = true → bit (rget s' (reg .STK_BN_ERR k)) 3 = true) ∧
      s'.bn = s.bn ∧ s'.stk = s.stk ∧ s'.tiles = s.tiles))

/-- Stream loads and stores of the base-note engines. -/
def Obligations.EngineMemory : Prop := Claim.EngineLoads ∧ Claim.EngineStores

/-- Passes of an update job, from start to end. -/
def Obligations.PassesRun : Prop := Claim.PassesStart ∧ Claim.PassesEnd

/-- Update jobs and base-note programs. A detail or result that the catalogue does not give is 0, the model's reading (log 77). -/
def Obligations.JobsAndPrograms : Prop := Claim.UpdateJobs ∧ Claim.ProgramsLoad

/-! ### Tile windows, the spare map, register space and the PCIe windows (R8 to R13, R24 to R32, R42 to R44, R87, R426 to R429) -/

/-- The window of tile t answers: it exists and is not held for a move. -/
def Sys2Proof.Claim.windowOpen (s : State) (t : Nat) : Prop := t < numTiles ∧ tileState s t ≠ 2 ∧ tileState s t ≠ 4

/-- An access of 1 to 64 bytes that does not cross a 64-byte boundary (R44). -/
def Sys2Proof.Claim.onePacket (off n : Nat) : Prop := 0 < n ∧ off % 64 + n ≤ 64

/-- An event counter of a tile or its overflow bits stands at this offset (R414). -/
def Sys2Proof.Claim.isCounter (off : Nat) : Bool :=
  match regAt off with
  | some (.TILE_PMC_CTR, _, _) => true
  | some (.TILE_PMC_OVF, _, _) => true
  | _ => false

/-- Every register but those listed, and the counters of the tiles whose routers a packet passed (R414), holds what it held. -/
def Sys2Proof.Claim.counted (offs : List Nat) (s s' : State) : Prop := ∀ r : Reg, Claim.isCounter r.off = false → offs.contains r.off = false → rget s' r = rget s r

/-- Only an event was recorded, behind the packet that was counted on its way. -/
def Sys2Proof.Claim.recordedOnArrival (code die src : Nat) (a b : Word) (s s' : State) : Prop :=
  Claim.recorded code die src a b s s' ∧ s' = { s with regs := s'.regs, rec_ := s'.rec_, cox := { s.cox with async := s'.cox.async } } ∧ Claim.counted Claim.eventRegs s s'

/-- Only tile t, the start words seen met, and counters move; where no word of the tile holds an error, nothing is recorded. -/
def Sys2Proof.Claim.windowMoved (t : Nat) (s s' : State) : Prop :=
  s' = { s with tiles := s'.tiles, regs := s'.regs, watch := s'.watch, rec_ := s'.rec_, cox := { s.cox with async := s'.cox.async } } ∧
  (∀ u, u ≠ t → tileOf s' u = tileOf s u) ∧
  ((tileOf s t).soft = [] → s'.rec_ = s.rec_ ∧ s'.cox.async = s.cox.async ∧ Claim.counted [] s s')

/-- The bytes of a range of tile t's stores hold the data, every other byte and the rest of the tile stay but the marks of the words written and the steal summary. -/
def Sys2Proof.Claim.windowStored (t off : Nat) (data : List Byte) (s s' : State) : Prop :=
  (∀ i, i < data.length → (tileOf s' t).byte (off + i) = nth 0#8 data i) ∧
  (∀ b, (b < off ∨ off + data.length ≤ b) → (tileOf s' t).byte b = (tileOf s t).byte b) ∧
  tileOf s' t = { tileOf s t with mem := (tileOf s' t).mem, poison := (tileOf s' t).poison, soft := (tileOf s' t).soft, summary := (tileOf s' t).summary } ∧ Claim.windowMoved t s s'

/-- A read of a tile's window delivers its bytes and changes no byte, and a word of it in error is delivered poisoned (R24); a write that every word of its range admits
stores its bytes and no other; one that one does not admit is discarded and recorded; an access to a tile in MAP_HOLD waits; one beyond the stores, or to a tile that is
absent, is recorded and reads 0; a larger write of the host is its first aligned piece and then the rest (R13, R31, R42 to R44). -/
def Sys2Proof.Claim.WindowAccesses : Prop :=
  (∀ (q : Req) (t off len : Nat) (s : State), Claim.windowOpen s t → off + len ≤ winTop → s.flitErr = [] → (tileOf s t).soft = [] →
    Claim.completes (.windowRead q t off len []) s (fun s' =>
      s'.ports = { s.ports with rdata := rawBytes ((tileOf s t).read off len), rpoison := anyPoison ((tileOf s t).read off len) } ∧
      s' = { s with ports := s'.ports, regs := s'.regs, tiles := s'.tiles } ∧ (∀ u, tileOf s' u = tileOf s u) ∧ Claim.counted [] s s')) ∧
  (∀ (q : Req) (t off len o : Nat) (s : State), Claim.windowOpen s t → Claim.onePacket off len → off + len ≤ winTop → off ≤ o → o < off + len →
    Claim.completes (.windowRead q t off len [(o, 2)]) s (fun s' =>
      s'.ports.rpoison = true ∧ (tileOf s' t).wordPoison o = true ∧ bit (rget s' (reg .TILE_SRAM_ERR t)) (storeOf o) = true ∧ (tileOf s' t).mem = (tileOf s t).mem ∧ s'.stk = s.stk ∧
      ∀ u, u ≠ t → tileOf s' u = tileOf s u)) ∧
  (∀ (q : Req) (t off : Nat) (data : List Byte) (s : State), Claim.windowOpen s t → off + data.length ≤ winTop → s.flitErr = [] →
    (wordsOf off data.length).all (fun w => winWritable (tileOf s t) (max w off)) = true →
    Claim.completes (.windowWrite q t off data false) s (fun s' => Claim.windowStored t off data s s')) ∧
  (∀ (q : Req) (t off : Nat) (data : List Byte) (ep : Bool) (s : State), Claim.windowOpen s t → Claim.onePacket off data.length → off + data.length ≤ winTop → s.flitErr = [] →
    (wordsOf off data.length).all (fun w => winWritable (tileOf s t) (max w off)) = false →
    Claim.completes (.windowWrite q t off data ep) s (Claim.recordedOnArrival 0x0F04 (dieOfTile t) (Req.code q) (w64 ((winBase + t * 0x100000 + off) % 2 ^ 48)) (w64 (t % 2048)) s)) ∧
  (∀ (q : Req) (t off : Nat) (data : List Byte) (ep : Bool) (s : State), t < numTiles → tileState s t = 2 → Claim.onePacket off data.length → off < 0x100000 →
    Claim.completes (.windowWrite q t off data ep) s (fun s' =>
      tileOf s' t = { tileOf s t with held := (tileOf s t).held ++ [{ req := q, off := off, len := data.length, write := true, data := data, ep := ep }] } ∧
      (∀ u, u ≠ t → tileOf s' u = tileOf s u) ∧ s' = { s with tiles := s'.tiles })) ∧
  (∀ (q : Req) (t off len : Nat) (errs : List (Nat × Nat)) (s : State), t < numTiles → tileState s t = 2 → off < 0x100000 →
    Claim.completes (.windowRead q t off len errs) s (fun s' =>
      tileOf s' t = { tileOf s t with held := (tileOf s t).held ++ [{ req := q, off := off, len := len, write := false, data := [] }] } ∧
      (∀ u, u ≠ t → tileOf s' u = tileOf s u) ∧ s' = { s with tiles := s'.tiles })) ∧
  (∀ (q : Req) (t off : Nat) (data : List Byte) (ep : Bool) (s : State), Claim.onePacket off data.length → (t < numTiles → tileState s t ≠ 2) → (numTiles ≤ t ∨ tileState s t = 4 ∨ winTop < off + data.length) →
    Claim.completes (.windowWrite q t off data ep) s (Claim.onlyRecorded 0x0F03 0xFF (Req.code q) (w64 ((winBase + t * 0x100000 + off) % 2 ^ 48)) (w64 256) s)) ∧
  (∀ (q : Req) (t off len : Nat) (s : State), Claim.onePacket off len → (t < numTiles → tileState s t ≠ 2) → (numTiles ≤ t ∨ tileState s t = 4 ∨ winTop < off + len) →
    Claim.completes (.windowRead q t off len []) s (fun s' =>
      s'.ports.rdata = List.replicate len 0#8 ∧ s'.ports.rpoison = false ∧
      Claim.recorded 0x0F03 0xFF (Req.code q) (w64 ((winBase + t * 0x100000 + off) % 2 ^ 48)) 0#64 s s' ∧ Claim.regsKeep Claim.eventRegs s s' ∧
      (∀ u, tileOf s' u = tileOf s u) ∧ s'.stk = s.stk)) ∧
  (∀ (t off : Nat) (data : List Byte) (ep : Bool) (s : State), 64 < off % 64 + data.length →
    Claim.completes (.windowWrite .host t off data ep) s (fun s' => ∃ s1,
      exec (.windowWrite .host t off (data.take (64 - off % 64)) ep) s = .next s1 ∧
      exec (.windowWrite .host t (off + (64 - off % 64)) (data.drop (64 - off % 64)) ep) s1 = .next s'))

/-- A correctable word found by the scrub is counted; an uncorrectable one is counted, recorded and delivered poisoned from then on; an absent tile has no scrub; a code
base is taken where the region lies in the code store, else refused and recorded, and waits for a tile in MAP_HOLD (R24, R26, R31, R87). An error of one bit in a flit
that reaches a tile's router is corrected and counted in TILE_MESH_CE, a worse one poisons the flit and shows in TILE_SRAM_ERR (R33). -/
def Sys2Proof.Claim.ScrubsAndCodeBases : Prop :=
  (∀ (t o : Nat) (s : State), t < numTiles → tileState s t ≠ 4 → o < 0xC0000 → (tileOf s t).soft = [] →
    Claim.completes (.scrubPeriod t [(o, 1)]) s (fun s' =>
      rbits s' (reg .TILE_SRAM_CE t) 47 0 = (rbits s (reg .TILE_SRAM_CE t) 47 0 + 1) % 2 ^ 48 ∧ Claim.regsKeep [(reg .TILE_SRAM_CE t).off] s s' ∧
      s' = { s with regs := s'.regs, tiles := s'.tiles } ∧ ∀ u, tileOf s' u = tileOf s u)) ∧
  (∀ (t o : Nat) (s : State), t < numTiles → tileState s t ≠ 4 → o < 0xC0000 → (tileOf s t).soft = [] →
    Claim.completes (.scrubPeriod t [(o, 2)]) s (fun s' =>
      (tileOf s' t).wordPoison o = true ∧ rbits s' (reg .TILE_SRAM_UE t) 47 0 = (rbits s (reg .TILE_SRAM_UE t) 47 0 + 1) % 2 ^ 48 ∧
      bit (rget s' (reg .TILE_SRAM_ERR t)) (storeOf o) = true ∧ rget s' (reg .TILE_SRAM_UE_ADDR t) = w64 (o / 8 * 8) ∧
      Claim.recorded 0x0501 (dieOfTile t) t (w64 (o / 8 * 8 + storeOf o * 2 ^ 32)) 0#64 s s' ∧ tileOf s' t = { tileOf s t with poison := (tileOf s' t).poison } ∧
      (∀ u, u ≠ t → tileOf s' u = tileOf s u) ∧ s'.stk = s.stk)) ∧
  (∀ (t : Nat) (errs : List (Nat × Nat)) (s : State), numTiles ≤ t ∨ tileState s t = 4 → exec (.scrubPeriod t errs) s = .next s) ∧
  (∀ (q : Req) (t : Nat) (v : Word) (s : State), t < numTiles → tileState s t ≠ 2 → bits v 5 0 + bits v 11 8 + 1 ≤ 64 →
    Claim.completes (.tileSeqCodeWrite q t v) s (fun s' =>
      rbits s' (reg .TILE_SEQ_CODE t) 5 0 = bits v 5 0 ∧ rbits s' (reg .TILE_SEQ_CODE t) 11 8 = bits v 11 8 ∧ Claim.onlyRegs [(reg .TILE_SEQ_CODE t).off] s s')) ∧
  (∀ (q : Req) (t : Nat) (v : Word) (s : State), t < numTiles → tileState s t ≠ 2 → 64 < bits v 5 0 + bits v 11 8 + 1 →
    Claim.completes (.tileSeqCodeWrite q t v) s (Claim.onlyRecorded 0x0F08 0xFF (Req.code q) (w64 (reg .TILE_SEQ_CODE t).off) v s)) ∧
  (∀ (q : Req) (t : Nat) (v : Word) (s : State), t < numTiles → tileState s t = 2 →
    Claim.completes (.tileSeqCodeWrite q t v) s (fun s' =>
      tileOf s' t = { tileOf s t with held := (tileOf s t).held ++ [{ req := q, off := 0x100100, len := 8, write := true, data := leBytes 8 v.toNat }] } ∧
      (∀ u, u ≠ t → tileOf s' u = tileOf s u) ∧ s' = { s with tiles := s'.tiles })) ∧
  (∀ (t px py e : Nat) (s : State), tileAt s (px, py) = some t → SMap.get 0 s.flitErr (posKey px py) = e → e ≠ 0 →
    (flitIn (px, py) (false, s)).1 = (e != 1) ∧ SMap.get 0 (flitIn (px, py) (false, s)).2.flitErr (posKey px py) = 0 ∧
    (e = 1 → rbits (flitIn (px, py) (false, s)).2 (reg .TILE_MESH_CE t) 47 0 = (rbits s (reg .TILE_MESH_CE t) 47 0 + 1) % 2 ^ 48) ∧
    (e ≠ 1 → bit (rget (flitIn (px, py) (false, s)).2 (reg .TILE_SRAM_ERR t)) 8 = true))

/-- A map move of a quiet tile to the nearest usable spare: the map names the spare, its old position retires, the tile holds, its weight and data stores
are kept and the other stores are zero; when all routers have acknowledged it is in service, what waited is served, and the command that asked is answered (R30, R404,
R407). A tile retired for datapath faults does not move before its own scan, and a retirement does not move to a spare that has not passed its scan in this sweep or the
last (R401, R407). A router that fails its check passes packets through, and its tile begins to drain for a spare (R32). -/
def Sys2Proof.Claim.MapMoves : Prop :=
  (∀ (t px py : Nat) (s : State), t < numTiles → spareAsked s t = true → s.cox.movePos = [] → nearestSpare s t (px, py) = true → px < 64 → py < 32 →
    tileState s t = 0 → quiet s t = true → (tileOf s t).scanCmd = none → ownScanDue s t = false →
    Claim.completes (.mapMove t px py true) s (fun s' =>
      physPos s' t = (px, py) ∧ tileState s' t = 2 ∧ SMap.get false s'.retired (posKey (physPos s t).1 (physPos s t).2) = true ∧
      (∀ b, b < 0xC0000 → (tileOf s' t).byte b = (tileOf s t).byte b) ∧ (∀ b, 0xC0000 ≤ b → b < 0xF7000 → (tileOf s' t).byte b = 0#8) ∧
      rget s' (reg .TILE_TAINT_FLAGS t) = 0#64 ∧ (∀ u, u ≠ t → tileOf s' u = tileOf s u) ∧ s'.stk = s.stk)) ∧
  (∀ (t px py : Nat) (ok : Bool) (s : State), ownScanDue s t = true ∨ quiet s t = false ∨ tileState s t = 2 ∨ tileState s t = 4 → exec (.mapMove t px py ok) s = .next s) ∧
  (∀ (t px py : Nat) (ok : Bool) (s : State), spareAsked s t = false → retirement s t = none ∨ spareFresh s (px, py) = false ∨ nearestSpare s t (px, py) = false →
    exec (.mapMove t px py ok) s = .next s) ∧
  (∀ (t : Nat) (s : State), t < numTiles → tileState s t = 2 → (tileOf s t).held = [] → spareAsked s t = false → retirement s t = none →
    Claim.completes (.mapHoldClear t 1248) s (fun s' =>
      tileState s' t = 0 ∧ (∀ u, tileOf s' u = tileOf s u) ∧ s'.stk = s.stk ∧ Claim.regsKeep [(reg .TILE_STATE t).off] s s')) ∧
  (∀ (t off : Nat) (q : Req) (data : List Byte) (s : State), t < numTiles → tileState s t = 2 → (tileOf s t).held = [⟨q, off, data.length, true, data, false, false⟩] →
    off + data.length ≤ winTop → (wordsOf off data.length).all (fun w => winWritable (tileOf s t) (max w off)) = true → spareAsked s t = false → retirement s t = none →
    Claim.completes (.mapHoldClear t 1248) s (fun s' =>
      tileState s' t = 0 ∧ (tileOf s' t).held = [] ∧ (∀ i, i < data.length → (tileOf s' t).byte (off + i) = nth 0#8 data i) ∧
      (∀ b, (b < off ∨ off + data.length ≤ b) → (tileOf s' t).byte b = (tileOf s t).byte b) ∧ (∀ u, u ≠ t → tileOf s' u = tileOf s u))) ∧
  (∀ (t : Nat) (c : CmdRef) (s : State), t < numTiles → tileState s t = 2 → (tileOf s t).held = [] → s.cox.moveCmd = [(t, c)] → retirement s t = none → bit c.w0 18 = false →
    Claim.ringOpen s (cplOf s c.ring) = true →
    Claim.completes (.mapHoldClear t 1248) s (fun s' =>
      tileState s' t = 0 ∧ s'.cox.moveCmd = [] ∧ Claim.framed c stOK 0 0#64 s s' ∧ s'.cox.running = s.cox.running.erase c ∧ (∀ u, tileOf s' u = tileOf s u))) ∧
  (∀ (t acks : Nat) (s : State), tileState s t ≠ 2 ∨ acks ≠ 1248 → exec (.mapHoldClear t acks) s = .next s) ∧
  (∀ (px py : Nat) (s : State), px < 48 → py < 26 →
    Claim.completes (.routerCheckFailure px py) s (fun s' =>
      s'.passThrough = SMap.put false s.passThrough (posKey px py) true ∧ s'.stk = s.stk ∧ (tileAt s (px, py) = none → s.passThrough = [] → s' = { s with passThrough := s'.passThrough }))) ∧
  (∀ (px py t : Nat) (s : State), px < 48 → py < 26 → tileAt s (px, py) = some t → s.passThrough = [] → retiring s t = false → tileState s t = 0 → assist s 7 = false →
    (usableSpares { s with passThrough := [(posKey px py, true)] } (dieOfTile t)).isEmpty = false →
    Claim.completes (.routerCheckFailure px py) s (fun s' => tileState s' t = 1 ∧ retirement s' t = some { num := 0, kind := 4, a := t, b := 4, decided := true } ∧ s'.stk = s.stk)) ∧
  (∀ (px py : Nat) (s : State), 48 ≤ px ∨ 26 ≤ py → exec (.routerCheckFailure px py) s = .next s)

/-- Host and cox cannot change a GL field: a 32-bit or 64-bit write of a register that holds one, or of any register of the GATE block, has no effect but its
record in ERRLOG (R11). -/
def Obligations.GlFieldsAreReadOnly : Prop :=
  ∀ (q : Req) (off size : Nat) (v : Word) (n : RegName) (i j : Nat) (s : State), s.gate.st ≠ .off → mayReach q = true → size = 4 ∨ size = 8 → off % size = 0 →
    regAt (off / 8 * 8) = some (n, i, j) → isGl n (off / 8 * 8) = true →
    Claim.completes (.registerWrite q off size v) s (Claim.onlyRecorded 0x0F02 0xFF (Req.code q) (w64 (off / 8 * 8 % 65536)) v s)

/-- Registers whose write has an effect by a rule of its own, beyond their writable fields. -/
def Sys2Proof.Claim.ownEffect : List RegName :=
  [.TILE_SEQ_CODE, .TILE_PMC_CLR, .TILE_PMC_SEL, .TILE_PMC_TAGS, .PMC_SAMPLE, .PMC_FREEZE_NOW, .BLT_SPILL, .SCHED_ADV, .SCHED_SEG_A, .SCHED_SEG_B, .EPOCH_SET] ++
  [.EPOCH_FREEZE_CTL, .MBX_CMD_DB, .MBX_CPL_DB, .MBX_CMD_CFG, .MBX_CPL_CFG, .PCIE_BAR2_BASE, .GOV_CTL, .GOV_TJ, .GOV_TAG_BUDGET, .GOV_TAG_FIX, .COL_PACE]

/-- What bit b of a register holds after x is written to it (R8). -/
def Sys2Proof.Claim.bitWritten (n : RegName) (b : Nat) (old x : Bool) : Bool :=
  if bit (regInfo n).w1s b then old || x else if bit (regInfo n).w1c b then old && !x else if bit (regInfo n).rw b then x else old

/-- A 64-bit access reaches the register, a 32-bit access the half that its address selects; another width or alignment reads 0 or is discarded, and is
recorded (R8). The entries of ERRLOG are read at their offsets (R411). An access to the registers of a tile in MAP_HOLD waits (R31). A device without power
answers nothing (R368). -/
def Sys2Proof.Claim.RegisterWidths : Prop :=
  (∀ (q : Req) (off : Nat) (v : Word) (n : RegName) (i j : Nat) (s : State), s.gate.st ≠ .off → mayReach q = true → onHold s off = none → off % 8 = 0 →
    placeAt off = some (.reg n i j) → isGl n off = false → Claim.ownEffect.contains n = false →
    Claim.completes (.registerWrite q off 8 v) s (fun s' =>
      (∀ b, b < 64 → bit (rget s' (reg n i j)) b = Claim.bitWritten n b (bit (rget s (reg n i j)) b) (bit v b)) ∧ Claim.onlyRegs [(reg n i j).off] s s')) ∧
  (∀ (q : Req) (off : Nat) (v : Word) (n : RegName) (i j : Nat) (s : State), s.gate.st ≠ .off → mayReach q = true → onHold s off = none → off % 4 = 0 →
    placeAt (off / 8 * 8) = some (.reg n i j) → isGl n (off / 8 * 8) = false → Claim.ownEffect.contains n = false →
    Claim.completes (.registerWrite q off 4 v) s (fun s' =>
      (∀ b, b < 64 → bit (rget s' (reg n i j)) b =
        if b / 32 = off % 8 / 4 then Claim.bitWritten n b (bit (rget s (reg n i j)) b) (bit v (b % 32)) else bit (rget s (reg n i j)) b) ∧
      Claim.onlyRegs [(reg n i j).off] s s')) ∧
  (∀ (off size : Nat) (v : Word) (p : RegPlace) (s : State), s.gate.st ≠ .off → onHold s off = none → off < 0x4000000 → (size = 4 ∨ size = 8) → off % size = 0 →
    placeAt (off / 8 * 8) = some p → s.flitErr = [] → Claim.isCounter (off / 8 * 8) = false ∨ pmcTiles s = [] →
    Claim.completes (.bar0Access off size false v false) s (fun s' =>
      s'.ports = { s.ports with rdata := ((leBytes 8 (placeRead s p).toNat).drop (off % 8)).take size, rpoison := false } ∧ s' = { s with ports := s'.ports, regs := s'.regs } ∧
      Claim.counted [] s s' ∧ (blockTile off = none → s'.regs = s.regs))) ∧
  (∀ (k w : Nat) (s : State), s.gate.st ≠ .off → k < 163776 → w < 8 →
    Claim.completes (.bar0Access (0x601000 + k * 64 + w * 8) 8 false 0#64 false) s (fun s' =>
      s' = { s with ports := { s.ports with rdata := leBytes 8 (nth 0#64 (SMap.get [] s.rec_.log k) w).toNat, rpoison := false } })) ∧
  (∀ (q : Req) (off len : Nat) (s : State), s.gate.st ≠ .off → mayReach q = true → ((len ≠ 4 ∧ len ≠ 8) ∨ off % len ≠ 0) → onHold s off = none →
    Claim.completes (.badAccess q off len false) s (fun s' =>
      s'.ports.rdata = List.replicate len 0#8 ∧ Claim.recorded 0x0F01 0xFF (Req.code q) (w64 ((0x20000000000 + off) % 2 ^ 48)) (w64 (len % 256)) s s' ∧
      Claim.regsKeep Claim.eventRegs s s' ∧ s'.tiles = s.tiles ∧ s'.stk = s.stk)) ∧
  (∀ (q : Req) (off len : Nat) (s : State), s.gate.st ≠ .off → mayReach q = true → ((len ≠ 4 ∧ len ≠ 8) ∨ off % len ≠ 0) → onHold s off = none →
    Claim.completes (.badAccess q off len true) s (Claim.onlyRecorded 0x0F01 0xFF (Req.code q) (w64 ((0x20000000000 + off) % 2 ^ 48)) (w64 (len % 256 + 256)) s)) ∧
  (∀ (q : Req) (off size t : Nat) (v : Word) (s : State), s.gate.st ≠ .off → mayReach q = true → onHold s off = some t →
    Claim.completes (.registerWrite q off size v) s (fun s' =>
      tileOf s' t = { tileOf s t with held := (tileOf s t).held ++ [{ req := q, off := 0x100000 + off % 0x4000, len := size, write := true, data := leBytes 8 v.toNat }] } ∧
      (∀ u, u ≠ t → tileOf s' u = tileOf s u) ∧ s' = { s with tiles := s'.tiles })) ∧
  (∀ (off size t : Nat) (write : Bool) (v : Word) (s : State), s.gate.st ≠ .off → off < 0x4000000 → onHold s off = some t →
    Claim.completes (.bar0Access off size write v false) s (fun s' =>
      tileOf s' t = { tileOf s t with held := (tileOf s t).held ++ [{ req := .host, off := 0x100000 + off % 0x4000, len := size, write := write, data := leBytes 8 v.toNat }] } ∧
      (∀ u, u ≠ t → tileOf s' u = tileOf s u) ∧ s' = { s with tiles := s'.tiles })) ∧
  (∀ (q : Req) (off len t : Nat) (write : Bool) (s : State), s.gate.st ≠ .off → mayReach q = true → ((len ≠ 4 ∧ len ≠ 8) ∨ off % len ≠ 0) → onHold s off = some t →
    Claim.completes (.badAccess q off len write) s (fun s' =>
      tileOf s' t = { tileOf s t with held := (tileOf s t).held ++ [{ req := q, off := 0x100000 + off % 0x4000, len := len, write := write, data := [], bad := true }] } ∧
      (∀ u, u ≠ t → tileOf s' u = tileOf s u) ∧ s' = { s with tiles := s'.tiles })) ∧
  (∀ (q : Req) (off size : Nat) (write ep : Bool) (v : Word) (s : State), s.gate.st = .off →
    exec (.registerWrite q off size v) s = .next s ∧ exec (.badAccess q off size write) s = .next s ∧ exec (.bar0Access off size write v ep) s = .next s)

/-- An access of register space where no register stands, the space beyond the last tile's block among it, reads 0 or is discarded, and is recorded (R13). A write
that arrives poisoned is discarded and recorded (R429). -/
def Sys2Proof.Claim.UnmappedRegisters : Prop :=
  (∀ (q : Req) (off size : Nat) (v : Word) (s : State), s.gate.st ≠ .off → mayReach q = true → onHold s off = none → (size = 4 ∨ size = 8) → off % size = 0 →
    (placeAt (off / 8 * 8) = none ∨ 0x2200000 ≤ off) →
    Claim.completes (.registerWrite q off size v) s (Claim.onlyRecorded 0x0F03 0xFF (Req.code q) (w64 ((0x20000000000 + off) % 2 ^ 48)) (w64 256) s)) ∧
  (∀ (off size : Nat) (v : Word) (s : State), s.gate.st ≠ .off → onHold s off = none → off < 0x4000000 → (size = 4 ∨ size = 8) → off % size = 0 →
    (placeAt (off / 8 * 8) = none ∨ 0x2200000 ≤ off) →
    s.flitErr = [] →
    Claim.completes (.bar0Access off size false v false) s (fun s' =>
      s'.ports.rdata = List.replicate size 0#8 ∧ s'.ports.rpoison = false ∧
      Claim.recorded 0x0F03 0xFF (Req.code .host) (w64 ((0x20000000000 + off) % 2 ^ 48)) 0#64 s s' ∧ Claim.counted Claim.eventRegs s s' ∧ s'.tiles = s.tiles ∧ s'.stk = s.stk)) ∧
  (∀ (off size : Nat) (v : Word) (s : State), s.gate.st ≠ .off → off < 0x4000000 →
    Claim.completes (.bar0Access off size true v true) s (fun s' =>
      bit (rget s' (reg .PCIE_ERR)) 0 = true ∧ Claim.recorded 0x0F09 0xFF 0 (w64 ((0x20000000000 + off) % 2 ^ 48)) 0#64 s s' ∧
      Claim.regsKeep ((reg .PCIE_ERR).off :: Claim.eventRegs) s s' ∧ s'.tiles = s.tiles ∧ s'.stk = s.stk))

/-- An access through a tile window beyond the stores, or beyond the last tile, reads 0 or is discarded, and is recorded (R13). -/
def Sys2Proof.Claim.UnmappedWindows : Prop :=
  (∀ (t off : Nat) (data : List Byte) (s : State), s.gate.st ≠ .off → Claim.onePacket off data.length → off + data.length ≤ 0x100000 → t * 0x100000 + off + data.length ≤ 0x80000000 →
    (t < numTiles → tileState s t ≠ 2) → (numTiles ≤ t ∨ winTop < off + data.length) →
    Claim.completes (.bar4Access (t * 0x100000 + off) 0 true data false) s
      (Claim.onlyRecorded 0x0F03 0xFF (Req.code .host) (w64 ((winBase + (t * 0x100000 + off)) % 2 ^ 48)) (w64 256) s)) ∧
  (∀ (t off len : Nat) (s : State), s.gate.st ≠ .off → Claim.onePacket off len → off + len ≤ 0x100000 → t * 0x100000 + off + len ≤ 0x80000000 →
    (t < numTiles → tileState s t ≠ 2) → (numTiles ≤ t ∨ winTop < off + len) →
    Claim.completes (.bar4Access (t * 0x100000 + off) len false [] false) s (fun s' =>
      s'.ports.rdata = List.replicate len 0#8 ∧ s'.ports.rpoison = false ∧
      Claim.recorded 0x0F03 0xFF (Req.code .host) (w64 ((winBase + (t * 0x100000 + off)) % 2 ^ 48)) 0#64 s s' ∧ Claim.regsKeep Claim.eventRegs s s' ∧ s'.tiles = s.tiles ∧ s'.stk = s.stk))

/-- BAR2 shows stack memory at its base from MOORED on and before reads 0, and waits for a critical stack; BAR4 shows the tile windows, a larger request in aligned pieces
of at most 64 bytes; a poisoned write of either is discarded and recorded (R429); the base takes a value aligned to the size and below the top of stack memory, another
is refused and recorded, and a new size sets the base to 0 (R44, R241, R426, R427). -/
def Sys2Proof.Claim.PcieWindows : Prop :=
  (∀ (off len dpa : Nat) (s : State), isUp s = true → off + len ≤ 2 ^ (30 + rbits s (reg .PCIE_BAR2_SIZE) 3 0) → dpa = rbits s (reg .PCIE_BAR2_BASE) 47 30 * 2 ^ 30 + off →
    (linesOf dpa len).all (fun l => stkPresent s l) = true → stkWaits s dpa len = false → s.stk.flips = [] → s.flitErr = [] →
    Claim.completes (.bar2Access off len false [] false) s (fun s' =>
      s'.ports.rdata = rawBytes (stkPeek s dpa len) ∧ s'.ports.rpoison = anyPoison (stkPeek s dpa len) ∧ s'.stk.mem = s.stk.mem ∧ s'.tiles = s.tiles)) ∧
  (∀ (off dpa : Nat) (data : List Byte) (s : State), isUp s = true → off + data.length ≤ 2 ^ (30 + rbits s (reg .PCIE_BAR2_SIZE) 3 0) →
    dpa = rbits s (reg .PCIE_BAR2_BASE) 47 30 * 2 ^ 30 + off → 0 < data.length → dpa % 64 + data.length ≤ 64 → stkPresent s dpa = true → stkWaits s dpa data.length = false →
    placeLost s (physOf s (backing s false dpa)) = false → s.stk.flips = [] →
    Claim.completes (.bar2Access off 0 true data false) s (fun s' =>
      (∀ i, i < data.length → SMap.get 0#8 s'.stk.mem (physOf s (backing s false dpa + i)) = nth 0#8 data i) ∧
      (∀ b, (∀ i, i < data.length → physOf s (backing s false dpa + i) ≠ b) → SMap.get 0#8 s'.stk.mem b = SMap.get 0#8 s.stk.mem b) ∧ s'.tiles = s.tiles)) ∧
  (∀ (off len dpa : Nat) (s : State), isUp s = true → off + len ≤ 2 ^ (30 + rbits s (reg .PCIE_BAR2_SIZE) 3 0) → dpa = rbits s (reg .PCIE_BAR2_BASE) 47 30 * 2 ^ 30 + off →
    stkWaits s dpa len = true → exec (.bar2Access off len false [] false) s = .next s) ∧
  (∀ (off len : Nat) (s : State), s.gate.st = .dry → off + len ≤ 2 ^ (30 + rbits s (reg .PCIE_BAR2_SIZE) 3 0) →
    Claim.completes (.bar2Access off len false [] false) s (fun s' => s'.ports.rdata = List.replicate len 0#8 ∧ s'.stk = s.stk ∧ s'.tiles = s.tiles)) ∧
  (∀ (t off : Nat) (data : List Byte) (s : State), s.gate.st ≠ .off → Claim.windowOpen s t → 0 < data.length → off + data.length ≤ winTop → s.flitErr = [] →
    (wordsOf off data.length).all (fun w => winWritable (tileOf s t) (max w off)) = true →
    Claim.completes (.bar4Access (t * 0x100000 + off) 0 true data false) s (fun s' => Claim.windowStored t off data s s')) ∧
  (∀ (t off len : Nat) (s : State), s.gate.st ≠ .off → Claim.windowOpen s t → 0 < len → off + len ≤ winTop → s.flitErr = [] → (tileOf s t).soft = [] →
    Claim.completes (.bar4Access (t * 0x100000 + off) len false [] false) s (fun s' =>
      s'.ports.rdata = rawBytes ((tileOf s t).read off len) ∧ s'.ports.rpoison = anyPoison ((tileOf s t).read off len) ∧ (∀ u, tileOf s' u = tileOf s u) ∧ s'.stk = s.stk ∧
      Claim.counted [] s s')) ∧
  (∀ (off : Nat) (data : List Byte) (s : State), s.gate.st ≠ .off → off + data.length ≤ 0x80000000 → 64 < off % 64 + data.length →
    Claim.completes (.bar4Access off 0 true data false) s (fun s' => ∃ s1,
      exec (.bar4Access off 0 true (data.take (64 - off % 64)) false) s = .next s1 ∧
      exec (.bar4Access (off + (64 - off % 64)) 0 true (data.drop (64 - off % 64)) false) s1 = .next s')) ∧
  (∀ (off : Nat) (data : List Byte) (s : State), s.gate.st ≠ .off → off + data.length ≤ 0x80000000 →
    Claim.completes (.bar4Access off 0 true data true) s (fun s' => bit (rget s' (reg .PCIE_ERR)) 0 = true ∧
      Claim.recorded 0x0F09 0xFF 0 (w64 ((winBase + off) % 2 ^ 48)) 0#64 s s' ∧ Claim.regsKeep ((reg .PCIE_ERR).off :: Claim.eventRegs) s s' ∧ s'.tiles = s.tiles ∧ s'.stk = s.stk)) ∧
  (∀ (off dpa : Nat) (data : List Byte) (s : State), s.gate.st ≠ .off → off + data.length ≤ 2 ^ (30 + rbits s (reg .PCIE_BAR2_SIZE) 3 0) →
    dpa = rbits s (reg .PCIE_BAR2_BASE) 47 30 * 2 ^ 30 + off →
    Claim.completes (.bar2Access off 0 true data true) s (fun s' => bit (rget s' (reg .PCIE_ERR)) 0 = true ∧
      Claim.recorded 0x0F09 0xFF 0 (w64 (dpa % 2 ^ 48)) 0#64 s s' ∧ Claim.regsKeep ((reg .PCIE_ERR).off :: Claim.eventRegs) s s' ∧ s'.tiles = s.tiles ∧ s'.stk = s.stk)) ∧
  (∀ (q : Req) (v : Word) (s : State), s.gate.st ≠ .off → mayReach q = true → (bits v 47 30 * 2 ^ 30) % 2 ^ (30 + rbits s (reg .PCIE_BAR2_SIZE) 3 0) = 0 →
    bits v 47 30 * 2 ^ 30 < stackTop →
    Claim.completes (.pcieBar2BaseWrite q v) s (fun s' => rbits s' (reg .PCIE_BAR2_BASE) 47 30 = bits v 47 30 ∧ Claim.onlyRegs [(reg .PCIE_BAR2_BASE).off] s s')) ∧
  (∀ (q : Req) (v : Word) (s : State), s.gate.st ≠ .off → mayReach q = true → stackTop ≤ bits v 47 30 * 2 ^ 30 ∨ (bits v 47 30 * 2 ^ 30) % 2 ^ (30 + rbits s (reg .PCIE_BAR2_SIZE) 3 0) ≠ 0 →
    Claim.completes (.pcieBar2BaseWrite q v) s (Claim.onlyRecorded 0x0F08 0xFF (Req.code q) (w64 (reg .PCIE_BAR2_BASE).off) v s)) ∧
  (∀ (n : Nat) (s : State), s.gate.st ≠ .off → n ≤ 9 →
    Claim.completes (.bar2Resize n) s (fun s' =>
      rget s' (reg .PCIE_BAR2_SIZE) = w64 n ∧ rget s' (reg .PCIE_BAR2_BASE) = 0#64 ∧ Claim.onlyRegs [(reg .PCIE_BAR2_SIZE).off, (reg .PCIE_BAR2_BASE).off] s s')) ∧
  (∀ (off len : Nat) (write ep : Bool) (data : List Byte) (q : Req) (v : Word) (s : State), s.gate.st = .off →
    exec (.bar2Access off len write data ep) s = .next s ∧ exec (.bar4Access off len write data ep) s = .next s ∧ exec (.pcieBar2BaseWrite q v) s = .next s ∧
    exec (.bar2Resize len) s = .next s)

/-- Accesses through tile windows, scrubs, code bases and the move of a tile. A detail or result that the catalogue does not give is 0, the model's reading (log 77). -/
def Obligations.TileWindows : Prop := Claim.WindowAccesses ∧ Claim.ScrubsAndCodeBases ∧ Claim.MapMoves

/-- Register accesses and the three PCIe windows. -/
def Obligations.HostAccesses : Prop := Claim.RegisterWidths ∧ Claim.UnmappedRegisters ∧ Claim.UnmappedWindows ∧ Claim.PcieWindows

/-! ### Links and packets (R280 to R301) -/

/-- Only link l and registers move. -/
def Sys2Proof.Claim.onlyLink (l : Nat) (s s' : State) : Prop :=
  s' = { s with fab := { s.fab with links := s'.fab.links }, regs := s'.regs } ∧ ∀ m, m ≠ l → linkOf s' m = linkOf s m

/-- Every register that is none of these of link l holds what it held. -/
def Sys2Proof.Claim.linkRegs (l : Nat) (ns : List RegName) (s s' : State) : Prop := ∀ r : Reg, ns.all (fun n => r.off != (reg n l).off) = true → rget s' r = rget s r

/-- Retry entries that an acknowledgement leaves (R283). -/
def Sys2Proof.Claim.unackedBy (f : Flit) (k : Link) : List TxFlit :=
  if f.ackValid then k.retry.filter (fun t => !decide ((f.ack + 4096 - t.seq) % 4096 < 2048)) else k.retry

/-- What of a sent flit a replay does not write anew: its sequence and what it carries, not its acknowledgement and credits (R283). -/
def Sys2Proof.Claim.carried (t : TxFlit) : TxFlit := { t with ack := 0, ackValid := false, credA := (0, 0), credB := (0, 0), org := none }

/-- The link takes flits, nothing waits to leave it, and the Gate lets it send (R281, R289, R362). -/
def Sys2Proof.Claim.linkIdle (s : State) (l : Nat) : Prop := linkTakes s l = true ∧ (linkOf s l).waitQ = [] ∧ bit (rget s (reg .GATE_LINK_MASK)) l = true

/-- The flit is accepted in order: the next sequence is expected, the flit sent last acknowledges it, and nothing is owed (R282, R283). -/
def Sys2Proof.Claim.accepted (l : Nat) (f : Flit) (s' : State) : Prop :=
  (linkOf s' l).rxExp = (f.seq + 1) % 4096 ∧ (linkOf s' l).rxLast = f.seq ∧ (linkOf s' l).nakOut = false ∧ (linkOf s' l).ackDue = false ∧
  ∃ g, (linkOf s' l).wire = some g ∧ g.ack = f.seq ∧ g.ackValid = true

/-- The commands by which a flit of a type comes in (R282, R290). -/
def Sys2Proof.Claim.flitOf (k l : Nat) (f : Flit) : Instr × Nat :=
  match k with
  | 0 => (.dataFlit l f, 1) | 1 => (.idleFlit l f, 0) | 2 => (.beatFlit l f, 3) | 3 => (.nakFlit l f, 4) | 4 => (.identity l f, 5) | _ => (.degrade l f, 5)

/-- Reception on a link: 272 bytes that fail their CRC, have a reserved type or were touched by codewords that correction could not mend are counted and ask once for a
repeat, which names the last sequence accepted; a flit of any type whose CRC fails is treated so too; acknowledgements empty the retry buffer and credits are taken from
every flit; the flit whose sequence is due is accepted and acknowledged, another is discarded with a NAK; a NAK has the retry buffer sent again; a link that takes no flits
is not changed by one (R280 to R284, R286, R289, R296). -/
def Sys2Proof.Claim.FlitsReceived : Prop :=
  (∀ (l n : Nat) (raw : List Byte) (s : State), Claim.linkIdle s l → (linkOf s l).nakOut = false → (linkOf s l).retry.length < 512 → n ≠ 0 ∨ rawFails raw = true →
    Claim.completes (.flitCrcFailure l raw n) s (fun s' =>
      rbits s' (reg .LNK_CRC_ERR l) 47 0 = (rbits s (reg .LNK_CRC_ERR l) 47 0 + 1) % 2 ^ 48 ∧ (linkOf s' l).nakOut = true ∧ (linkOf s' l).rxExp = (linkOf s l).rxExp ∧
      (∃ g, (linkOf s' l).wire = some g ∧ g.kind = 4 ∧ g.seq = (linkOf s l).txSeq ∧ g.ack = (linkOf s l).rxLast ∧ g.ackValid = true) ∧
      rbits s' (reg .LNK_FEC_UNCORR l) 47 0 = (rbits s (reg .LNK_FEC_UNCORR l) 47 0 + n) % 2 ^ 48 ∧
      bit (rget s' (reg .LNK_ERR l)) 5 = (bit (rget s (reg .LNK_ERR l)) 5 || (n == 0 && rawReserved raw)) ∧
      bit (rget s' (reg .LNK_ERR l)) 3 = (bit (rget s (reg .LNK_ERR l)) 3 || n != 0) ∧
      (linkOf s' l).soakBad = ((linkOf s l).soakBad || (n != 0 && lnkState s l == 6)) ∧ Claim.onlyLink l s s' ∧
      Claim.linkRegs l [.LNK_CRC_ERR, .LNK_FEC_UNCORR, .LNK_ERR, .LNK_TX_FLITS] s s')) ∧
  (∀ (l : Nat) (raw : List Byte) (s : State), rawFails raw = false → exec (.flitCrcFailure l raw 0) s = .next s) ∧
  (∀ (k l : Nat) (f : Flit) (s : State), k < 6 → Claim.linkIdle s l → (linkOf s l).nakOut = false → flitOk (Claim.flitOf k l f).2 f = false →
    Claim.completes (Claim.flitOf k l f).1 s (fun s' =>
      rbits s' (reg .LNK_CRC_ERR l) 47 0 = (rbits s (reg .LNK_CRC_ERR l) 47 0 + 1) % 2 ^ 48 ∧ (linkOf s' l).nakOut = true ∧ (linkOf s' l).rxExp = (linkOf s l).rxExp ∧
      (linkOf s' l).rcvdCr = (linkOf s l).rcvdCr ∧ Claim.onlyLink l s s' ∧ Claim.linkRegs l [.LNK_CRC_ERR, .LNK_TX_FLITS] s s')) ∧
  (∀ (k l n : Nat) (f : Flit) (raw : List Byte) (s : State), linkTakes s l = false →
    exec (Claim.flitOf k l f).1 s = .next s ∧ exec (.flitCrcFailure l raw n) s = .next s ∧ exec (.nakHoldoffExpiry l) s = .next s) ∧
  (∀ (l : Nat) (f : Flit) (s : State), linkTakes s l = true → (linkOf s l).waitQ = [] → flitOk 0 f = true → (linkOf s l).ackDue = false →
    Claim.completes (.idleFlit l f) s (fun s' =>
      (linkOf s' l).retry = Claim.unackedBy f (linkOf s l) ∧ (linkOf s' l).rxExp = (linkOf s l).rxExp ∧ SMap.get 0 (linkOf s' l).rcvdCr (f.credB.1 % 8) = f.credB.2 % 4096 ∧
      (f.credA.1 % 8 ≠ f.credB.1 % 8 → SMap.get 0 (linkOf s' l).rcvdCr (f.credA.1 % 8) = f.credA.2 % 4096) ∧
      ((linkOf s' l).retry.length ≠ (linkOf s l).retry.length → rbits s' (reg .LNK_STAT l) 10 9 = 0) ∧ Claim.onlyLink l s s' ∧ Claim.linkRegs l [.LNK_STAT] s s')) ∧
  (∀ (l : Nat) (f : Flit) (s : State), Claim.linkIdle s l → flitOk 3 f = true → f.seq = (linkOf s l).rxExp →
    Claim.completes (.beatFlit l f) s (fun s' =>
      Claim.accepted l f s' ∧ (linkOf s' l).retry = Claim.unackedBy f (linkOf s l) ∧
      rbits s' (reg .LNK_RX_FLITS l) 47 0 = (rbits s (reg .LNK_RX_FLITS l) 47 0 + 1) % 2 ^ 48 ∧ Claim.onlyLink l s s' ∧ Claim.linkRegs l [.LNK_RX_FLITS, .LNK_STAT] s s')) ∧
  (∀ (l : Nat) (f : Flit) (s : State), Claim.linkIdle s l → flitOk 3 f = true → f.seq ≠ (linkOf s l).rxExp →
    Claim.completes (.beatFlit l f) s (fun s' =>
      (linkOf s' l).rxExp = (linkOf s l).rxExp ∧ (linkOf s' l).nakOut = true ∧ rbits s' (reg .LNK_RX_FLITS l) 47 0 = rbits s (reg .LNK_RX_FLITS l) 47 0 ∧ Claim.onlyLink l s s')) ∧
  (∀ (l : Nat) (f : Flit) (s : State), Claim.linkIdle s l → flitOk 4 f = true → f.seq = (linkOf s l).rxExp →
    Claim.completes (.nakFlit l f) s (fun s' =>
      Claim.accepted l f s' ∧ (linkOf s' l).retry.map Claim.carried = (Claim.unackedBy { f with ackValid := true } (linkOf s l)).map Claim.carried ∧
      rbits s' (reg .LNK_REPLAYS l) 47 0 = (rbits s (reg .LNK_REPLAYS l) 47 0 + (linkOf s' l).retry.length) % 2 ^ 48 ∧ Claim.onlyLink l s s')) ∧
  (∀ (l : Nat) (s : State), linkTakes s l = true →
    Claim.completes (.nakHoldoffExpiry l) s (fun s' => linkOf s' l = { linkOf s l with nakOut := false } ∧ Claim.onlyLink l s s' ∧ s'.regs = s.regs)) ∧
  (∀ (l : Nat) (s : State), l < 48 → Claim.completes (.replayWindowExpiry l) s (fun s' => linkOf s' l = { linkOf s l with window := none } ∧ Claim.onlyLink l s s' ∧ s'.regs = s.regs))

/-- The bytes of the packet that this flit ends (R288). -/
def Sys2Proof.Claim.packet (k : Link) (f : Flit) : PBytes := packetOf (SMap.get [] k.part (f.vc % 8) ++ flitData f)

/-- A DATA flit that the link accepts in order, with room in the buffer of its channel, on a port that carries DATA (R283, R286). -/
def Sys2Proof.Claim.dataTaken (l : Nat) (f : Flit) (s : State) : Prop :=
  Claim.linkIdle s l ∧ lnkState s l ≠ 7 ∧ flitOk 1 f = true ∧ f.seq = (linkOf s l).rxExp ∧ vcUsed (linkOf s l) (f.vc % 8) < vcBuffer (f.vc % 8)

/-- A DATA flit in order joins its packet with the poison of its bytes; the last flit of a packet for this device delivers it whole, header and data apart; a packet for
another device goes on, whole, out of the link that its route names, and one without a route is discarded, counted and answered; a replayed packet delivered before is
dropped and counted; a kind that is reserved is recorded; a flit beyond its buffer is a protocol error; a port that is MISCABLED acknowledges DATA and drops it
(R25, R283, R286, R288, R289, R292 to R295). -/
def Sys2Proof.Claim.PacketsAssemble : Prop :=
  (∀ (l : Nat) (f : Flit) (s : State), Claim.dataTaken l f s → f.last = false →
    Claim.completes (.dataFlit l f) s (fun s' =>
      SMap.get [] (linkOf s' l).part (f.vc % 8) = SMap.get [] (linkOf s l).part (f.vc % 8) ++ flitData f ∧ Claim.accepted l f s' ∧
      SMap.get 0 (linkOf s' l).accCr (f.vc % 8) = (SMap.get 0 (linkOf s l).accCr (f.vc % 8) + 1) % 4096 ∧ Claim.onlyLink l s s')) ∧
  (∀ (l : Nat) (f : Flit) (s : State), Claim.dataTaken l f s → f.last = true → f.dst = ownId s → bit (pktHead (Claim.packet (linkOf s l) f) 0) 10 = false →
    [0x01, 0x02, 0x20, 0x21].contains (pktKind (Claim.packet (linkOf s l) f)) = true → s.fab.rx.all (fun p => bits p.w0 7 0 != 0x10) = true →
    Claim.completes (.dataFlit l f) s (fun s' =>
      s'.fab.rx = s.fab.rx ++ [⟨l, f.vc % 8, (SMap.get [] (linkOf s l).part (f.vc % 8)).length / 256 + 1, f.src, pktHead (Claim.packet (linkOf s l) f) 0,
        pktHead (Claim.packet (linkOf s l) f) 1, (Claim.packet (linkOf s l) f).drop 16⟩] ∧
      SMap.get [] (linkOf s' l).part (f.vc % 8) = [] ∧ (linkOf s' l).lastPktSeq = f.seq ∧ Claim.accepted l f s' ∧ s'.tiles = s.tiles ∧ s'.stk = s.stk)) ∧
  (∀ (l m : Nat) (second first : Bool) (f : Flit) (s : State), Claim.dataTaken l f s → f.last = true → f.dst ≠ ownId s → bit (pktHead (Claim.packet (linkOf s l) f) 0) 10 = false →
    nextHop s (some (l / 16)) f.src f.dst (pktTag (Claim.packet (linkOf s l) f)) = .out m second first → m ≠ l → (linkOf s m).waitQ = [] →
    Claim.completes (.dataFlit l f) s (fun s' =>
      (linkOf s' m).waitQ.length + (linkOf s' m).retry.length = (linkOf s m).retry.length + ceilDiv (Claim.packet (linkOf s l) f).length 256 ∧
      (∀ g ∈ (linkOf s' m).waitQ, g.bytes = Claim.packet (linkOf s l) f ∧ g.dst = f.dst ∧ g.src = f.src) ∧
      rbits s' (reg .FAB_DETOURS) 47 0 = (rbits s (reg .FAB_DETOURS) 47 0 + (if first then 1 else 0)) % 2 ^ 48 ∧
      s'.fab.rx = s.fab.rx ∧ (linkOf s' l).rxExp = (f.seq + 1) % 4096 ∧ s'.tiles = s.tiles ∧ s'.stk = s.stk)) ∧
  (∀ (l : Nat) (f : Flit) (s : State), Claim.dataTaken l f s → f.last = true → f.dst ≠ ownId s → bit (pktHead (Claim.packet (linkOf s l) f) 0) 10 = false →
    nextHop s (some (l / 16)) f.src f.dst (pktTag (Claim.packet (linkOf s l) f)) = .none → pktKind (Claim.packet (linkOf s l) f) = 0x20 →
    Claim.completes (.dataFlit l f) s (fun s' =>
      rbits s' (reg .FAB_NOROUTE) 47 0 = (rbits s (reg .FAB_NOROUTE) 47 0 + 1) % 2 ^ 48 ∧ s'.fab.rx = s.fab.rx ∧ Claim.accepted l f s' ∧ Claim.onlyLink l s s')) ∧
  (∀ (l m : Nat) (second first : Bool) (f : Flit) (s : State), Claim.dataTaken l f s → f.last = true → f.dst ≠ ownId s → bit (pktHead (Claim.packet (linkOf s l) f) 0) 10 = false →
    nextHop s (some (l / 16)) f.src f.dst (pktTag (Claim.packet (linkOf s l) f)) = .none → pktKind (Claim.packet (linkOf s l) f) = 0x01 →
    nextHop s none (ownId s) f.src (pktTag (Claim.packet (linkOf s l) f)) = .out m second first → (linkOf s m).waitQ = [] →
    Claim.completes (.dataFlit l f) s (fun s' =>
      rbits s' (reg .FAB_NOROUTE) 47 0 = (rbits s (reg .FAB_NOROUTE) 47 0 + 1) % 2 ^ 48 ∧ s'.fab.rx = s.fab.rx ∧
      ∃ g ∈ (linkOf s' m).retry ++ (linkOf s' m).waitQ, g.dst = f.src ∧ pktKind g.bytes = 0x21 ∧ pktTag g.bytes = pktTag (Claim.packet (linkOf s l) f))) ∧
  (∀ (l : Nat) (f : Flit) (s : State), Claim.dataTaken l f s → f.last = true → f.dst = ownId s → bit (pktHead (Claim.packet (linkOf s l) f) 0) 10 = true →
    bits (pktHead (Claim.packet (linkOf s l) f) 0) 49 44 < 48 → bits (pktHead (Claim.packet (linkOf s l) f) 0) 49 44 / 16 = l / 16 → bits (pktHead (Claim.packet (linkOf s l) f) 0) 49 44 ≠ l →
    (linkOf s (bits (pktHead (Claim.packet (linkOf s l) f) 0) 49 44)).window = some (bits (pktHead (Claim.packet (linkOf s l) f) 0) 61 50) →
    coordOf f.dst (l / 16) = ownCoord s (l / 16) →
    Claim.completes (.dataFlit l f) s (fun s' =>
      rbits s' (reg .FAB_DUP) 47 0 = (rbits s (reg .FAB_DUP) 47 0 + 1) % 2 ^ 48 ∧ s'.fab.rx = s.fab.rx ∧ Claim.accepted l f s' ∧ s'.tiles = s.tiles ∧ s'.stk = s.stk)) ∧
  (∀ (l : Nat) (f : Flit) (s : State), Claim.dataTaken l f s → f.last = true → f.dst = ownId s → bit (pktHead (Claim.packet (linkOf s l) f) 0) 10 = false →
    [0x01, 0x02, 0x10, 0x20, 0x21].contains (pktKind (Claim.packet (linkOf s l) f)) = false →
    Claim.completes (.dataFlit l f) s (fun s' =>
      Claim.recorded 0x0FFF 0xFF (0x3000 + f.src % 4096) 288#64 (w64 (pktKind (Claim.packet (linkOf s l) f))) s s' ∧ s'.fab.rx = s.fab.rx ∧ s'.tiles = s.tiles ∧ s'.stk = s.stk)) ∧
  (∀ (l : Nat) (f : Flit) (s : State), Claim.linkIdle s l → flitOk 1 f = true → f.seq = (linkOf s l).rxExp → vcBuffer (f.vc % 8) ≤ vcUsed (linkOf s l) (f.vc % 8) →
    Claim.completes (.dataFlit l f) s (fun s' =>
      rbits s' (reg .LNK_CRC_ERR l) 47 0 = (rbits s (reg .LNK_CRC_ERR l) 47 0 + 1) % 2 ^ 48 ∧ bit (rget s' (reg .LNK_ERR l)) 5 = true ∧ (linkOf s' l).rxExp = (linkOf s l).rxExp ∧
      (linkOf s' l).nakOut = true ∧ (linkOf s' l).part = (linkOf s l).part ∧ Claim.onlyLink l s s')) ∧
  (∀ (l : Nat) (f : Flit) (s : State), Claim.linkIdle s l → lnkState s l = 7 → flitOk 1 f = true → f.seq = (linkOf s l).rxExp → vcUsed (linkOf s l) (f.vc % 8) < vcBuffer (f.vc % 8) →
    Claim.completes (.dataFlit l f) s (fun s' =>
      Claim.accepted l f s' ∧ (linkOf s' l).part = (linkOf s l).part ∧ SMap.get 0 (linkOf s' l).accCr (f.vc % 8) = (SMap.get 0 (linkOf s l).accCr (f.vc % 8) + 1) % 4096 ∧
      SMap.get 0 (linkOf s' l).freedCr (f.vc % 8) = (SMap.get 0 (linkOf s l).freedCr (f.vc % 8) + 1) % 4096 ∧ Claim.onlyLink l s s'))

/-- Sending and timers: a BEAT takes the next sequence number, carries the last acknowledgement and stands in the retry buffer, waits while that buffer is full, and is not
sent again while one waits (R282, R283); the first two lapses of the acknowledgement deadline replay, the third fails the link, which leaves its bond (R284, R294); a failed
link trains again when its time has come, or stays and is reported where the Gate blocks it (R296, R362); a soaked one comes up, or starts its soak anew after an
uncorrectable codeword (R296). Where none of this is due, nothing changes. -/
def Obligations.LinkTimers : Prop :=
  (∀ (l : Nat) (s : State), Claim.linkIdle s l → (linkOf s l).retry.length < 512 →
    Claim.completes (.beatTimer l) s (fun s' =>
      (∃ g, (linkOf s' l).retry = (linkOf s l).retry ++ [g] ∧ (linkOf s' l).wire = some g ∧ g.kind = 3 ∧ g.seq = (linkOf s l).txSeq ∧ g.ack = (linkOf s l).rxLast ∧
        g.ackValid = (linkOf s l).rxAny) ∧
      (linkOf s' l).txSeq = ((linkOf s l).txSeq + 1) % 4096 ∧ (linkOf s' l).waitQ = [] ∧
      rbits s' (reg .LNK_TX_FLITS l) 47 0 = (rbits s (reg .LNK_TX_FLITS l) 47 0 + 1) % 2 ^ 48 ∧ Claim.onlyLink l s s' ∧ Claim.linkRegs l [.LNK_TX_FLITS] s s')) ∧
  (∀ (l : Nat) (s : State), linkTakes s l = true → (linkOf s l).waitQ = [] → 512 ≤ (linkOf s l).retry.length →
    Claim.completes (.beatTimer l) s (fun s' => linkOf s' l = { linkOf s l with waitQ := [{ kind := 3 }] } ∧ Claim.onlyLink l s s' ∧ s'.regs = s.regs)) ∧
  (∀ (l : Nat) (s : State), linkTakes s l = false ∨ (linkOf s l).waitQ.any (fun f => f.kind == 3) = true → exec (.beatTimer l) s = .next s) ∧
  (∀ (l : Nat) (s : State), linkTakes s l = true → lnkState s l ≠ 5 → (linkOf s l).retry ≠ [] → rbits s (reg .LNK_STAT l) 10 9 < 2 →
    Claim.completes (.ackDeadlineLapse l) s (fun s' =>
      rbits s' (reg .LNK_STAT l) 10 9 = rbits s (reg .LNK_STAT l) 10 9 + 1 ∧ lnkState s' l = lnkState s l ∧
      (linkOf s' l).retry.map Claim.carried = (linkOf s l).retry.map Claim.carried ∧
      rbits s' (reg .LNK_ACK_LAPSE l) 47 0 = (rbits s (reg .LNK_ACK_LAPSE l) 47 0 + 1) % 2 ^ 48 ∧
      rbits s' (reg .LNK_REPLAYS l) 47 0 = (rbits s (reg .LNK_REPLAYS l) 47 0 + (linkOf s l).retry.length) % 2 ^ 48 ∧ Claim.onlyLink l s s' ∧
      Claim.linkRegs l [.LNK_STAT, .LNK_ACK_LAPSE, .LNK_REPLAYS] s s')) ∧
  (∀ (l : Nat) (s : State), linkTakes s l = true → lnkState s l ≠ 5 → (linkOf s l).retry ≠ [] → 2 ≤ rbits s (reg .LNK_STAT l) 10 9 →
    Claim.completes (.ackDeadlineLapse l) s (fun s' =>
      lnkState s' l = 5 ∧ (linkOf s' l).window = some (linkOf s l).lastPktSeq ∧ bit (rget s' (reg .LNK_ERR l)) 0 = true ∧
      rget s' (reg .LNK_DOWN_EPOCH l) = linkEpoch s ∧ s'.tiles = s.tiles ∧ s'.stk = s.stk)) ∧
  (∀ (l : Nat) (s : State), linkTakes s l = false ∨ lnkState s l = 5 ∨ (linkOf s l).retry = [] → exec (.ackDeadlineLapse l) s = .next s) ∧
  (∀ (l : Nat) (s : State), l < 48 → outputsOn s = true → lnkState s l = 5 → mayTrain s l = true →
    Claim.completes (.linkRetrainTimer l) s (fun s' => lnkState s' l = 1 ∧ s'.fab = s.fab ∧ s'.tiles = s.tiles ∧ s'.stk = s.stk)) ∧
  (∀ (l : Nat) (s : State), l < 48 → outputsOn s = true → lnkState s l = 5 → gateBlocks s l = true →
    Claim.completes (.linkRetrainTimer l) s (fun s' =>
      lnkState s' l = 5 ∧ rbits s' (reg .GATE_LINK_BLOCKED) 47 0 = (rbits s (reg .GATE_LINK_BLOCKED) 47 0 + 1) % 2 ^ 48 ∧
      Claim.recorded 0x0201 0xFF 0 2#64 (w64 l) s s' ∧ s'.fab = s.fab ∧ s'.tiles = s.tiles ∧ s'.stk = s.stk)) ∧
  (∀ (l : Nat) (s : State), lnkState s l ≠ 5 → exec (.linkRetrainTimer l) s = .next s) ∧
  (∀ (l : Nat) (s : State), l < 48 → outputsOn s = true → lnkState s l = 6 → (linkOf s l).soakBad = false →
    Claim.completes (.soakComplete l) s (fun s' => lnkState s' l = 3 ∧ (linkOf s' l).soak = false ∧ s'.tiles = s.tiles ∧ s'.stk = s.stk)) ∧
  (∀ (l : Nat) (s : State), l < 48 → outputsOn s = true → lnkState s l = 6 → (linkOf s l).soakBad = true →
    Claim.completes (.soakComplete l) s (fun s' => linkOf s' l = { linkOf s l with soakBad := false } ∧ Claim.onlyLink l s s' ∧ s'.regs = s.regs)) ∧
  (∀ (l : Nat) (s : State), lnkState s l ≠ 6 → exec (.soakComplete l) s = .next s)

/-- A LINKCTL flit that the link accepts in order (R283, R290). -/
def Sys2Proof.Claim.ctlTaken (l : Nat) (f : Flit) (s : State) : Prop := Claim.linkIdle s l ∧ flitOk 5 f = true ∧ f.seq = (linkOf s l).rxExp

/-- A link has begun to degrade to a pair of its lanes: its state, its error bit, the epoch when it left, the pair it names to its peer (R297, R300). -/
def Sys2Proof.Claim.degrades (l pair : Nat) (s s' : State) : Prop :=
  lnkState s' l = 4 ∧ bit (rget s' (reg .LNK_ERR l)) 1 = true ∧ rget s' (reg .LNK_DOWN_EPOCH l) = linkEpoch s ∧ (linkOf s' l).degPair = pair ∧ s'.tiles = s.tiles ∧ s'.stk = s.stk

/-- Training, identity and degrade: a trained link starts a new session and sends its identity (R289); an identity that is not the cabled peer's leaves the link MISCABLED and is
recorded (R289, R410), the right one brings it up, through a soak where one is due (R296); a subtype that is reserved sets its error bit (R290); a lane pair with symbol errors
beyond the threshold, or the peer's request, starts a degrade, which names the pair to keep, drains and returns on those two lanes; where requests cross the lower pair is kept
(R297). Out of place, each changes nothing. -/
def Obligations.LinksTrainAndDegrade : Prop :=
  (∀ (l lanes : Nat) (s : State), l < 48 → outputsOn s = true → bit (rget s (reg .GATE_LINK_MASK)) l = true → lnkState s l = 1 → 1 ≤ lanes → lanes ≤ 3 →
    (linkOf s l).waitQ = [] →
    Claim.completes (.linkTrainingComplete l lanes) s (fun s' =>
      lnkState s' l = 2 ∧ rbits s' (reg .LNK_STAT l) 4 3 = lanes ∧ (linkOf s' l).rxExp = 1 ∧ (linkOf s' l).txSeq = 2 ∧
      (∃ g, (linkOf s' l).retry = [g] ∧ g.seq = 1 ∧ g.kind = 5 ∧ g.bytes = cleanBytes (ownIdentity s l) ∧ g.ackValid = false) ∧
      (linkOf s' l).window = (linkOf s l).window ∧ s'.tiles = s.tiles ∧ s'.stk = s.stk)) ∧
  (∀ (l lanes : Nat) (s : State), lnkState s l ≠ 1 ∨ lanes = 0 ∨ 3 < lanes → exec (.linkTrainingComplete l lanes) s = .next s) ∧
  (∀ (l : Nat) (f : Flit) (s : State), Claim.ctlTaken l f s → lnkState s l = 2 → nth 0#8 f.body 0 = 1#8 → (peerIdentity s l).map idFields ≠ some (idFields f.body) →
    Claim.completes (.identity l f) s (fun s' =>
      lnkState s' l = 7 ∧ bit (rget s' (reg .LNK_ERR l)) 2 = true ∧ Claim.accepted l f s' ∧ s'.tiles = s.tiles ∧ s'.stk = s.stk)) ∧
  (∀ (l : Nat) (f : Flit) (s : State), Claim.ctlTaken l f s → lnkState s l = 2 → nth 0#8 f.body 0 = 1#8 → (peerIdentity s l).map idFields = some (idFields f.body) →
    Claim.completes (.identity l f) s (fun s' =>
      lnkState s' l = (if (linkOf s l).soak then 6 else 3) ∧ rget s' (reg .LNK_PEER l) = w64 (nth 0 (idFields f.body) 1 + nth 0 (idFields f.body) 2 * 2 ^ 12 + 2 ^ 18) ∧
      (linkOf s' l).rxExp = (f.seq + 1) % 4096 ∧ s'.tiles = s.tiles ∧ s'.stk = s.stk)) ∧
  (∀ (l : Nat) (f : Flit) (s : State), Claim.ctlTaken l f s → nth 0#8 f.body 0 ≠ 1#8 → nth 0#8 f.body 0 ≠ 2#8 →
    Claim.completes (.identity l f) s (fun s' => bit (rget s' (reg .LNK_ERR l)) 5 = true ∧ Claim.accepted l f s' ∧ lnkState s' l = lnkState s l ∧ Claim.onlyLink l s s')) ∧
  (∀ (l : Nat) (f : Flit) (s : State), Claim.ctlTaken l f s → lnkState s l = 4 → nth 0#8 f.body 0 = 2#8 → (nth 0#8 f.body 1 = 129#8 ∨ nth 0#8 f.body 1 = 130#8) →
    Claim.completes (.degrade l f) s (fun s' =>
      (linkOf s' l).degAnswered = true ∧ lnkState s' l = 4 ∧ (linkOf s' l).degPair = (linkOf s l).degPair ∧ Claim.accepted l f s' ∧ Claim.onlyLink l s s')) ∧
  (∀ (l pair : Nat) (f : Flit) (s : State), Claim.ctlTaken l f s → lnkState s l = 3 → nth 0#8 f.body 0 = 2#8 → (pair = 1 ∨ pair = 2) → nth 0#8 f.body 1 = BitVec.ofNat 8 pair →
    Claim.completes (.degrade l f) s (fun s' => Claim.degrades l pair s s' ∧ (linkOf s' l).degAnswered = true)) ∧
  (∀ (l pair : Nat) (f : Flit) (s : State), Claim.ctlTaken l f s → lnkState s l = 4 → (linkOf s l).degAnswered = false → nth 0#8 f.body 0 = 2#8 → (pair = 1 ∨ pair = 2) →
    nth 0#8 f.body 1 = BitVec.ofNat 8 pair →
    Claim.completes (.degrade l f) s (fun s' =>
      (linkOf s' l).degPair = min (linkOf s l).degPair pair ∧ (linkOf s' l).degAnswered = true ∧ lnkState s' l = 4 ∧ Claim.onlyLink l s s')) ∧
  (∀ (l : Nat) (f : Flit) (s : State), Claim.ctlTaken l f s → nth 0#8 f.body 0 = 2#8 → (nth 0#8 f.body 1 = 0#8 ∨ nth 0#8 f.body 1 = 3#8) →
    Claim.completes (.degrade l f) s (fun s' => bit (rget s' (reg .LNK_ERR l)) 5 = true ∧ Claim.accepted l f s' ∧ lnkState s' l = lnkState s l ∧ Claim.onlyLink l s s')) ∧
  (∀ (l n : Nat) (syms : List Nat) (s : State), linkTakes s l = true → (∀ i, i < 4 → nth 0 syms i ≤ rbits s (reg .LNK_DEGRADE_THR l) 15 0) →
    Claim.completes (.degradeWindow l syms n) s (fun s' =>
      (∀ i, i < 4 → rbits s' (reg .LNK_LANE_SYM l) (16 * i + 15) (16 * i) = min 0xFFFF (nth 0 syms i)) ∧
      rbits s' (reg .LNK_FEC_CORR l) 47 0 = (rbits s (reg .LNK_FEC_CORR l) 47 0 + n) % 2 ^ 48 ∧ Claim.onlyRegs [(reg .LNK_LANE_SYM l).off, (reg .LNK_FEC_CORR l).off] s s')) ∧
  (∀ (l a n : Nat) (syms : List Nat) (s : State), linkTakes s l = true → lnkState s l = 3 → rbits s (reg .LNK_STAT l) 4 3 = 3 → rbits s (reg .LNK_DEGRADE_THR l) 15 0 ≠ 0 → a < 4 →
    rbits s (reg .LNK_DEGRADE_THR l) 15 0 < nth 0 syms a → (∀ i, i < 4 → i / 2 ≠ a / 2 → nth 0 syms i ≤ rbits s (reg .LNK_DEGRADE_THR l) 15 0) →
    Claim.completes (.degradeWindow l syms n) s (fun s' => Claim.degrades l (if a < 2 then 2 else 1) s s' ∧ (linkOf s' l).degAnswered = false)) ∧
  (∀ (l : Nat) (s : State), linkTakes s l = true → lnkState s l = 4 → (linkOf s l).degAnswered = true → (linkOf s l).retry = [] →
    Claim.completes (.degradeDrained l) s (fun s' => linkOf s' l = { linkOf s l with drained := true } ∧ Claim.onlyLink l s s' ∧ s'.regs = s.regs)) ∧
  (∀ (l : Nat) (s : State), linkTakes s l = true → lnkState s l = 4 → (linkOf s l).drained = true → (linkOf s l).degPair = 1 ∨ (linkOf s l).degPair = 2 → (linkOf s l).waitQ = [] →
    Claim.completes (.degradeComplete l) s (fun s' =>
      lnkState s' l = 2 ∧ rbits s' (reg .LNK_STAT l) 4 3 = (linkOf s l).degPair ∧ (linkOf s' l).drained = false ∧ s'.tiles = s.tiles ∧ s'.stk = s.stk)) ∧
  (∀ (l n : Nat) (syms : List Nat) (s : State), linkTakes s l = false → exec (.degradeWindow l syms n) s = .next s) ∧
  (∀ (l : Nat) (s : State), linkTakes s l = false ∨ lnkState s l ≠ 4 ∨ (linkOf s l).degAnswered = false ∨ (linkOf s l).retry ≠ [] → exec (.degradeDrained l) s = .next s) ∧
  (∀ (l : Nat) (s : State), linkTakes s l = false ∨ lnkState s l ≠ 4 ∨ (linkOf s l).drained = false → exec (.degradeComplete l) s = .next s)

/-- The oldest packet of this kind is all that was received. -/
def Sys2Proof.Claim.received (s : State) (kind : Nat) (p : RxPkt) : Prop := s.fab.rx = [p] ∧ bits p.w0 7 0 = kind

/-- Packets received: a PUT into a tile's stores or into stack memory writes its data and frees its buffer, waits while its tile is in MAP_HOLD, and is recorded where its address
maps nothing (R13, R31, R288); with its acknowledgement asked for, that goes to its source with its tag (R288); an acknowledgement ends the PUT it names with its status (R288,
R392); a notice marks the bonds of its sender that are down (R296); a NOROUTE ends the PUT it answers (R295); with one live bond a repeated notice goes to its peer, and with all
ports up none goes (R296). Without a packet of its kind each changes nothing. -/
def Sys2Proof.Claim.PacketsTakeEffect : Prop :=
  (∀ (p : RxPkt) (t off : Nat) (s : State), Claim.received s 0x01 p → bit p.w0 9 = false → bits p.w1 47 0 = winBase + t * 0x100000 + off →
    Claim.windowOpen s t → 0 < p.data.length → off + p.data.length ≤ winTop → (wordsOf off p.data.length).all (fun w => winWritable (tileOf s t) (max w off)) = true →
    s.flitErr = [] → anyPoison p.data = false →
    Claim.completes .putPacket s (fun s' =>
      s'.fab.rx = [] ∧ (∀ i, i < p.data.length → (tileOf s' t).byte (off + i) = (nth (0#8, false) p.data i).1) ∧
      (∀ b, (b < off ∨ off + p.data.length ≤ b) → (tileOf s' t).byte b = (tileOf s t).byte b) ∧ (∀ u, u ≠ t → tileOf s' u = tileOf s u) ∧ s'.stk = s.stk ∧
      ((tileOf s t).soft = [] → Claim.counted [] s s'))) ∧
  (∀ (p : RxPkt) (t off : Nat) (s : State), Claim.received s 0x01 p → bits p.w1 47 0 = winBase + t * 0x100000 + off → off + p.data.length ≤ winTop → t < numTiles →
    tileState s t = 2 → exec .putPacket s = .next s) ∧
  (∀ (p : RxPkt) (a : Nat) (s : State), Claim.received s 0x01 p → bit p.w0 9 = false → a = bits p.w1 47 0 → a % 64 + p.data.length ≤ 64 → 0 < p.data.length → a < stackTop →
    stkWaits s a p.data.length = false → stkPresent s a = true → placeLost s (physOf s (backing s false a)) = false → s.flitErr = [] → s.stk.flips = [] → anyPoison p.data = false →
    Claim.completes .putPacket s (fun s' =>
      s'.fab.rx = [] ∧ (∀ i, i < p.data.length → SMap.get 0#8 s'.stk.mem (physOf s (backing s false a + i)) = (nth (0#8, false) p.data i).1) ∧
      (∀ b, (∀ i, i < p.data.length → physOf s (backing s false a + i) ≠ b) → SMap.get 0#8 s'.stk.mem b = SMap.get 0#8 s.stk.mem b) ∧ s'.tiles = s.tiles)) ∧
  (∀ (p : RxPkt) (s : State), Claim.received s 0x01 p → bit p.w0 9 = false → winBase + 0x48000000 ≤ bits p.w1 47 0 →
    Claim.completes .putPacket s (fun s' =>
      s'.fab.rx = [] ∧ Claim.recorded 0x0F03 0xFF (0x3000 + p.src % 4096) (w64 (bits p.w1 47 0)) 0x100#64 s s' ∧ s'.tiles = s.tiles ∧ s'.stk = s.stk)) ∧
  (∀ (p : RxPkt) (m : Nat) (second first : Bool) (s : State), Claim.received s 0x01 p → bit p.w0 9 = true → winBase + 0x48000000 ≤ bits p.w1 47 0 →
    nextHop s none (ownId s) p.src (bits p.w0 43 28) = .out m second first → (linkOf s m).waitQ = [] →
    Claim.completes .putPacket s (fun s' =>
      s'.fab.rx = [] ∧ s'.tiles = s.tiles ∧ s'.stk = s.stk ∧
      ∃ g ∈ (linkOf s' m).retry ++ (linkOf s' m).waitQ, g.dst = p.src ∧ pktKind g.bytes = 0x02 ∧ pktTag g.bytes = bits p.w0 43 28 ∧ bits (pktHead g.bytes 0) 15 12 = 1)) ∧
  (∀ (s : State), s.fab.rx = [] → exec .putPacket s = .next s ∧ exec .putAckPacket s = .next s ∧ exec .lsnPacket s = .next s ∧ exec .noroutePacket s = .next s) ∧
  (∀ (p : RxPkt) (w : PutWait) (s : State), Claim.received s 0x02 p → s.fab.puts = [w] → w.dst = p.src → w.tag = bits p.w0 43 28 → bits p.w0 15 12 = 0 →
    w.cmd.ring < 8 → bit w.cmd.w0 18 = false → Claim.ringOpen s (cplOf s w.cmd.ring) = true →
    Claim.completes .putAckPacket s (fun s' =>
      s'.fab.rx = [] ∧ s'.fab.puts = [] ∧ Claim.framed w.cmd stOK 0 0#64 s s' ∧ s'.cox.running = s.cox.running.erase w.cmd ∧ s'.tiles = s.tiles ∧ s'.stk = s.stk)) ∧
  (∀ (p : RxPkt) (w : PutWait) (st : Nat) (s : State), Claim.received s 0x02 p → s.fab.puts = [w] → w.dst = p.src → w.tag = bits p.w0 43 28 → bits p.w0 15 12 = st → 1 ≤ st → st ≤ 3 →
    w.cmd.ring < 8 → Claim.ringOpen s (cplOf s w.cmd.ring) = true →
    Claim.completes .putAckPacket s (fun s' =>
      s'.fab.rx = [] ∧ s'.fab.puts = [] ∧ Claim.framed w.cmd (if st = 1 then stREFUSED_ADDR else if st = 2 then stPOISON else stUNREACHABLE) st 0#64 s s' ∧
      s'.tiles = s.tiles ∧ s'.stk = s.stk)) ∧
  (∀ (p : RxPkt) (s : State), Claim.received s 0x20 p → bits p.w1 1 0 < 3 →
    Claim.completes .lsnPacket s (fun s' =>
      s'.fab.rx = [] ∧ (∀ c, c < 16 → SMap.get false s'.fab.down (bits p.w1 1 0 * 256 + bits p.w1 7 4 * 16 + c) = (bits p.w1 31 16).testBit c) ∧
      s'.fab.puts = s.fab.puts ∧ s'.tiles = s.tiles ∧ s'.stk = s.stk)) ∧
  (∀ (p : RxPkt) (w : PutWait) (s : State), Claim.received s 0x21 p → bits p.w1 23 16 = 0x01 → s.fab.puts = [w] → w.dst = bits p.w1 11 0 → w.tag = bits p.w0 43 28 →
    w.cmd.ring < 8 → Claim.ringOpen s (cplOf s w.cmd.ring) = true →
    Claim.completes .noroutePacket s (fun s' =>
      s'.fab.rx = [] ∧ s'.fab.puts = [] ∧ Claim.framed w.cmd stUNREACHABLE 3 0#64 s s' ∧ s'.tiles = s.tiles ∧ s'.stk = s.stk)) ∧
  (∀ (d c l : Nat) (s : State), d < 3 → outputsOn s = true → groupSize s d = 2 → ownCoord s d = 1 - c → c < 2 → liveBond s d c = [l] → (linkOf s (linkOfRole s d l)).waitQ = [] →
    (∀ k, k < 3 → coordOf (ownId s) k = ownCoord s k) →
    Claim.completes (.lsnRepeat d) s (fun s' =>
      (linkOf s' (linkOfRole s d l)).waitQ.length + (linkOf s' (linkOfRole s d l)).retry.length =
        (linkOf s (linkOfRole s d l)).retry.length + 1 ∧ s'.tiles = s.tiles ∧ s'.stk = s.stk)) ∧
  (∀ (d : Nat) (s : State), 3 ≤ d ∨ outputsOn s = false ∨ (∀ j, j < 15 → (portOffset (groupSize s d) j).isSome = true → lnkState s (linkOfRole s d j) = 3) →
    exec (.lsnRepeat d) s = .next s)

/-- Flits are received, packets assembled, and take effect. A detail or result that the catalogue does not give is 0, the model's reading (log 77). -/
def Obligations.PacketsArrive : Prop := Claim.FlitsReceived ∧ Claim.PacketsAssemble ∧ Claim.PacketsTakeEffect

/-! ### Commands of the mailbox (R373 to R394) -/

/-- What serving a command leaves: the state t, which is s with the command's effect, but for the mailbox's own account: the head of the ring and the count of
commands go on by one, the final frame stands in the completion ring (R374, R375, R377). -/
def Sys2Proof.Claim.answered (ring : Nat) (f : Frame) (status detail : Nat) (result : Word) (t s s' : State) : Prop :=
  s' = { t with regs := s'.regs, cox := { t.cox with slots := s'.cox.slots, phase := s'.cox.phase, cplUsed := s'.cox.cplUsed }, ports := s'.ports } ∧
  Claim.regsKeep [(reg .MBX_CMD_HEAD ring).off, (reg .MBX_CMDS).off, (reg .MBX_CPL_TAIL (cplOf s ring)).off] t s' ∧
  rbits s' (reg .MBX_CMD_HEAD ring) 11 0 = (rbits s (reg .MBX_CMD_HEAD ring) 11 0 + 1) % ringFrames (rbits s (reg .MBX_CMD_CFG ring) 2 0) ∧
  rbits s' (reg .MBX_CMDS) 47 0 = (rbits s (reg .MBX_CMDS) 47 0 + 1) % 2 ^ 48 ∧
  Claim.framed (Claim.refOf s ring f) status detail result s s' ∧ (bit f.w0 17 = false → s'.ports = t.ports)

/-- A command of the catalogue, taken with its completion ring open, whose condition holds, is answered with this status, detail and result and has this effect. -/
def Sys2Proof.Claim.serves (mk : Nat → Frame → Instr) (opc : Nat) (k : CmdForm) (cond : Frame → State → Prop) (status : Nat) (detail : Frame → State → Nat)
    (result : Frame → State → Word) (effect : CmdRef → Frame → State → State) : Prop :=
  ∀ (ring : Nat) (f : Frame) (s : State), Claim.taken s ring opc f k → (status = stOK → bit f.w0 18 = false) → Claim.ringOpen s (cplOf s ring) = true → cond f s →
    Claim.completes (mk ring f) s (Claim.answered ring f status (detail f s) (result f s) (effect (Claim.refOf s ring f) f s) s)

/-- The commands of the catalogue, in the order of their opcodes. -/
noncomputable def Sys2Proof.Claim.mail (k : Nat) : Nat → Frame → Instr := List.getD [
  .cfgQuery, .cfgBegin, .cfgWrite, .cfgRead, .cfgCommit, .cfgRelease, .workEnq, .workDrain,
  .workRun, .workDiscard, .cgOpen, .cgAbort, .cgFree, .shrSet, .shrClear, .memLocalSet,
  .memLocalClear, .bnLoad, .bnJob, .memRepair, .commSet, .commClear, .colSubmit, .colAbort,
  .putSend, .routeSet, .routeClear, .spareAssign, .spareRelease, .pwrClockCap, .pwrRelearn, .stepAdv,
  .tscLoad, .bltRead, .scanTile, .spareTile, .spareDecide, .quarClose, .ctrDump, .sampleRing,
  .fwInfo, .fwRestart, .warmReset, .timeNextSec] k .warmReset

/-- Opcode and form of the frame of each (R376, R387 to R394). -/
def Sys2Proof.Claim.mailForm (k : Nat) : Nat × CmdForm := List.getD [
  (0x0100, { buf := true }), (0x0101, { ops := [maskBits 0 0] }), (0x0102, { ops := [maskBits 15 0], buf := true }), (0x0103, { ops := [maskBits 16 0], buf := true }), (0x0104, { ops := [maskAll] }), (0x0105, {}), (0x0200, { ops := [maskBits 10 0 ||| maskBits 21 16], buf := true }), (0x0201, {}),
  (0x0202, {}), (0x0203, {}), (0x0210, { ops := [maskBits 8 0 ||| maskBits 63 32] }), (0x0211, { ops := [maskBits 15 0] }), (0x0212, { ops := [maskBits 15 0] }), (0x0213, { ops := [maskBits 4 0, maskAll, maskAll, maskBits 31 0] }), (0x0214, { ops := [maskBits 4 0] }), (0x0300, { ops := [maskBits 3 0, maskAll, maskBits 5 0] }),
  (0x0301, { ops := [maskBits 3 0] }), (0x0302, { ops := [maskBits 15 0], buf := true }), (0x0303, { ops := [maskBits 2 0, maskBits 47 0] }), (0x0304, { ops := [maskBits 32 0] }), (0x0400, { ops := [maskBits 3 0, 0xFFFFFF1#64] }), (0x0401, { ops := [maskBits 3 0] }), (0x0402, { ops := [maskBits 47 0] }), (0x0403, { ops := [maskBits 31 0] }),
  (0x0404, { ops := [setBit (maskBits 11 0 ||| maskBits 47 32) 16 true, maskBits 47 0, maskBits 47 0, maskBits 11 0] }), (0x0405, { ops := [0xFF3#64] }), (0x0406, { ops := [0xF3#64] }), (0x0407, { ops := [0xF3#64] }), (0x0408, { ops := [maskBits 1 0] }), (0x0500, { ops := [maskBits 3 0 ||| maskBits 26 16] }), (0x0501, { ops := [maskBits 15 0] }), (0x0600, {}),
  (0x0601, { ops := [maskBits 11 0 ||| maskBits 27 16], buf := true }), (0x0602, { ops := [maskBits 11 0 ||| maskBits 27 16], buf := true }), (0x0700, { ops := [maskBits 10 0] }), (0x0701, { ops := [maskBits 10 0 ||| maskBits 21 16 ||| maskBits 28 24 ||| maskBits 31 31] }), (0x0702, { ops := [maskBits 32 0] }), (0x0703, { ops := [maskBits 33 0] }), (0x0800, { ops := [maskBits 10 0 ||| maskBits 26 16], buf := true }), (0x0801, { ops := [maskBits 3 0, maskBits 47 0] }),
  (0x0900, { buf := true }), (0x0901, { ops := [maskBits 0 0] }), (0x0902, {}), (0x0A00, { ops := [maskAll] })] k (0, {})

/-- A frame waits where it reads a stack at its critical step: its buffer, or the record or data that its operands name; so does work for a tile held for a move (R31, R241). -/
def Sys2Proof.Claim.frameWaits (e : Nat × CmdForm) (f : Frame) (s : State) : Bool :=
  (e.2.buf && bufWaits f s) || (e.1 == 0x0303 && stkWaits s (bits f.w2 47 0) 256) || (e.1 == 0x0402 && stkWaits s (bits f.w1 47 0) 128) ||
  (e.1 == 0x0404 && stkWaits s (bits f.w2 47 0) (bits f.w4 11 0 + 1)) || (e.1 == 0x0200 && decide (bits f.w1 10 0 < numTiles) && tileState s (bits f.w1 10 0) == 2)

/-- How commands are answered before they are served (R376, R378, R387): an opcode outside the catalogue, a group not enabled for the ring, a field that the catalogue does not
list; each for every command of the catalogue, which does nothing where its frame is not the one that the cox takes, and waits for a critical stack that it reads and for a
tile held for a move (R31, R241); a final OK of a quiet command posts no frame (R376); a frame for a full ring is held and one for a ring that the host disabled is dropped and counted (R375, R382);
one behind an outstanding step advance of its ring waits for its place (R379). A detail or result that the catalogue does not give is 0, the model's reading (log 77). -/
def Obligations.FramesRefusedHeldOrQuiet : Prop :=
  (∀ (ring : Nat) (f : Frame) (s : State), cmdReady s ring f = true → catalogue.contains (bits f.w0 15 0) = false → Claim.ringOpen s (cplOf s ring) = true →
    Claim.completes (.unknownOpcode ring f) s (Claim.answered ring f stUNKNOWN_OPCODE 0 0#64 s s)) ∧
  (∀ (k ring : Nat) (f : Frame) (s : State), k < 44 → cmdReady s ring f = false ∨ bits f.w0 15 0 ≠ (Claim.mailForm k).1 → exec (Claim.mail k ring f) s = .next s) ∧
  (∀ (k ring : Nat) (f : Frame) (s : State), k < 44 → cmdReady s ring f = true → bits f.w0 15 0 = (Claim.mailForm k).1 → groupOn s ring (Claim.mailForm k).1 = false →
    Claim.frameWaits (Claim.mailForm k) f s = false → Claim.ringOpen s (cplOf s ring) = true →
    Claim.completes (Claim.mail k ring f) s (Claim.answered ring f stREFUSED_PERM 0 0#64 s s)) ∧
  (∀ (k ring : Nat) (f : Frame) (s : State), k < 44 → cmdReady s ring f = true → bits f.w0 15 0 = (Claim.mailForm k).1 → groupOn s ring (Claim.mailForm k).1 = true →
    frameOk f (Claim.mailForm k).2 = false → Claim.frameWaits (Claim.mailForm k) f s = false → Claim.ringOpen s (cplOf s ring) = true →
    Claim.completes (Claim.mail k ring f) s (Claim.answered ring f stREFUSED_FORM 0 0#64 s s)) ∧
  (∀ (k ring : Nat) (f : Frame) (s : State), k < 44 → groupOn s ring (Claim.mailForm k).1 = true → frameOk f (Claim.mailForm k).2 = true → Claim.frameWaits (Claim.mailForm k) f s = true →
    exec (Claim.mail k ring f) s = .next s) ∧
  (∀ (ring : Nat) (f : Frame) (s : State), cmdReady s ring f = false ∨ catalogue.contains (bits f.w0 15 0) = true → exec (.unknownOpcode ring f) s = .next s) ∧
  (∀ (ring : Nat) (f : Frame) (s : State), Claim.taken s ring 0x0A00 f { ops := [maskAll] } → assist s 13 = false → bit f.w0 18 = true →
    Claim.completes (.timeNextSec ring f) s (fun s' =>
      rget s' (reg .EPOCH_NEXT_SEC) = f.w1 ∧ s' = { s with regs := s'.regs, ep := { s.ep with target := s'.ep.target } } ∧
      Claim.regsKeep [(reg .MBX_CMD_HEAD ring).off, (reg .MBX_CMDS).off, (reg .EPOCH_NEXT_SEC).off] s s')) ∧
  (∀ (ring : Nat) (f : Frame) (s : State), cmdReady s ring f = true → catalogue.contains (bits f.w0 15 0) = false → cplEnabled s (cplOf s ring) = false →
    framesAhead s ring = 0 → SMap.get false s.cox.unreg (cplOf s ring) = true →
    Claim.completes (.unknownOpcode ring f) s (fun s' => (SMap.get [] s'.cox.held (cplOf s ring)).length = 1 ∧ s'.cox.slots = s.cox.slots ∧ s'.tiles = s.tiles ∧ s'.stk = s.stk)) ∧
  (∀ (ring : Nat) (f : Frame) (s : State), cmdReady s ring f = true → catalogue.contains (bits f.w0 15 0) = false → cplEnabled s (cplOf s ring) = false →
    framesAhead s ring = 0 → SMap.get false s.cox.unreg (cplOf s ring) = false →
    Claim.completes (.unknownOpcode ring f) s (fun s' =>
      rbits s' (reg .MBX_CPL_OVF (cplOf s ring)) 47 0 = (rbits s (reg .MBX_CPL_OVF (cplOf s ring)) 47 0 + 1) % 2 ^ 48 ∧ s'.cox.slots = s.cox.slots ∧ s'.tiles = s.tiles ∧ s'.stk = s.stk)) ∧
  (∀ (ring : Nat) (f : Frame) (s : State), cmdReady s ring f = true → catalogue.contains (bits f.w0 15 0) = false → framesAhead s ring ≠ 0 →
    Claim.completes (.unknownOpcode ring f) s (fun s' =>
      s'.cox = { s.cox with order := s.cox.order ++ [⟨Claim.refOf s ring f, framesAhead s ring, cmdFrame s (Claim.refOf s ring f) stUNKNOWN_OPCODE 0 0#64⟩] } ∧
      s'.tiles = s.tiles ∧ s'.stk = s.stk))

/-- Commands that build the configuration (R224, R385, R386, R388, R389, R391, R392), that declare routes (R298) and set the second (R328): each answered OK with its effect alone; building is
refused while a commit holds the staging copy (R382), a place or form outside its limits with REFUSED_FORM, a route or second outside its mode with REFUSED_MODE. A detail or result that the catalogue does not give is 0, the model's reading (log 77). -/
def Obligations.ConfigurationCommands : Prop :=
  Claim.serves Instr.cfgBegin 0x0101 { ops := [maskBits 0 0] } (fun _ s => s.cox.lock = none) stOK (fun _ _ => 0) (fun _ _ => 0#64)
    (fun _ f s => { s with cox := { s.cox with staging := if bit f.w1 0 then s.cox.active else [] } }) ∧
  Claim.serves Instr.cfgWrite 0x0102 { ops := [maskBits 15 0], buf := true } (fun f s => s.cox.lock = none ∧ bit f.w7 32 = false ∧ bits f.w1 15 0 + bufLen f ≤ cfgLen) stOK
    (fun _ _ => 0) (fun _ _ => 0#64)
    (fun _ f s => { s with cox := { s.cox with staging := SMap.putList 0#8 s.cox.staging (bits f.w1 15 0) ((List.range (bufLen f)).map (fun i => nth 0#8 f.buf i)) } }) ∧
  Claim.serves Instr.cfgRead 0x0103 { ops := [maskBits 16 0], buf := true } (fun f _ => bit f.w7 32 = false ∧ bits f.w1 15 0 + bufLen f ≤ cfgLen) stOK (fun _ _ => 0) (fun _ _ => 0#64)
    (fun _ f s => { s with cox := { s.cox with hostMem := SMap.putList 0#8 s.cox.hostMem f.w6.toNat (SMap.getList 0#8 (if bit f.w1 16 then s.cox.active else s.cox.staging) (bits f.w1 15 0) (bufLen f)) } }) ∧
  Claim.serves Instr.cfgQuery 0x0100 { buf := true } (fun f _ => bit f.w7 32 = false ∧ 64 ≤ bufLen f) stOK (fun _ _ => 0) (fun _ _ => 0#64)
    (fun _ f s => { s with cox := { s.cox with hostMem := SMap.putList 0#8 s.cox.hostMem f.w6.toNat (wordBytes (description s)) } }) ∧
  Claim.serves Instr.memLocalClear 0x0301 { ops := [maskBits 3 0] } (fun _ s => s.cox.lock = none) stOK (fun _ _ => 0) (fun _ _ => 0#64)
    (fun _ f s => { s with cox := { s.cox with staging := SMap.putList 0#8 s.cox.staging (0x240 + 16 * bits f.w1 3 0) (List.replicate 16 0#8) } }) ∧
  Claim.serves Instr.memLocalSet 0x0300 { ops := [maskBits 3 0, maskAll, maskBits 5 0] }
    (fun f s => s.cox.lock = none ∧ f.w2.toNat % 2 ^ 17 = 0 ∧ f.w2.toNat < stackTop ∧
      localsOk (SMap.putList 0#8 s.cox.staging (0x240 + 16 * bits f.w1 3 0) (leBytes 8 (f.w2.toNat + 1) ++ leBytes 8 (bits f.w3 5 0))) = true) stOK (fun _ _ => 0) (fun _ _ => 0#64)
    (fun _ f s => { s with cox := { s.cox with staging := SMap.putList 0#8 s.cox.staging (0x240 + 16 * bits f.w1 3 0) (leBytes 8 (f.w2.toNat + 1) ++ leBytes 8 (bits f.w3 5 0)) } }) ∧
  Claim.serves Instr.commSet 0x0400 { ops := [maskBits 3 0, 0xFFFFFF1#64] } (fun _ s => s.cox.lock = none) stOK (fun _ _ => 0) (fun _ _ => 0#64)
    (fun _ f s => { s with cox := { s.cox with staging := SMap.putList 0#8 s.cox.staging (0x340 + 8 * bits f.w1 3 0) (leBytes 8 f.w2.toNat) } }) ∧
  Claim.serves Instr.commClear 0x0401 { ops := [maskBits 3 0] } (fun _ s => s.cox.lock = none) stOK (fun _ _ => 0) (fun _ _ => 0#64)
    (fun _ f s => { s with cox := { s.cox with staging := SMap.putList 0#8 s.cox.staging (0x340 + 8 * bits f.w1 3 0) (List.replicate 8 0#8) } }) ∧
  Claim.serves Instr.routeSet 0x0405 { ops := [0xFF3#64] }
    (fun f s => assist s 9 = true ∧ routeFormOk s (bits f.w1 1 0) (bits f.w1 7 4) = true ∧ routeFormOk s (bits f.w1 1 0) (bits f.w1 11 8) = true ∧ bits f.w1 11 8 ≠ bits f.w1 7 4) stOK
    (fun _ _ => 0) (fun _ _ => 0#64) (fun _ f s => rsetBits (reg .FAB_ROUTE (bits f.w1 1 0 * 16 + bits f.w1 7 4)) 21 16 (bits f.w1 11 8 + 16) s) ∧
  Claim.serves Instr.routeClear 0x0406 { ops := [0xF3#64] } (fun f s => assist s 9 = true ∧ routeFormOk s (bits f.w1 1 0) (bits f.w1 7 4) = true) stOK (fun _ _ => 0) (fun _ _ => 0#64)
    (fun _ f s => rsetBits (reg .FAB_ROUTE (bits f.w1 1 0 * 16 + bits f.w1 7 4)) 21 16 0 s) ∧
  Claim.serves Instr.timeNextSec 0x0A00 { ops := [maskAll] } (fun _ s => assist s 13 = false) stOK (fun _ _ => 0) (fun _ _ => 0#64) (fun _ f s => rset (reg .EPOCH_NEXT_SEC) f.w1 { s with ep := { s.ep with target := some (s.ep.target.getD (rget s (reg .EPOCH_NEXT_SEC))) } }) ∧
  Claim.serves Instr.timeNextSec 0x0A00 { ops := [maskAll] } (fun _ s => assist s 13 = true) stREFUSED_MODE (fun _ _ => 0) (fun _ _ => 0#64) (fun _ _ s => s) ∧
  (∀ (k : Nat) (r : CmdRef), [1, 2, 15, 16, 20, 21].contains k = true →
    Claim.serves (Claim.mail k) (Claim.mailForm k).1 (Claim.mailForm k).2 (fun _ s => s.cox.lock = some r) stREFUSED_STATE (fun _ s => s.gate.st.code) (fun _ _ => 0#64) (fun _ _ s => s)) ∧
  Claim.serves Instr.cfgWrite 0x0102 { ops := [maskBits 15 0], buf := true } (fun f s => s.cox.lock = none ∧ cfgLen < bits f.w1 15 0 + bufLen f) stREFUSED_FORM (fun _ _ => 0) (fun _ _ => 0#64) (fun _ _ s => s) ∧
  Claim.serves Instr.cfgRead 0x0103 { ops := [maskBits 16 0], buf := true } (fun f _ => cfgLen < bits f.w1 15 0 + bufLen f) stREFUSED_FORM (fun _ _ => 0) (fun _ _ => 0#64) (fun _ _ s => s) ∧
  Claim.serves Instr.cfgQuery 0x0100 { buf := true } (fun f _ => bufLen f < 64) stREFUSED_FORM (fun _ _ => 64) (fun _ _ => 0#64) (fun _ _ s => s) ∧
  Claim.serves Instr.memLocalSet 0x0300 { ops := [maskBits 3 0, maskAll, maskBits 5 0] } (fun f s => s.cox.lock = none ∧ (f.w2.toNat % 2 ^ 17 ≠ 0 ∨ stackTop ≤ f.w2.toNat)) stREFUSED_FORM
    (fun _ _ => 0) (fun _ _ => 0#64) (fun _ _ s => s) ∧
  Claim.serves Instr.routeSet 0x0405 { ops := [0xFF3#64] } (fun _ s => assist s 9 = false) stREFUSED_MODE (fun _ _ => 0) (fun _ _ => 0#64) (fun _ _ s => s) ∧
  Claim.serves Instr.routeSet 0x0405 { ops := [0xFF3#64] }
    (fun f s => assist s 9 = true ∧ (routeFormOk s (bits f.w1 1 0) (bits f.w1 7 4) = false ∨ routeFormOk s (bits f.w1 1 0) (bits f.w1 11 8) = false ∨ bits f.w1 11 8 = bits f.w1 7 4))
    stREFUSED_FORM (fun _ _ => 0) (fun _ _ => 0#64) (fun _ _ s => s) ∧
  Claim.serves Instr.routeClear 0x0406 { ops := [0xF3#64] } (fun _ s => assist s 9 = false) stREFUSED_MODE (fun _ _ => 0) (fun _ _ => 0#64) (fun _ _ s => s) ∧
  Claim.serves Instr.routeClear 0x0406 { ops := [0xF3#64] } (fun f s => assist s 9 = true ∧ routeFormOk s (bits f.w1 1 0) (bits f.w1 7 4) = false) stREFUSED_FORM (fun _ _ => 0) (fun _ _ => 0#64) (fun _ _ s => s)

/-- Commands of groups, regions and repairs: a group opens in the lowest free slot, is freed or is aborted; a region is declared or cleared; a repair that the host asks
for; each answered as its catalogue entry says, and refused where its operands, the groups that name a region, a restore under way, the free slots or the mode do not allow it
(R210, R212, R213, R240, R390, R391). A detail or result that the catalogue does not give is 0, the model's reading (log 77). -/
def Obligations.GroupAndRepairCommands : Prop :=
  (∀ g : Nat, Claim.serves Instr.cgOpen 0x0210 { ops := [maskBits 8 0 ||| maskBits 63 32] }
    (fun f s => 1 ≤ bits f.w1 8 0 ∧ bits f.w1 8 0 ≤ 256 ∧ freeSlot s = some g ∧ (∀ i, i < 32 → (bits f.w1 63 32).testBit i = true → shrValid s i = true ∧ restoring s i = false)) stACCEPTED
    (fun _ _ => 0) (fun f s => w64 (cgId (openSlot g (bits f.w1 8 0) (bits f.w1 63 32) false none s) g))
    (fun r f s => let o := openSlot g (bits f.w1 8 0) (bits f.w1 63 32) false (some r) s
      { o with cox := { o.cox with running := o.cox.running ++ [r] } })) ∧
  Claim.serves Instr.cgOpen 0x0210 { ops := [maskBits 8 0 ||| maskBits 63 32] } (fun f _ => bits f.w1 8 0 = 0 ∨ 256 < bits f.w1 8 0) stREFUSED_FORM (fun _ _ => 0) (fun _ _ => 0#64) (fun _ _ s => s) ∧
  Claim.serves Instr.cgOpen 0x0210 { ops := [maskBits 8 0 ||| maskBits 63 32] }
    (fun f s => 1 ≤ bits f.w1 8 0 ∧ bits f.w1 8 0 ≤ 256 ∧ (List.range 32).any (fun i => (bits f.w1 63 32).testBit i && (!shrValid s i || restoring s i)) = true) stREFUSED_ADDR (fun _ _ => 0) (fun _ _ => 0#64) (fun _ _ s => s) ∧
  Claim.serves Instr.cgOpen 0x0210 { ops := [maskBits 8 0 ||| maskBits 63 32] }
    (fun f s => 1 ≤ bits f.w1 8 0 ∧ bits f.w1 8 0 ≤ 256 ∧ bits f.w1 63 32 = 0 ∧ freeSlot s = none) stQUEUE_FULL (fun _ _ => 0) (fun _ _ => 0#64) (fun _ _ s => s) ∧
  Claim.serves Instr.cgFree 0x0212 { ops := [maskBits 15 0] }
    (fun f s => cgStat s (bits f.w1 15 0) = 2 ∨ cgStat s (bits f.w1 15 0) = 3 ∧ (cgOf s (bits f.w1 15 0 % 16)).running = [] ∧ (cgOf s (bits f.w1 15 0 % 16)).jobs = 0) stOK (fun _ _ => 0) (fun _ _ => 0#64) (fun _ f s => freeGroup (bits f.w1 15 0 % 16) s) ∧
  Claim.serves Instr.cgFree 0x0212 { ops := [maskBits 15 0] } (fun f s => cgStat s (bits f.w1 15 0) ≠ 2 ∧ (cgStat s (bits f.w1 15 0) ≠ 3 ∨ (cgOf s (bits f.w1 15 0 % 16)).running ≠ [] ∨ (cgOf s (bits f.w1 15 0 % 16)).jobs ≠ 0)) stREFUSED_STATE
    (fun f s => cgStat s (bits f.w1 15 0)) (fun _ _ => 0#64) (fun _ _ s => s) ∧
  Claim.serves Instr.cgAbort 0x0211 { ops := [maskBits 15 0] } (fun f s => cgStat s (bits f.w1 15 0) ≠ 0 ∨ (cgOf s (bits f.w1 15 0 % 16)).internal = true) stREFUSED_STATE
    (fun f s => cgStat s (bits f.w1 15 0)) (fun _ _ => 0#64) (fun _ _ s => s) ∧
  (∀ (ring : Nat) (f : Frame) (s : State), Claim.taken s ring 0x0211 f { ops := [maskBits 15 0] } → cgStat s (bits f.w1 15 0) = 0 → (cgOf s (bits f.w1 15 0 % 16)).internal = false →
    Claim.completes (.cgAbort ring f) s (fun s' =>
      cgState s' (bits f.w1 15 0 % 16) = 3 ∧ rbits s' (reg .CG_STATE (bits f.w1 15 0 % 16)) 51 48 = 3 ∧ (cgOf s' (bits f.w1 15 0 % 16)).pages = [] ∧ s'.shadow = s.shadow ∧
      s'.stk = s.stk ∧ s'.tiles = s.tiles ∧ ∀ h, h ≠ bits f.w1 15 0 % 16 → cgOf s' h = cgOf s h)) ∧
  Claim.serves Instr.shrSet 0x0213 { ops := [maskBits 4 0, maskAll, maskAll, maskBits 31 0] }
    (fun f s => bits f.w4 31 0 = 0 ∨ shrPlaceOk s (bits f.w1 4 0) f.w2.toNat f.w3.toNat (bits f.w4 31 0) = false) stREFUSED_ADDR (fun _ _ => 0) (fun _ _ => 0#64) (fun _ _ s => s) ∧
  (∀ g : Nat, Claim.serves Instr.shrSet 0x0213 { ops := [maskBits 4 0, maskAll, maskAll, maskBits 31 0] }
    (fun f s => 0 < bits f.w4 31 0 ∧ shrPlaceOk s (bits f.w1 4 0) f.w2.toNat f.w3.toNat (bits f.w4 31 0) = true ∧ groupNames s (bits f.w1 4 0) = some g) stREFUSED_STATE
    (fun _ _ => g) (fun _ _ => 0#64) (fun _ _ s => s)) ∧
  Claim.serves Instr.shrSet 0x0213 { ops := [maskBits 4 0, maskAll, maskAll, maskBits 31 0] }
    (fun f s => 0 < bits f.w4 31 0 ∧ shrPlaceOk s (bits f.w1 4 0) f.w2.toNat f.w3.toNat (bits f.w4 31 0) = true ∧ groupNames s (bits f.w1 4 0) = none ∧
      restoring s (bits f.w1 4 0) = false ∧ shrValid s (bits f.w1 4 0) = true) stACCEPTED (fun _ _ => 0) (fun _ _ => 0#64)
    (fun r f s => { s with
      restores := s.restores ++ [{ r := bits f.w1 4 0, cmd := r, clear := false, base := f.w2.toNat, twin := f.w3.toNat, pages := bits f.w4 31 0 }]
      cox := { s.cox with running := s.cox.running ++ [r] } }) ∧
  Claim.serves Instr.shrSet 0x0213 { ops := [maskBits 4 0, maskAll, maskAll, maskBits 31 0] }
    (fun f s => 0 < bits f.w4 31 0 ∧ shrPlaceOk s (bits f.w1 4 0) f.w2.toNat f.w3.toNat (bits f.w4 31 0) = true ∧ groupNames s (bits f.w1 4 0) = none ∧
      restoring s (bits f.w1 4 0) = false ∧ shrValid s (bits f.w1 4 0) = false) stOK (fun _ _ => 0) (fun _ _ => 0#64)
    (fun _ f s => declareRegion (bits f.w1 4 0) f.w2.toNat f.w3.toNat (bits f.w4 31 0) s) ∧
  (∀ g : Nat, Claim.serves Instr.shrClear 0x0214 { ops := [maskBits 4 0] } (fun f s => groupNames s (bits f.w1 4 0) = some g) stREFUSED_STATE (fun _ _ => g) (fun _ _ => 0#64)
    (fun _ _ s => s)) ∧
  Claim.serves Instr.shrClear 0x0214 { ops := [maskBits 4 0] }
    (fun f s => groupNames s (bits f.w1 4 0) = none ∧ restoring s (bits f.w1 4 0) = false ∧ shrValid s (bits f.w1 4 0) = false) stOK (fun _ _ => 0) (fun _ _ => 0#64) (fun _ _ s => s) ∧
  Claim.serves Instr.shrClear 0x0214 { ops := [maskBits 4 0] }
    (fun f s => groupNames s (bits f.w1 4 0) = none ∧ restoring s (bits f.w1 4 0) = false ∧ shrValid s (bits f.w1 4 0) = true) stACCEPTED (fun _ _ => 0) (fun _ _ => 0#64)
    (fun r f s => { s with restores := s.restores ++ [{ r := bits f.w1 4 0, cmd := r, clear := true }], cox := { s.cox with running := s.cox.running ++ [r] } }) ∧
  Claim.serves Instr.memRepair 0x0304 { ops := [maskBits 32 0] } (fun _ s => assist s 8 = false) stREFUSED_MODE (fun _ _ => 0) (fun _ _ => 0#64) (fun _ _ s => s) ∧
  Claim.serves Instr.memRepair 0x0304 { ops := [maskBits 32 0] }
    (fun f s => assist s 8 = true ∧ s.cox.proposals.find? (fun p => p.num == bits f.w1 31 0 && p.kind != 4 && !p.decided) = none) stREFUSED_FORM (fun _ _ => 0) (fun _ _ => 0#64) (fun _ _ s => s) ∧
  (∀ p : Proposal, Claim.serves Instr.memRepair 0x0304 { ops := [maskBits 32 0] }
    (fun f s => assist s 8 = true ∧ s.cox.proposals.find? (fun p => p.num == bits f.w1 31 0 && p.kind != 4 && !p.decided) = some p ∧ bit f.w1 32 = false) stOK (fun _ _ => 0) (fun _ _ => 0#64)
    (fun _ f s => { s with cox := { s.cox with proposals := s.cox.proposals.filter (fun p => p.num != bits f.w1 31 0) } })) ∧
  (∀ p : Proposal, Claim.serves Instr.memRepair 0x0304 { ops := [maskBits 32 0] }
    (fun f s => assist s 8 = true ∧ s.cox.proposals.find? (fun p => p.num == bits f.w1 31 0 && p.kind != 4 && !p.decided) = some p ∧ bit f.w1 32 = true) stACCEPTED (fun _ _ => 0) (fun _ _ => 0#64)
    (fun r f s => { s with cox := { s.cox with running := s.cox.running ++ [r], proposals := s.cox.proposals.map (fun p => if p.num = bits f.w1 31 0 then { p with decided := true, cmd := some r } else p) } }))

/-! ### Collectives (R302 to R319) -/

/-- No stack stands at its critical step and no tile is held for a move: nothing that a collective reads or writes waits (R31, R320). -/
def Sys2Proof.Claim.nothingWaits (s : State) : Prop := (∀ n, n < 8 → stackCritical s n = false) ∧ ∀ t, t < numTiles → tileState s t ≠ 2

/-- The collective that COL_SUBMIT finds at an address of stack memory. -/
def Sys2Proof.Claim.collAt (s : State) (ring a : Nat) (f : Frame) : Coll := { rec_ := rawBytes (stkPeek s a 128), cmd := Claim.refOf s ring f }

/-- COL_SUBMIT is taken and reads a record that stands whole in stack memory (R304, R392). -/
def Sys2Proof.Claim.submits (s : State) (ring a : Nat) (f : Frame) : Prop :=
  Claim.taken s ring 0x0402 f { ops := [maskBits 47 0] } ∧ a = bits f.w1 47 0 ∧ stkWaits s a 128 = false ∧ assist s 12 = false ∧ a + 128 ≤ stackTop ∧
  (linesOf a 128).all (fun l => stkPresent s l) = true ∧ s.stk.flips = []

/-- The source and the flag words of a record stand where they may (R304, R306). -/
def Sys2Proof.Claim.collPlaces (s : State) (c : Coll) : Bool :=
  decide (c.src + ceilDiv (c.els * (if c.op = 4 then commSize s c.comm else 1) * packBits c.inF) 8 ≤ stackTop) && flagWordOk s c.startWord && flagWordOk s c.doneWord

/-- COL_SUBMIT is refused with this status: the record is not queued, and COL_ERR of its engine shows it (R305, R306, R321). -/
def Sys2Proof.Claim.submitRefused (ring : Nat) (f : Frame) (st : Nat) (s : State) : Prop :=
  Claim.completes (.colSubmit ring f) s (fun s' =>
    Claim.framed (Claim.refOf s ring f) st 0 0#64 s s' ∧ bit (rget s' (reg .COL_ERR (engineOf s 0))) 2 = true ∧ s'.fab = s.fab ∧ s'.cox.running = s.cox.running ∧
    s'.stk.mem = s.stk.mem ∧ s'.tiles = s.tiles)

/-- A collective is queued in order of submission, or its record is refused; it starts, in sequence within its communicator, once its start word is met: each source is read
and sent or kept, and of a single member its parts finish at once; one whose parts have all finished leaves the queue with OK, or with POISON, one whose writes were lost with
their stack with STACK_LOST; COL_ABORT ends one that is not complete (R304 to R306, R308, R310, R311, R313, R392). -/
def Sys2Proof.Claim.CollectivesRun : Prop :=
  (∀ (ring a : Nat) (f : Frame) (c : Coll) (s : State), Claim.submits s ring a f → anyPoison (stkPeek s a 128) = false → c = Claim.collAt s ring a f → collForm s c = true →
    Claim.collPlaces s c = true → s.fab.colls.length < 32 → s.fab.paceHeld = [] →
    Claim.completes (.colSubmit ring f) s (fun s' =>
      s'.fab.colls = s.fab.colls ++ [c] ∧ (∀ d, d < 4 → rbits s' (reg .COL_STAT d) 5 0 = s.fab.colls.length + 1) ∧ s'.cox.running = s.cox.running ++ [Claim.refOf s ring f] ∧
      s'.stk.mem = s.stk.mem ∧ s'.tiles = s.tiles)) ∧
  (∀ (ring : Nat) (f : Frame) (s : State), Claim.taken s ring 0x0402 f { ops := [maskBits 47 0] } → stkWaits s (bits f.w1 47 0) 128 = false → Claim.ringOpen s (cplOf s ring) = true →
    assist s 12 = true → Claim.submitRefused ring f stREFUSED_MODE s) ∧
  (∀ (ring : Nat) (f : Frame) (s : State), Claim.taken s ring 0x0402 f { ops := [maskBits 47 0] } → stkWaits s (bits f.w1 47 0) 128 = false → Claim.ringOpen s (cplOf s ring) = true →
    assist s 12 = false → stackTop < bits f.w1 47 0 + 128 ∨ (linesOf (bits f.w1 47 0) 128).all (fun l => stkPresent s l) = false → Claim.submitRefused ring f stREFUSED_ADDR s) ∧
  (∀ (ring a : Nat) (f : Frame) (s : State), Claim.submits s ring a f → Claim.ringOpen s (cplOf s ring) = true →
    anyPoison (stkPeek s a 128) = true ∨ collForm s (Claim.collAt s ring a f) = false → Claim.submitRefused ring f stREFUSED_FORM s) ∧
  (∀ (ring a : Nat) (f : Frame) (s : State), Claim.submits s ring a f → Claim.ringOpen s (cplOf s ring) = true → anyPoison (stkPeek s a 128) = false →
    collForm s (Claim.collAt s ring a f) = true → Claim.collPlaces s (Claim.collAt s ring a f) = false → Claim.submitRefused ring f stREFUSED_ADDR s) ∧
  (∀ (ring a : Nat) (f : Frame) (s : State), Claim.submits s ring a f → Claim.ringOpen s (cplOf s ring) = true → anyPoison (stkPeek s a 128) = false →
    collForm s (Claim.collAt s ring a f) = true → Claim.collPlaces s (Claim.collAt s ring a f) = true → 32 ≤ s.fab.colls.length → Claim.submitRefused ring f stQUEUE_FULL s) ∧
  (∀ (id : Nat) (c : Coll) (s : State), collOf s id = some c → running s = true → c.started = false → (s.watch.met.contains (8, id) || startMet s c.startWord c.startVal) = true →
    s.fab.colls.all (fun k => k.started || k.comm != c.comm || decide (c.seqNo ≤ k.seqNo)) = true → Claim.nothingWaits s →
    commN s c.comm 0 = 1 → commN s c.comm 1 = 1 → commN s c.comm 2 = 1 →
    Claim.completes (.collectiveStart id) s (fun s' =>
      ∃ c', collOf s' id = some c' ∧ c'.started = true ∧ c'.startAt = (epoch s).toNat ∧ c'.parts.length = 3 ∧ c'.parts.all (fun p => p.finished) = true ∧ c'.rec_ = c.rec_ ∧
        s'.fab.colls.length = s.fab.colls.length)) ∧
  (∀ (id : Nat) (c : Coll) (s : State), collOf s id = some c → running s = true → c.started = false → (s.watch.met.contains (8, id) || startMet s c.startWord c.startVal) = true →
    s.fab.colls.all (fun k => k.started || k.comm != c.comm || decide (c.seqNo ≤ k.seqNo)) = true → Claim.nothingWaits s →
    (∀ r, r < commSize s c.comm → r ≠ myRank s c → nextHop s none (ownId s) (rankId s c.comm r) 0 ≠ .none) → (∀ q, q < 3 → partStages s c q ≠ []) →
    Claim.completes (.collectiveStart id) s (fun s' =>
      ∃ c', collOf s' id = some c' ∧ c'.started = true ∧ c'.startAt = (epoch s).toNat ∧ c'.rec_ = c.rec_ ∧ s'.fab.colls.length = s.fab.colls.length ∧
        ∀ q, q < 3 → (c'.part q).todo = [] ∧ (c'.part q).stage = 0 ∧ (c'.part q).pieces.length = ((sourceTasks s c q).filter (fun t => t.keep)).length)) ∧
  (∀ (id : Nat) (s : State), running s = false ∨ collOf s id = none →  exec (.collectiveStart id) s = .next s) ∧
  (∀ (id : Nat) (c : Coll) (s : State), collOf s id = some c → c.started = true ∨ (s.watch.met.contains (8, id) || startMet s c.startWord c.startVal) = false ∨
    s.fab.colls.any (fun k => !k.started && k.comm == c.comm && decide (k.seqNo < c.seqNo)) = true → exec (.collectiveStart id) s = .next s) ∧
  (∀ (id : Nat) (c : Coll) (s : State), collOf s id = some c → c.complete = true → c.lost = false → c.doneWord = 0 → s.fab.rx = [] →
    c.cmd.ring < 8 → bit c.cmd.w0 18 = false → Claim.ringOpen s (cplOf s c.cmd.ring) = true →
    Claim.completes (.collectiveCompletion id) s (fun s' =>
      s'.fab.colls = s.fab.colls.filter (fun k => k.id != id) ∧ Claim.framed c.cmd (if c.poisoned then stPOISON else stOK) 0 (w64 c.tag) s s' ∧
      s'.cox.running = s.cox.running.erase c.cmd ∧ s'.stk = s.stk ∧ s'.tiles = s.tiles)) ∧
  (∀ (id : Nat) (c : Coll) (s : State), collOf s id = some c → c.lost = true → s.fab.rx = [] → c.cmd.ring < 8 → Claim.ringOpen s (cplOf s c.cmd.ring) = true →
    Claim.completes (.collectiveCompletion id) s (fun s' =>
      s'.fab.colls = s.fab.colls.filter (fun k => k.id != id) ∧ Claim.framed c.cmd stSTACK_LOST 0 (w64 c.tag) s s' ∧ s'.cox.running = s.cox.running.erase c.cmd ∧ s'.stk = s.stk ∧
      s'.tiles = s.tiles)) ∧
  (∀ (id : Nat) (c : Coll) (s : State), collOf s id = some c → c.complete = false → collLost s c = false → exec (.collectiveCompletion id) s = .next s) ∧
  (∀ (ring : Nat) (f : Frame) (c : Coll) (s : State), Claim.taken s ring 0x0403 f { ops := [maskBits 31 0] } → collOf s (bits f.w1 31 0) = some c → c.complete = false → s.fab.rx = [] →
    Claim.completes (.colAbort ring f) s (fun s' =>
      s'.fab.colls = s.fab.colls.filter (fun k => k.id != c.id) ∧ s'.cox.running = s.cox.running.erase c.cmd ∧ s'.stk = s.stk ∧ s'.tiles = s.tiles)) ∧
  Claim.serves Instr.colAbort 0x0403 { ops := [maskBits 31 0] } (fun f s => (match collOf s (bits f.w1 31 0) with | some c => c.complete | none => true) = true) stREFUSED_STATE
    (fun _ _ => 0) (fun _ _ => 0#64) (fun _ _ s => s)

/-- The segment in staging is for this collective, from the member of rank r, and its packet belongs to stage i of part q, in the run d (R307, R308). -/
def Sys2Proof.Claim.placed (s : State) (g : Staged) (c : Coll) (r q i : Nat) (d : Due) : Prop :=
  s.fab.rx = [] ∧ s.fab.staged = [g] ∧ running s = true ∧ tileState s g.tile ≠ 2 ∧ tileState s g.tile ≠ 4 ∧ (tileOf s g.tile).soft = [] ∧ s.flitErr = [] ∧
  collOf s (leNat (g.head.take 4)) = some c ∧ c.started = true ∧ idRank s c.comm g.src = some r ∧ q < c.parts.length ∧
  placePacket s c r (headNum g.head 8 1 % 4) (headNum g.head 4 4) (bit (w64 (headNum g.head 8 1)) 2) (headNum g.head 8 1 / 16) = some (q, i, d)

/-- A packet of a collective moves to a free slot of its engine's staging set, or stays in its receive buffer; a segment that has come for a collective started here is taken up
once, however often it came, and counted where it is reduced (R302, R306, R307, R321); a stage closes when all it expects has come, and the part's last gather stage finishes
it (R308); a member silent for its window past the due epoch is reported once more after each window (R312). -/
def Sys2Proof.Claim.StagesAndSilence : Prop :=
  (∀ (id q i d : Nat) (c : Coll) (s : State), collOf s id = some c → running s = true → c.started = true → q < 3 → c.parts.length = 3 → (c.part q).finished = false → (c.part q).stage = i →
    (c.part q).todo = [] → partStages s c q = (partStages s c q).take i ++ [(true, d)] → (stageDue s c q i).all (dueHere (c.part q) i) = true → c.reduces = false →
    i < (partStages s c q).length → Claim.nothingWaits s →
    Claim.completes (.stageComplete id q) s (fun s' =>
      ∃ c', collOf s' id = some c' ∧ (c'.part q).finished = true ∧ (∀ k, k ≠ q → c'.part k = c.part k) ∧ s'.fab.rx = s.fab.rx)) ∧
  (∀ (id q : Nat) (c : Coll) (s : State), collOf s id = some c → c.parts.length = 3 → (c.part q).todo = [] →
    running s = false ∨ 3 ≤ q ∨ c.started = false ∨ (c.part q).finished = true ∨
      (c.part q).stage < (partStages s c q).length ∧ (stageDue s c q (c.part q).stage).all (dueHere (c.part q) (c.part q).stage) = false →
    Claim.completes (.stageComplete id q) s (fun s' => collOf s' id = some c ∧ s'.fab.rx = s.fab.rx ∧ s'.regs = s.regs ∧ s'.tiles = s.tiles ∧ s'.stk = s.stk)) ∧
  (∀ (p : RxPkt) (t o : Nat) (s : State), s.fab.rx = [p] → bits p.w0 7 0 = 0x10 → s.fab.staged = [] → s.flitErr = [] → 16 ≤ p.data.length → anyPoison p.data = false →
    stageSlot s (engineOf s (leNat (rawBytes ((p.data.drop 4).take 4)))) = some (t, o) →
    (match collOf s (leNat (rawBytes (p.data.take 4))) with | some c => c.started | none => false) = false →
    Claim.completes .colPacket s (fun s' =>
      s'.fab.rx = [] ∧ s'.fab.colls = s.fab.colls ∧
      s'.fab.staged = [{ eng := engineOf s (leNat (rawBytes ((p.data.drop 4).take 4))), tile := t, off := o, len := p.data.length - 16, src := p.src, head := rawBytes (p.data.take 16) }] ∧
      (∀ i, i < p.data.length - 16 → (tileOf s' t).byte (o + i) = (nth (0#8, false) p.data (16 + i)).1) ∧ (∀ u, u ≠ t → tileOf s' u = tileOf s u) ∧ s'.stk = s.stk)) ∧
  (∀ (p : RxPkt) (s : State), s.fab.rx = [p] → s.fab.staged = [] → stageSlot s (engineOf s (leNat (rawBytes ((p.data.drop 4).take 4)))) = none → exec .colPacket s = .next s) ∧
  (∀ (g : Staged) (c : Coll) (r q i : Nat) (d : Due) (s : State), Claim.placed s g c r q i d → (c.part q).stage ≤ i → (c.part q).got = [] →
    Claim.completes .colPacket s (fun s' =>
      s'.fab.staged = [] ∧ (∃ c', collOf s' c.id = some c' ∧
        (c'.part q).got = [(i, d.key, { pktSeg g.head ((tileOf s g.tile).read g.off g.len) with off := d.off + (headNum g.head 4 4 - d.idx) * segEls d.fmt })] ∧
        SMap.get 0 c'.heard r = (epoch s).toNat ∧ ∀ k, k ≠ q → c'.part k = c.part k) ∧
      rbits s' (reg .COL_SEGS (engineOf s (headNum g.head 4 4))) 47 0 =
        (rbits s (reg .COL_SEGS (engineOf s (headNum g.head 4 4))) 47 0 + (if bit (w64 (headNum g.head 8 1)) 2 then 0 else 1)) % 2 ^ 48 ∧ s'.stk = s.stk)) ∧
  (∀ (g : Staged) (c : Coll) (r q i : Nat) (d : Due) (s : State), Claim.placed s g c r q i d →
    i < (c.part q).stage ∨ (c.part q).got.any (fun x => x.1 == i && x.2.1 == d.key && x.2.2.off == d.off + (headNum g.head 4 4 - d.idx) * segEls d.fmt) = true →
    Claim.completes .colPacket s (fun s' =>
      s'.fab.staged = [] ∧ (∃ c', collOf s' c.id = some c' ∧ c'.parts = c.parts ∧ SMap.get 0 c'.heard r = (epoch s).toNat) ∧ (∀ e, rget s' (reg .COL_SEGS e) = rget s (reg .COL_SEGS e)) ∧
      s'.stk = s.stk)) ∧
  (∀ (id rank q i : Nat) (e : Due) (c : Coll) (s : State), collOf s id = some c → c.started = true → c.due ≠ 0 → c.due < (epoch s).toNat → s.fab.rx = [] → s.fab.staged = [] → q < 3 →
    i < (partStages s c q).length → (c.part q).stage ≤ i → (c.part q).finished = false → e ∈ stageDue s c q i → e.sender = rank → dueHere (c.part q) i e = false →
    max (max (SMap.get 0 c.heard rank) (SMap.get 0 c.silent rank)) c.startAt + c.silence * 1000 ≤ (epoch s).toNat →
    Claim.completes (.silent id rank) s (fun s' =>
      Claim.recorded 0x0801 0xFF (rankId s c.comm rank) (w64 id) (w64 (rankId s c.comm rank)) s s' ∧ s'.stk = s.stk ∧ s'.tiles = s.tiles ∧
      (∃ d, rbits s' (reg .COL_SILENT d) 47 0 = (rbits s (reg .COL_SILENT d) 47 0 + 1) % 2 ^ 48) ∧
      (collOf s' id).map (fun c => SMap.get 0 c.silent rank) = some (epoch s).toNat)) ∧
  (∀ (id rank : Nat) (c : Coll) (s : State), collOf s id = some c → c.started = false ∨ c.due = 0 ∨ (epoch s).toNat ≤ c.due ∨
    (epoch s).toNat < max (max (SMap.get 0 c.heard rank) (SMap.get 0 c.silent rank)) c.startAt + c.silence * 1000 → exec (.silent id rank) s = .next s)

/-- A PACE flit that the link accepts in order (R282, R283). -/
def Sys2Proof.Claim.paceTaken (l : Nat) (f : Flit) (s : State) : Prop := Claim.linkIdle s l ∧ flitOk 2 f = true ∧ f.seq = (linkOf s l).rxExp

/-- Pace frames: while a cause holds a member sends one for each collective that is not complete, and one end frame when none holds any more; one received for a collective here counts
as its sender's report, one for a collective not queued here is held, lost when sixteen are held, and dropped when its 30 µs are over; one that finds the port's buffer full is
acknowledged and dropped; without frames for 30 µs a collective's reports are forgotten (R287, R313, R314, R318). -/
def Sys2Proof.Claim.PaceFrames : Prop :=
  (∀ (cause : Nat) (s : State), outputsOn s = true → 1 ≤ cause → cause ≤ 6 → paceHolds s cause = true →
    Claim.completes (.paceFrameTimer cause) s (fun s' =>
      s'.fab.paceCause = cause ∧ s'.fab.paceCount = (if s.fab.paceCause = 0 then 0 else s.fab.paceCount + 1) ∧
      rbits s' (reg .COL_PACE_SENT) 47 0 = (rbits s (reg .COL_PACE_SENT) 47 0 + (s.fab.colls.filter (fun c => !c.complete)).length) % 2 ^ 48 ∧ s'.fab.colls = s.fab.colls ∧
      s'.tiles = s.tiles ∧ s'.stk = s.stk)) ∧
  (∀ (s : State), outputsOn s = true → s.fab.paceCause ≠ 0 → (∀ k, k < 7 → paceHolds s k = false) →
    Claim.completes (.paceFrameTimer 0) s (fun s' =>
      s'.fab.paceCause = 0 ∧ rbits s' (reg .COL_PACE_SENT) 47 0 = (rbits s (reg .COL_PACE_SENT) 47 0 + (s.fab.colls.filter (fun c => !c.complete)).length) % 2 ^ 48 ∧
      s'.fab.colls = s.fab.colls ∧ s'.tiles = s.tiles ∧ s'.stk = s.stk)) ∧
  (∀ (cause : Nat) (s : State), outputsOn s = false ∨ 6 < cause ∨ (cause ≠ 0 ∧ paceHolds s cause = false) ∨ (cause = 0 ∧ s.fab.paceCause = 0) → exec (.paceFrameTimer cause) s = .next s) ∧
  (∀ (l : Nat) (f : Flit) (s : State), Claim.paceTaken l f s → collOf s (leNat ((flitBody f).take 4)) = none → bit (rget s (reg .COL_COMM (leNat ((flitBody f).take 4) / 2 ^ 28))) 0 = false →
    s.fab.paceHeld.length < 16 → (linkOf s l).paceBuf.length < 16 →
    Claim.completes (.paceFlit l f) s (fun s' =>
      s'.fab.paceHeld = s.fab.paceHeld ++ [((epoch s).toNat, flitBody f)] ∧ Claim.accepted l f s' ∧ s'.fab.colls = s.fab.colls ∧ s'.tiles = s.tiles ∧ s'.stk = s.stk)) ∧
  (∀ (l : Nat) (f : Flit) (s : State), Claim.paceTaken l f s → collOf s (leNat ((flitBody f).take 4)) = none → bit (rget s (reg .COL_COMM (leNat ((flitBody f).take 4) / 2 ^ 28))) 0 = false →
    16 ≤ s.fab.paceHeld.length → (linkOf s l).paceBuf.length < 16 →
    Claim.completes (.paceFlit l f) s (fun s' =>
      rbits s' (reg .COL_PACE_LOST) 47 0 = (rbits s (reg .COL_PACE_LOST) 47 0 + 1) % 2 ^ 48 ∧ s'.fab.paceHeld = s.fab.paceHeld ∧ Claim.accepted l f s' ∧ s'.fab.colls = s.fab.colls ∧
      s'.tiles = s.tiles ∧ s'.stk = s.stk)) ∧
  (∀ (l : Nat) (f : Flit) (c : Coll) (s : State), Claim.paceTaken l f s → collOf s (leNat ((flitBody f).take 4)) = some c → (linkOf s l).paceBuf.length < 16 →
    nth 0#8 (flitBody f) 7 = 9#8 → assist s 14 = false →
    Claim.completes (.paceFlit l f) s (fun s' =>
      (collOf s' c.id).map (fun k => k.amax) =
        some (c.amax.filter (fun e => decide ((epoch s).toNat ≤ e.1 + 30000)) ++ [((epoch s).toNat, leNat (((flitBody f).drop 8).take 8))]) ∧
      Claim.accepted l f s' ∧ s'.tiles = s.tiles ∧ s'.stk = s.stk)) ∧
  (∀ (l : Nat) (f : Flit) (s : State), Claim.paceTaken l f s → 16 ≤ (linkOf s l).paceBuf.length →
    Claim.completes (.paceFlit l f) s (fun s' =>
      rbits s' (reg .LNK_PACE_DROP l) 47 0 = (rbits s (reg .LNK_PACE_DROP l) 47 0 + 1) % 2 ^ 48 ∧ bit (rget s' (reg .LNK_ERR l)) 4 = true ∧ Claim.accepted l f s' ∧ Claim.onlyLink l s s')) ∧
  (∀ (id : Nat) (c : Coll) (s : State), collOf s id = some c → amaxOf s c = none →
    Claim.completes (.paceTimeout id) s (fun s' => (collOf s' id).map (fun k => k.amax) = some [] ∧ s'.fab.colls.length = s.fab.colls.length ∧ s'.tiles = s.tiles ∧ s'.stk = s.stk)) ∧
  (∀ (id : Nat) (s : State), (match collOf s id with | some c => (amaxOf s c).isSome | none => true) = true → exec (.paceTimeout id) s = .next s) ∧
  (∀ (id : Nat) (s : State), Claim.completes (.paceHoldExpiry id) s (fun s' =>
      s' = { s with fab := { s.fab with paceHeld := s'.fab.paceHeld } } ∧
      ∀ h, h ∈ s'.fab.paceHeld ↔ h ∈ s.fab.paceHeld ∧ (leNat (h.2.take 4) ≠ id ∨ (epoch s).toNat < h.1 + 30000)))

/-- PUT_SEND is taken with these operands and reads its data whole in stack memory (R288, R392). -/
def Sys2Proof.Claim.puts (s : State) (ring dst tag a n : Nat) (f : Frame) : Prop :=
  Claim.taken s ring 0x0404 f { ops := [setBit (maskBits 11 0 ||| maskBits 47 32) 16 true, maskBits 47 0, maskBits 47 0, maskBits 11 0] } ∧
  dst = bits f.w1 11 0 ∧ tag = bits f.w1 47 32 ∧ a = bits f.w2 47 0 ∧ n = bits f.w4 11 0 + 1 ∧ n ≤ 4080 ∧ stkWaits s a n = false ∧ a + n ≤ stackTop ∧
  (linesOf a n).all (fun l => stkPresent s l) = true ∧ s.stk.flips = []

/-- PUT_SEND with an acknowledgement asked for and a route to its destination waits for its answer; without one asked for it ends OK once sent; without a route it ends UNREACHABLE
at once and is counted; more than 4080 bytes, or data outside stack memory, are refused (R288, R295, R392). -/
def Sys2Proof.Claim.PutsAreSent : Prop :=
  (∀ (ring dst tag a n : Nat) (f : Frame) (s : State), Claim.puts s ring dst tag a n f → bit f.w1 16 = true → nextHop s none (ownId s) dst tag ≠ .none →
    Claim.completes (.putSend ring f) s (fun s' =>
      s'.fab.puts = s.fab.puts ++ [⟨tag, dst, Claim.refOf s ring f⟩] ∧ s'.cox.running = s.cox.running ++ [Claim.refOf s ring f] ∧ s'.stk.mem = s.stk.mem ∧ s'.tiles = s.tiles)) ∧
  (∀ (ring dst tag a n l : Nat) (second first : Bool) (f : Frame) (s : State), Claim.puts s ring dst tag a n f → bit f.w1 16 = false → bit f.w0 18 = false →
    nextHop s none (ownId s) dst tag = .out l second first → (linkOf s l).waitQ = [] → Claim.ringOpen s (cplOf s ring) = true →
    Claim.completes (.putSend ring f) s (fun s' =>
      (linkOf s' l).waitQ.length + (linkOf s' l).retry.length = (linkOf s l).retry.length + ceilDiv (16 + n) 256 ∧
      (∀ g ∈ (linkOf s' l).waitQ, g.bytes = pktBytes (pktWord 0x01 false true 0 n tag) (w64 (bits f.w3 47 0)) (stkPeek s a n) ∧ g.dst = dst) ∧ s'.fab.puts = s.fab.puts ∧
      Claim.framed (Claim.refOf s ring f) stOK 0 0#64 s s' ∧ s'.cox.running = s.cox.running ∧ s'.stk.mem = s.stk.mem ∧ s'.tiles = s.tiles)) ∧
  (∀ (ring dst tag a n : Nat) (f : Frame) (s : State), Claim.puts s ring dst tag a n f → bit f.w1 16 = false → nextHop s none (ownId s) dst tag = .none →
    Claim.ringOpen s (cplOf s ring) = true →
    Claim.completes (.putSend ring f) s (fun s' =>
      s'.fab = s.fab ∧ Claim.framed (Claim.refOf s ring f) stUNREACHABLE 3 0#64 s s' ∧ rbits s' (reg .FAB_NOROUTE) 47 0 = (rbits s (reg .FAB_NOROUTE) 47 0 + 1) % 2 ^ 48 ∧
      s'.stk.mem = s.stk.mem ∧ s'.tiles = s.tiles)) ∧
  (∀ (ring dst tag a n : Nat) (f : Frame) (s : State), Claim.puts s ring dst tag a n f → bit f.w1 16 = true → nextHop s none (ownId s) dst tag = .none → s.fab.puts = [] →
    s.cox.running.contains (Claim.refOf s ring f) = false →
    Claim.completes (.putSend ring f) s (fun s' =>
      s'.fab = s.fab ∧ s'.cox.running = s.cox.running ∧ rbits s' (reg .FAB_NOROUTE) 47 0 = (rbits s (reg .FAB_NOROUTE) 47 0 + 1) % 2 ^ 48 ∧ s'.stk.mem = s.stk.mem ∧ s'.tiles = s.tiles)) ∧
  Claim.serves Instr.putSend 0x0404 { ops := [setBit (maskBits 11 0 ||| maskBits 47 32) 16 true, maskBits 47 0, maskBits 47 0, maskBits 11 0] }
    (fun f s => stkWaits s (bits f.w2 47 0) (bits f.w4 11 0 + 1) = false ∧ 4080 < bits f.w4 11 0 + 1) stREFUSED_FORM (fun _ _ => 0) (fun _ _ => 0#64) (fun _ _ s => s) ∧
  Claim.serves Instr.putSend 0x0404 { ops := [setBit (maskBits 11 0 ||| maskBits 47 32) 16 true, maskBits 47 0, maskBits 47 0, maskBits 11 0] }
    (fun f s => stkWaits s (bits f.w2 47 0) (bits f.w4 11 0 + 1) = false ∧ bits f.w4 11 0 + 1 ≤ 4080 ∧
      (stackTop < bits f.w2 47 0 + (bits f.w4 11 0 + 1) ∨ (linesOf (bits f.w2 47 0) (bits f.w4 11 0 + 1)).all (fun l => stkPresent s l) = false)) stREFUSED_ADDR
    (fun _ _ => 0) (fun _ _ => 0#64) (fun _ _ s => s)

/-- Collectives from submission to completion. A detail or result that the catalogue does not give is 0, the model's reading (log 77). -/
def Obligations.Collectives : Prop := Claim.CollectivesRun ∧ Claim.StagesAndSilence

/-- Pace frames, and PUTs. A detail or result that the catalogue does not give is 0, the model's reading (log 77). -/
def Obligations.PaceAndPuts : Prop := Claim.PaceFrames ∧ Claim.PutsAreSent

/-! ### The rest of the mailbox (R366 to R369, R373 to R375, R383, R388, R390, R392 to R394, R402, R406, R407, R420, R428, R429) -/

/-- The command's result stands at the start of its buffer in host memory (R376). -/
def Sys2Proof.Claim.hostAnswer (f : Frame) (ws : List Word) (s : State) : State :=
  { s with cox := { s.cox with hostMem := SMap.putList 0#8 s.cox.hostMem f.w6.toNat (wordBytes ws) } }

/-- Doorbells and the enables of rings: a tail in range is taken, one that overruns the ring stops it with a ring error (R374); a head in range frees its
slots and lets a held frame in, one past the ring is discarded and recorded (R375); the enables start a ring anew (R374, R382, R396); a completion ring that the host disables
drops and counts what is due for it (R382); a frame held for more than 1 ms is counted once (R375); a read of host memory that times out is a ring error (R429). -/
def Sys2Proof.Claim.RingsTurn : Prop :=
  (∀ (c v : Nat) (s : State), c < 8 → s.gate.st ≠ .off → SMap.get false s.cox.stopped c = false → bit (rget s (reg .MBX_CMD_CFG c)) 8 = true → v < cmdFrames s c →
    (SMap.get 0 s.cox.tails c + cmdFrames s c - rbits s (reg .MBX_CMD_HEAD c) 11 0) % cmdFrames s c + (v + cmdFrames s c - SMap.get 0 s.cox.tails c) % cmdFrames s c ≤ cmdFrames s c - 1 →
    Claim.completes (.commandDoorbell c v) s (fun s' => s' = { s with cox := { s.cox with tails := SMap.put 0 s.cox.tails c v } })) ∧
  (∀ (c v : Nat) (s : State), c < 8 → s.gate.st ≠ .off → SMap.get false s.cox.stopped c = false → bit (rget s (reg .MBX_CMD_CFG c)) 8 = true → cmdFrames s c ≤ v →
    Claim.completes (.commandDoorbell c v) s (fun s' =>
      SMap.get false s'.cox.stopped c = true ∧ bit (rget s' (reg .MBX_CMD_STAT c)) 0 = true ∧ s'.cox.tails = s.cox.tails ∧ Claim.recorded 0x0C02 0xFF c (w64 (c % 8)) (w64 (v % 4096)) s s' ∧
      Claim.regsKeep ((reg .MBX_CMD_STAT c).off :: Claim.eventRegs) s s')) ∧
  (∀ (c v : Nat) (s : State), c < 8 → s.gate.st ≠ .off → SMap.get false s.cox.stopped c = true ∨ bit (rget s (reg .MBX_CMD_CFG c)) 8 = false →
    Claim.completes (.commandDoorbell c v) s (fun s' =>
      s' = { s with cox := { s.cox with tails := if v < cmdFrames s c then SMap.put 0 s.cox.tails c v else s.cox.tails } })) ∧
  (∀ (c v : Nat) (s : State), 8 ≤ c ∨ s.gate.st = .off → exec (.commandDoorbell c v) s = .next s ∧ exec (.completionDoorbell c v) s = .next s ∧ exec (.hostReadTimeout c) s = .next s) ∧
  (∀ (c v : Nat) (s : State), c < 8 → s.gate.st ≠ .off → v < cplFrames s c → (rbits s (reg .MBX_CPL_TAIL c) 11 0 + cplFrames s c - v) % cplFrames s c ≤ SMap.get 0 s.cox.cplUsed c →
    SMap.get [] s.cox.held c = [] →
    Claim.completes (.completionDoorbell c v) s (fun s' =>
      s' = { s with cox := { s.cox with cplUsed := SMap.put 0 s.cox.cplUsed c ((rbits s (reg .MBX_CPL_TAIL c) 11 0 + cplFrames s c - v) % cplFrames s c), cplHead := SMap.put 0 s.cox.cplHead c v } })) ∧
  (∀ (c v : Nat) (f : CplFrame) (s : State), c < 8 → s.gate.st ≠ .off → v < cplFrames s c → SMap.get [] s.cox.held c = [f] → cplEnabled s c = true → s.gate.switching = none →
    (rbits s (reg .MBX_CPL_TAIL c) 11 0 + cplFrames s c - v) % cplFrames s c ≤ SMap.get 0 s.cox.cplUsed c →
    Claim.completes (.completionDoorbell c v) s (fun s' =>
      SMap.get [] s'.cox.held c = [] ∧ rbits s' (reg .MBX_CPL_TAIL c) 11 0 = (rbits s (reg .MBX_CPL_TAIL c) 11 0 + 1) % cplFrames s c ∧
      SMap.get [] s'.cox.slots (c * 4096 + rbits s (reg .MBX_CPL_TAIL c) 11 0) = setBit (nth 0#64 f.words 0) 24 (!(SMap.get false s.cox.phase c)) :: f.words.drop 1)) ∧
  (∀ (c v : Nat) (s : State), c < 8 → s.gate.st ≠ .off → cplFrames s c ≤ v → Claim.completes (.completionDoorbell c v) s (Claim.onlyRecorded 0x0FFF 0xFF 0 (w64 375) (w64 v) s)) ∧
  (∀ (c : Nat) (v : Word) (s : State), c < 8 → bit v 8 = true → bit (rget s (reg .MBX_CMD_CFG c)) 8 = false ∨ SMap.get false s.cox.stopped c = true →
    Claim.completes (.cmdRingEnable c v) s (fun s' =>
      bit (rget s' (reg .MBX_CMD_CFG c)) 8 = true ∧ rbits s' (reg .MBX_CMD_CFG c) 2 0 = bits v 2 0 ∧ rget s' (reg .MBX_CMD_HEAD c) = w64 (SMap.get 0 s.cox.tails c) ∧
      bit (rget s' (reg .MBX_CMD_STAT c)) 0 = false ∧ SMap.get false s'.cox.stopped c = false ∧ s'.cox.tails = s.cox.tails ∧
      Claim.regsKeep [(reg .MBX_CMD_CFG c).off, (reg .MBX_CMD_HEAD c).off, (reg .MBX_CMD_STAT c).off] s s')) ∧
  (∀ (c : Nat) (v : Word) (s : State), c < 8 → bit v 8 = false →
    Claim.completes (.cmdRingEnable c v) s (fun s' => bit (rget s' (reg .MBX_CMD_CFG c)) 8 = false ∧ Claim.onlyRegs [(reg .MBX_CMD_CFG c).off] s s')) ∧
  (∀ (c : Nat) (v : Word) (s : State), 8 ≤ c → exec (.cmdRingEnable c v) s = .next s ∧ exec (.cplRingEnable c v) s = .next s ∧ exec (.cplHoldTimeout c) s = .next s) ∧
  (∀ (c : Nat) (v : Word) (f : CplFrame) (s : State), c < 8 → bit v 16 = false → SMap.get [] s.cox.held c = [f] → SMap.get false s.cox.unreg c = false → f.async = false →
    Claim.completes (.cplRingEnable c v) s (fun s' =>
      cplEnabled s' c = false ∧ SMap.get [] s'.cox.held c = [] ∧ rbits s' (reg .MBX_CPL_OVF c) 47 0 = (rbits s (reg .MBX_CPL_OVF c) 47 0 + 1) % 2 ^ 48 ∧ s'.cox.slots = s.cox.slots)) ∧
  (∀ (c : Nat) (v : Word) (s : State), c < 8 → bit v 16 = true → SMap.get [] s.cox.held c = [] →
    Claim.completes (.cplRingEnable c v) s (fun s' =>
      cplEnabled s' c = true ∧ rget s' (reg .MBX_CPL_TAIL c) = 0#64 ∧ SMap.get false s'.cox.phase c = false ∧ SMap.get 0 s'.cox.cplUsed c = 0 ∧ SMap.get false s'.cox.unreg c = false ∧
      s'.cox.slots = s.cox.slots ∧ Claim.regsKeep [(reg .MBX_CPL_CFG c).off, (reg .MBX_CPL_TAIL c).off] s s')) ∧
  (∀ (c : Nat) (f : CplFrame) (s : State), c < 8 → SMap.get [] s.cox.held c = [f] → f.late = false →
    Claim.completes (.cplHoldTimeout c) s (fun s' =>
      rbits s' (reg .MBX_CPL_OVF c) 47 0 = (rbits s (reg .MBX_CPL_OVF c) 47 0 + 1) % 2 ^ 48 ∧ SMap.get [] s'.cox.held c = [{ f with late := true }] ∧ s'.cox.slots = s.cox.slots)) ∧
  (∀ (c : Nat) (s : State), (SMap.get [] s.cox.held c).all (fun f => f.late) = true → exec (.cplHoldTimeout c) s = .next s) ∧
  (∀ (c : Nat) (s : State), c < 8 → s.gate.st ≠ .off → Claim.completes (.hostReadTimeout c) s (fun s' =>
      SMap.get false s'.cox.stopped c = true ∧ bit (rget s' (reg .MBX_CMD_STAT c)) 0 = true ∧ bit (rget s' (reg .PCIE_ERR)) 1 = true ∧
      Claim.recorded 0x0C02 0xFF c (w64 (c % 8)) 0#64 s s' ∧ s'.tiles = s.tiles ∧ s'.stk = s.stk))

/-- Records and messages: an event stands in the log (R410, R411); a record for a ring with room is posted as two frames, one for a ring that the host disabled is counted as
dropped (R10, R375, R383), and none is posted while the cox switches (R372); a vector unmasked or past its 2 µs sends the message that waited (R375, R428); the PCIe link's state is shown (R440). -/
def Sys2Proof.Claim.RecordsAndMessages : Prop :=
  (∀ (code die src : Nat) (a b : Word) (s : State), s.gate.st ≠ .off → code / 256 ≠ 0x0E → code < 65536 →
    Claim.completes (.eventRecordWrite code die src a b) s (Claim.onlyRecorded code die src a b s)) ∧
  (∀ (c : Nat) (ws : List Word) (s : State), c < 8 → s.cox.async = [(c, ws)] → s.gate.switching = none → Claim.ringOpen s c = true → SMap.get 0 s.cox.cplUsed c + 2 ≤ cplFrames s c →
    Claim.completes .asyncRecordPost s (fun s' =>
      s'.cox.async = [] ∧ SMap.get 0 s'.cox.cplUsed c = SMap.get 0 s.cox.cplUsed c + 2 ∧
      rbits s' (reg .MBX_CPL_TAIL c) 11 0 = (rbits s (reg .MBX_CPL_TAIL c) 11 0 + 2) % cplFrames s c ∧ s'.tiles = s.tiles ∧ s'.stk = s.stk)) ∧
  (∀ (c : Nat) (ws : List Word) (s : State), c < 8 → s.cox.async = [(c, ws)] → s.gate.switching = none → cplEnabled s c = false → SMap.get false s.cox.unreg c = false →
    Claim.completes .asyncRecordPost s (fun s' =>
      s'.cox.async = [] ∧ rbits s' (reg .MBX_CPL_OVF c) 63 48 = (rbits s (reg .MBX_CPL_OVF c) 63 48 + 1) % 2 ^ 16 ∧ s'.cox.slots = s.cox.slots ∧ s'.tiles = s.tiles)) ∧
  (∀ (s : State), s.cox.async = [] ∨ s.gate.switching.isSome = true → exec .asyncRecordPost s = .next s) ∧
  (∀ (c : Nat) (ws : List Word) (s : State), s.cox.async = [(c, ws)] → (cplEnabled s c = true ∧ cplFrames s c < SMap.get 0 s.cox.cplUsed c + 2) ∨
    (cplEnabled s c = false ∧ SMap.get false s.cox.unreg c = true) → exec .asyncRecordPost s = .next s) ∧
  (∀ (code die src : Nat) (a b : Word) (s : State), s.gate.st = .off ∨ code / 256 = 0x0E ∨ 65536 ≤ code → exec (.eventRecordWrite code die src a b) s = .next s) ∧
  (∀ (v : Nat) (s : State), 64 ≤ v → exec (.msixUnmask v) s = .next s) ∧
  (∀ (v : Nat) (s : State), SMap.get false s.ports.msixMerged v = true → msixMasked s v = true →
    Claim.completes (.msixHoldoffExpiry v) s (fun s' =>
      SMap.get false s'.ports.msixPend v = true ∧ s'.ports.msixSent = s.ports.msixSent ∧ SMap.get false s'.ports.msixMerged v = false ∧ s' = { s with ports := s'.ports })) ∧
  (∀ (rate width : Nat) (flit : Bool) (s : State), s.gate.st = .off ∨ rate = 0 ∨ 3 < rate → exec (.pcieLinkUp rate width flit) s = .next s) ∧
  (∀ (s : State), bit (rget s (reg .PCIE_LINK)) 8 = false → exec .pcieLinkDown s = .next s) ∧
  (∀ (v : Nat) (s : State), v < 64 → SMap.get false s.ports.msixPend v = true → SMap.get false s.ports.msixHold v = false →
    Claim.completes (.msixUnmask v) s (fun s' =>
      msixMasked s' v = false ∧ SMap.get 0 s'.ports.msixSent v = SMap.get 0 s.ports.msixSent v + 1 ∧ SMap.get false s'.ports.msixPend v = false ∧ s'.cox = s.cox ∧ s'.tiles = s.tiles)) ∧
  (∀ (v : Nat) (s : State), v < 64 → SMap.get false s.ports.msixPend v = false →
    Claim.completes (.msixUnmask v) s (fun s' => msixMasked s' v = false ∧ s' = { s with regs := s'.regs })) ∧
  (∀ (v : Nat) (s : State), SMap.get false s.ports.msixMerged v = true → msixMasked s v = false →
    Claim.completes (.msixHoldoffExpiry v) s (fun s' =>
      SMap.get 0 s'.ports.msixSent v = SMap.get 0 s.ports.msixSent v + 1 ∧ SMap.get false s'.ports.msixMerged v = false ∧ s' = { s with ports := s'.ports })) ∧
  (∀ (v : Nat) (s : State), SMap.get false s.ports.msixMerged v = false →
    Claim.completes (.msixHoldoffExpiry v) s (fun s' => s'.ports.msixSent = s.ports.msixSent ∧ SMap.get false s'.ports.msixHold v = false ∧ s' = { s with ports := s'.ports })) ∧
  (∀ (rate width : Nat) (flit : Bool) (s : State), s.gate.st ≠ .off → 1 ≤ rate → rate ≤ 3 → Claim.completes (.pcieLinkUp rate width flit) s (fun s' =>
      rbits s' (reg .PCIE_LINK) 1 0 = rate ∧ rbits s' (reg .PCIE_LINK) 6 2 = width % 32 ∧ bit (rget s' (reg .PCIE_LINK)) 7 = flit ∧ bit (rget s' (reg .PCIE_LINK)) 8 = true ∧
      s' = { s with regs := s'.regs, ports := { s.ports with ready := true } } ∧ Claim.regsKeep [(reg .PCIE_LINK).off] s s')) ∧
  (∀ s : State, bit (rget s (reg .PCIE_LINK)) 8 = true → Claim.completes .pcieLinkDown s (fun s' =>
      bit (rget s' (reg .PCIE_LINK)) 8 = false ∧ bit (rget s' (reg .PCIE_ERR)) 2 = true ∧ s' = { s with regs := s'.regs, ports := { s.ports with ready := false } } ∧
      Claim.regsKeep [(reg .PCIE_LINK).off, (reg .PCIE_ERR).off] s s'))

/-- Word k of a command's buffer in host memory (R376). -/
def Sys2Proof.Claim.bufWord (f : Frame) (k : Nat) : Word := leWord ((List.range 8).map (fun j => nth 0#8 f.buf (8 * k + j)))

/-- Commands on work (R368, R369, R390): a descriptor goes to the end of its tile's deque; a drain ends once nothing is left; frozen work runs on, or is discarded. Work in another
state of the device, for a tile that does not exist or is absent, in too short a buffer or malformed is refused; a deque that is full takes none. A detail or result that the catalogue does not give is 0, the model's reading (log 77). -/
def Obligations.WorkCommands : Prop :=
  (∀ (ring t : Nat) (f : Frame) (s : State), Claim.taken s ring 0x0200 f { ops := [maskBits 10 0 ||| maskBits 21 16], buf := true } → bit f.w0 18 = false → Claim.ringOpen s (cplOf s ring) = true →
    t = bits f.w1 10 0 → t < numTiles → tileState s t = 0 → s.gate.st = .underway → bits f.w1 21 16 = 0 → bit f.w7 32 = false → 64 ≤ bufLen f →
    dMalformed ((List.range 8).map (Claim.bufWord f)) = false → (tileOf s t).dq.length < 64 →
    Claim.completes (.workEnq ring f) s (fun s' =>
      (tileOf s' t).dq = (tileOf s t).dq ++ [⟨(List.range 8).map (Claim.bufWord f), ring⟩] ∧ (∀ u, u ≠ t → tileOf s' u = tileOf s u) ∧
      rbits s' (reg .TILE_DQ_PUSHED t) 47 0 = (rbits s (reg .TILE_DQ_PUSHED t) 47 0 + 1) % 2 ^ 48 ∧ Claim.framed (Claim.refOf s ring f) stOK 1 0#64 s s' ∧ s'.stk = s.stk)) ∧
  Claim.serves Instr.workEnq 0x0200 { ops := [maskBits 10 0 ||| maskBits 21 16], buf := true } (fun f s => (numTiles ≤ bits f.w1 10 0 ∨ tileState s (bits f.w1 10 0) ≠ 2) ∧ s.gate.st ≠ .rigged ∧ s.gate.st ≠ .underway) stREFUSED_STATE
    (fun _ s => s.gate.st.code) (fun _ _ => 0#64) (fun _ _ s => s) ∧
  Claim.serves Instr.workEnq 0x0200 { ops := [maskBits 10 0 ||| maskBits 21 16], buf := true } (fun f s => s.gate.st = .underway ∧ (numTiles ≤ bits f.w1 10 0 ∨ tileState s (bits f.w1 10 0) = 4)) stREFUSED_ADDR (fun _ _ => 0) (fun _ _ => 0#64) (fun _ _ s => s) ∧
  Claim.serves Instr.workEnq 0x0200 { ops := [maskBits 10 0 ||| maskBits 21 16], buf := true } (fun f s => s.gate.st = .underway ∧ bits f.w1 10 0 < numTiles ∧ tileState s (bits f.w1 10 0) = 0 ∧ bufLen f < 64 * (bits f.w1 21 16 + 1)) stREFUSED_FORM (fun _ _ => 0) (fun _ _ => 0#64) (fun _ _ s => s) ∧
  Claim.serves Instr.workEnq 0x0200 { ops := [maskBits 10 0 ||| maskBits 21 16], buf := true }
    (fun f s => s.gate.st = .underway ∧ bits f.w1 10 0 < numTiles ∧ tileState s (bits f.w1 10 0) = 0 ∧ bits f.w1 21 16 = 0 ∧ bit f.w7 32 = false ∧ 64 ≤ bufLen f ∧
      dMalformed ((List.range 8).map (Claim.bufWord f)) = true) stREFUSED_FORM (fun _ _ => 0) (fun _ _ => 0#64) (fun _ _ s => s) ∧
  Claim.serves Instr.workEnq 0x0200 { ops := [maskBits 10 0 ||| maskBits 21 16], buf := true }
    (fun f s => s.gate.st = .underway ∧ bits f.w1 10 0 < numTiles ∧ tileState s (bits f.w1 10 0) = 1 ∧ bits f.w1 21 16 = 0 ∧ bit f.w7 32 = false ∧ 64 ≤ bufLen f ∧
      dMalformed ((List.range 8).map (Claim.bufWord f)) = false) stPARTIAL (fun _ _ => 0) (fun _ _ => 0#64) (fun _ f s => rcount (reg .TILE_DQ_REFUSED (bits f.w1 10 0)) 48 1 s) ∧
  Claim.serves Instr.workDrain 0x0201 {} (fun _ s => s.gate.st ≠ .underway) stREFUSED_STATE (fun _ s => s.gate.st.code) (fun _ _ => 0#64) (fun _ _ s => s) ∧
  (∀ (s : State), s.gate.st ≠ .easy ∨ s.fab.colls ≠ [] ∨ (List.range 8).all (fun n => (bdOf s n).jobs.isEmpty) = false ∨
    s.tiles.any (fun e => !(e.2.seq == .idle) || !e.2.dq.isEmpty) = true → exec .easyComplete s = .next s) ∧
  (∀ (ring : Nat) (f : Frame) (s : State), Claim.taken s ring 0x0201 f {} → Claim.ringOpen s (cplOf s ring) = true → s.gate.st = .underway →
    Claim.completes (.workDrain ring f) s (fun s' =>
      s'.gate = { s.gate with st := .easy } ∧ s'.cox.drain = some (Claim.refOf s ring f) ∧ s'.cox.running = s.cox.running ++ [Claim.refOf s ring f] ∧
      Claim.recorded 0x0101 0xFF 0 (w64 (4 + 5 * 256 + 20 * 65536)) 0#64 s s' ∧ Claim.framed (Claim.refOf s ring f) stACCEPTED 0 0#64 s s' ∧ s'.tiles = s.tiles ∧ s'.stk = s.stk)) ∧
  (∀ (c : CmdRef) (s : State), s.gate.st = .easy → s.tiles.all (fun e => e.2.seq == .idle && e.2.dq.isEmpty && e.2.drained && e.2.steal.answer.isNone) = true →
    (List.range 8).all (fun n => (bdOf s n).jobs.isEmpty) = true → s.fab.colls = [] → s.cox.drain = some c → c.ring < 8 → bit c.w0 18 = false → Claim.ringOpen s (cplOf s c.ring) = true →
    Claim.completes .easyComplete s (fun s' =>
      s'.gate = { s.gate with st := .rigged } ∧ s'.cox.drain = none ∧ Claim.framed c stOK 0 0#64 s s' ∧ Claim.recorded 0x0101 0xFF 0 (w64 (5 + 3 * 256 + 21 * 65536)) 0#64 s s' ∧
      s'.tiles = s.tiles ∧ s'.stk = s.stk)) ∧
  (∀ (ring : Nat) (f : Frame) (s : State), Claim.taken s ring 0x0202 f {} → bit f.w0 18 = false → Claim.ringOpen s (cplOf s ring) = true → s.gate.st = .rigged → s.gate.frozen = true →
    Claim.completes (.workRun ring f) s (fun s' =>
      s'.gate = { s.gate with st := .underway, frozen := false } ∧ Claim.framed (Claim.refOf s ring f) stOK 0 0#64 s s' ∧ s'.tiles = s.tiles ∧ s'.stk = s.stk)) ∧
  Claim.serves Instr.workRun 0x0202 {} (fun _ s => s.gate.frozen = false ∨ s.gate.st ≠ .rigged) stREFUSED_STATE (fun _ s => s.gate.st.code) (fun _ _ => 0#64) (fun _ _ s => s) ∧
  (∀ (ring : Nat) (f : Frame) (s : State), Claim.taken s ring 0x0203 f {} → s.gate.frozen = true →
    Claim.completes (.workDiscard ring f) s (fun s' =>
      s'.gate = { s.gate with frozen := false } ∧ (∀ t, (tileOf s' t).dq = []) ∧ (∀ g, g < 16 → (cgOf s g).internal = false → cgState s' g ≠ 0))) ∧
  Claim.serves Instr.workDiscard 0x0203 {} (fun _ s => s.gate.frozen = false) stREFUSED_STATE (fun _ s => s.gate.st.code) (fun _ _ => 0#64) (fun _ _ s => s)

/-- Commands of clocks, time, scales and thresholds (R158, R195, R264, R343, R348, R393): clock caps by die, what the governor has learned forgotten, a step advance asked for, scale entries
loaded, guard entries read into a buffer; entries past the last, or a buffer too short, are refused. A detail or result that the catalogue does not give is 0, the model's reading (log 77). -/
def Obligations.PowerAndNumericsCommands : Prop :=
  (∀ (ring : Nat) (f : Frame) (s : State), Claim.taken s ring 0x0500 f { ops := [maskBits 3 0 ||| maskBits 26 16] } → bit f.w0 18 = false → Claim.ringOpen s (cplOf s ring) = true → assist s 14 = true →
    Claim.completes (.pwrClockCap ring f) s (fun s' =>
      (∀ d, d < 4 → (dieG s' d).hostCap = (if bit f.w1 d then bits f.w1 26 16 else (dieG s d).hostCap)) ∧ Claim.framed (Claim.refOf s ring f) stOK 0 0#64 s s' ∧
      s'.tiles = s.tiles ∧ s'.stk = s.stk)) ∧
  Claim.serves Instr.pwrClockCap 0x0500 { ops := [maskBits 3 0 ||| maskBits 26 16] } (fun _ s => assist s 14 = false) stREFUSED_MODE (fun _ _ => 0) (fun _ _ => 0#64) (fun _ _ s => s) ∧
  (∀ (ring : Nat) (f : Frame) (s : State), Claim.taken s ring 0x0501 f { ops := [maskBits 15 0] } → bit f.w0 18 = false → Claim.ringOpen s (cplOf s ring) = true →
    bit (rget s (reg .GOV_MIRROR)) 0 = false → Claim.completes (.pwrRelearn ring f) s (fun s' =>
      (∀ d k, d < 4 → k < 16 → learnOf s' d k = (if bit f.w1 k then {} else learnOf s d k)) ∧ Claim.framed (Claim.refOf s ring f) stOK 0 0#64 s s' ∧ s'.tiles = s.tiles ∧ s'.stk = s.stk)) ∧
  (∀ (ring : Nat) (f : Frame) (s : State), Claim.taken s ring 0x0600 f {} → s.blt.advWait.length < 16 →
    Claim.completes (.stepAdv ring f) s (fun s' =>
      s'.blt = { s.blt with advWait := s.blt.advWait ++ [some (Claim.refOf s ring f)] } ∧ s'.cox.running = s.cox.running ++ [Claim.refOf s ring f] ∧
      rget s' (reg .SCHED_PEND) = w64 s.blt.advWait.length ∧ s'.cox.slots = s.cox.slots ∧ s'.tiles = s.tiles ∧ s'.stk = s.stk)) ∧
  (∀ (ring : Nat) (f : Frame) (s : State), Claim.taken s ring 0x0600 f {} → Claim.ringOpen s (cplOf s ring) = true → s.blt.advWait.length = 16 →
    Claim.completes (.stepAdv ring f) s (fun s' => s'.blt = s.blt ∧ Claim.framed (Claim.refOf s ring f) stQUEUE_FULL 15 0#64 s s' ∧ s'.tiles = s.tiles)) ∧
  (∀ (ring a n : Nat) (f : Frame) (s : State), Claim.taken s ring 0x0601 f { ops := [maskBits 11 0 ||| maskBits 27 16], buf := true } → bit f.w0 18 = false → Claim.ringOpen s (cplOf s ring) = true →
    a = bits f.w1 11 0 → n = bits f.w1 27 16 + 1 → a + n ≤ 4096 → 16 * n ≤ bufLen f → bit f.w7 32 = false →
    Claim.completes (.tscLoad ring f) s (fun s' =>
      (∀ i, i < n → rbits s' (reg .TSC_NEXT (a + i)) 31 0 = bits (Claim.bufWord f (2 * i)) 31 0 ∧ rbits s' (reg .TSC_CTL (a + i)) 13 0 = bits (Claim.bufWord f (2 * i + 1)) 13 0) ∧
      (∀ i, i < 4096 → (i < a ∨ a + n ≤ i) → rget s' (reg .TSC_NEXT i) = rget s (reg .TSC_NEXT i) ∧ rget s' (reg .TSC_CTL i) = rget s (reg .TSC_CTL i)) ∧
      Claim.framed (Claim.refOf s ring f) stOK 0 0#64 s s' ∧ s'.tiles = s.tiles ∧ s'.stk = s.stk)) ∧
  Claim.serves Instr.tscLoad 0x0601 { ops := [maskBits 11 0 ||| maskBits 27 16], buf := true } (fun f _ => 4096 < bits f.w1 11 0 + (bits f.w1 27 16 + 1) ∨ bufLen f < 16 * (bits f.w1 27 16 + 1)) stREFUSED_FORM (fun _ _ => 0) (fun _ _ => 0#64) (fun _ _ s => s) ∧
  Claim.serves Instr.bltRead 0x0602 { ops := [maskBits 11 0 ||| maskBits 27 16], buf := true } (fun f _ => 4096 < bits f.w1 11 0 + (bits f.w1 27 16 + 1)) stREFUSED_FORM (fun _ _ => 0) (fun _ _ => 0#64) (fun _ _ s => s) ∧
  Claim.serves Instr.bltRead 0x0602 { ops := [maskBits 11 0 ||| maskBits 27 16], buf := true } (fun f _ => bits f.w1 11 0 + (bits f.w1 27 16 + 1) ≤ 4096 ∧ bufLen f < 64 * (bits f.w1 27 16 + 1)) stREFUSED_FORM
    (fun f _ => 64 * (bits f.w1 27 16 + 1)) (fun _ _ => 0#64) (fun _ _ s => s) ∧
  Claim.serves Instr.bltRead 0x0602 { ops := [maskBits 11 0 ||| maskBits 27 16], buf := true }
    (fun f _ => bit f.w7 32 = false ∧ bits f.w1 11 0 + bits f.w1 27 16 + 1 ≤ 4096 ∧ 64 * (bits f.w1 27 16 + 1) ≤ bufLen f) stOK (fun _ _ => 0) (fun _ _ => 0#64)
    (fun _ f s => Claim.hostAnswer f ((List.range (bits f.w1 27 16 + 1)).flatMap (fun i => guardEntry s (bits f.w1 11 0 + i))) s)

/-- Commands of scans, sparing and quarantine: a tile goes to its scan, a tile moves to a spare, a proposal is decided (an approved one for datapath
faults has the tile's own scan scheduled first, R401), a quarantine record is closed;
each answered as its catalogue entry says, and refused where the tile, the spare, the record or the mode does not allow it (R30, R394, R402, R406, R407). A detail or result that the catalogue does not give is 0, the model's reading (log 77). -/
def Obligations.SparingCommands : Prop :=
  (∀ (ring t : Nat) (f : Frame) (s : State), Claim.taken s ring 0x0700 f { ops := [maskBits 10 0] } → Claim.ringOpen s (cplOf s ring) = true → t = bits f.w1 10 0 → t < numTiles → isHeat s t = false →
    tileState s t = 0 →
    Claim.completes (.scanTile ring f) s (fun s' =>
      tileState s' t = 1 ∧ tileOf s' t = { tileOf s t with scan := 1, scanCmd := (tileOf s t).scanCmd <|> some (Claim.refOf s ring f) } ∧ (∀ u, u ≠ t → tileOf s' u = tileOf s u) ∧
      s'.cox.running = s.cox.running ++ [Claim.refOf s ring f] ∧ Claim.framed (Claim.refOf s ring f) stACCEPTED 0 0#64 s s' ∧ s'.stk = s.stk)) ∧
  Claim.serves Instr.scanTile 0x0700 { ops := [maskBits 10 0] } (fun f s => bits f.w1 10 0 < numTiles ∧ (isHeat s (bits f.w1 10 0) = true ∨ tileState s (bits f.w1 10 0) ≠ 0)) stREFUSED_STATE
    (fun f s => tileState s (bits f.w1 10 0)) (fun _ _ => 0#64) (fun _ _ s => s) ∧
  Claim.serves Instr.scanTile 0x0700 { ops := [maskBits 10 0] } (fun f _ => numTiles ≤ bits f.w1 10 0) stREFUSED_ADDR (fun _ _ => 0) (fun _ _ => 0#64) (fun _ _ s => s) ∧
  Claim.serves Instr.spareTile 0x0701 { ops := [maskBits 10 0 ||| maskBits 21 16 ||| maskBits 28 24 ||| maskBits 31 31] }
    (fun f s => numTiles ≤ bits f.w1 10 0 ∨ tileState s (bits f.w1 10 0) = 4 ∨ (bit f.w1 31 = true ∧ (usableSpares s (dieOfTile (bits f.w1 10 0))).isEmpty = true) ∨
      (bit f.w1 31 = false ∧ (usableSpares s (dieOfTile (bits f.w1 10 0))).contains (bits f.w1 21 16, bits f.w1 28 24) = false)) stREFUSED_ADDR (fun _ _ => 0) (fun _ _ => 0#64) (fun _ _ s => s) ∧
  Claim.serves Instr.spareTile 0x0701 { ops := [maskBits 10 0 ||| maskBits 21 16 ||| maskBits 28 24 ||| maskBits 31 31] }
    (fun f s => bits f.w1 10 0 < numTiles ∧ tileState s (bits f.w1 10 0) ≠ 4 ∧ bit f.w1 31 = true ∧ (usableSpares s (dieOfTile (bits f.w1 10 0))).isEmpty = false ∧
      (spareAsked s (bits f.w1 10 0) = true ∨ tileState s (bits f.w1 10 0) = 2)) stREFUSED_STATE (fun f s => tileState s (bits f.w1 10 0)) (fun _ _ => 0#64) (fun _ _ s => s) ∧
  Claim.serves Instr.spareDecide 0x0702 { ops := [maskBits 32 0] }
    (fun f s => assist s 7 = true ∧ s.cox.proposals.find? (fun p => p.num == bits f.w1 31 0 && p.kind == 4 && !p.decided) = none) stREFUSED_FORM (fun _ _ => 0) (fun _ _ => 0#64) (fun _ _ s => s) ∧
  Claim.serves Instr.quarClose 0x0703 { ops := [maskBits 33 0] } (fun f s => s.cox.quars.find? (fun q => q.1 % 2 ^ 32 == bits f.w1 31 0) = none ∨ bits f.w1 33 32 = 3) stREFUSED_FORM (fun _ _ => 0) (fun _ _ => 0#64) (fun _ _ s => s) ∧
  (∀ (ring t : Nat) (f : Frame) (s : State), Claim.taken s ring 0x0701 f { ops := [maskBits 10 0 ||| maskBits 21 16 ||| maskBits 28 24 ||| maskBits 31 31] } → Claim.ringOpen s (cplOf s ring) = true →
    t = bits f.w1 10 0 → t < numTiles → tileState s t = 0 → bit f.w1 31 = true → (usableSpares s (dieOfTile t)).isEmpty = false → spareAsked s t = false →
    Claim.completes (.spareTile ring f) s (fun s' =>
      tileState s' t = 1 ∧ s'.cox.moveCmd = SMap.set s.cox.moveCmd t (Claim.refOf s ring f) ∧ s'.cox.movePos = s.cox.movePos ∧ s'.cox.running = s.cox.running ++ [Claim.refOf s ring f] ∧
      Claim.framed (Claim.refOf s ring f) stACCEPTED 0 0#64 s s' ∧ s'.tiles = s.tiles ∧ s'.stk = s.stk)) ∧
  Claim.serves Instr.spareDecide 0x0702 { ops := [maskBits 32 0] } (fun _ s => assist s 7 = false) stREFUSED_MODE (fun _ _ => 0) (fun _ _ => 0#64) (fun _ _ s => s) ∧
  (∀ p : Proposal, Claim.serves Instr.spareDecide 0x0702 { ops := [maskBits 32 0] }
    (fun f s => assist s 7 = true ∧ s.cox.proposals.find? (fun p => p.num == bits f.w1 31 0 && p.kind == 4 && !p.decided) = some p ∧ bit f.w1 32 = false ∧ (tileOf s p.a).scan ≠ 4) stOK
    (fun _ _ => 0) (fun _ _ => 0#64) (fun _ f s => { s with cox := { s.cox with proposals := s.cox.proposals.filter (fun q => q.num != bits f.w1 31 0) } })) ∧
  (∀ (ring : Nat) (f : Frame) (p : Proposal) (s : State), Claim.taken s ring 0x0702 f { ops := [maskBits 32 0] } → Claim.ringOpen s (cplOf s ring) = true → assist s 7 = true →
    s.cox.proposals.find? (fun p => p.num == bits f.w1 31 0 && p.kind == 4 && !p.decided) = some p → bit f.w1 32 = true → p.a < numTiles → (usableSpares s (dieOfTile p.a)).isEmpty = false →
    (tileOf s p.a).scanCmd = none →
    Claim.completes (.spareDecide ring f) s (fun s' =>
      s'.cox.proposals = s.cox.proposals.map (fun q => if q.num = bits f.w1 31 0 then { q with decided := true, cmd := some (Claim.refOf s ring f) } else q) ∧
      tileState s' p.a = (if tileState s p.a = 0 then 1 else tileState s p.a) ∧ s'.cox.running = s.cox.running ++ [Claim.refOf s ring f] ∧
      Claim.framed (Claim.refOf s ring f) stACCEPTED 0 0#64 s s' ∧ (∀ u, u ≠ p.a → tileOf s' u = tileOf s u) ∧
      (tileOf s' p.a).scan = (if p.b = 1 ∧ tileState s p.a ≤ 1 ∧ (tileOf s p.a).scan ≤ 1 then 1 - (tileOf s p.a).scan else (tileOf s p.a).scan) ∧ s'.stk = s.stk)) ∧
  (∀ q : Nat × Nat × Nat × Nat, Claim.serves Instr.quarClose 0x0703 { ops := [maskBits 33 0] }
    (fun f s => s.cox.quars.find? (fun q => q.1 % 2 ^ 32 == bits f.w1 31 0) = some q ∧ bits f.w1 33 32 = 2) stOK (fun _ _ => 0) (fun _ _ => 0#64)
    (fun _ _ s => rsetBit (reg .ERR_QUAR_USED) q.2.1 false { s with cox := { s.cox with quars := s.cox.quars.erase q } })) ∧
  (∀ (ring : Nat) (f : Frame) (q : Nat × Nat × Nat × Nat) (s : State), Claim.taken s ring 0x0703 f { ops := [maskBits 33 0] } → bit f.w0 18 = false → Claim.ringOpen s (cplOf s ring) = true →
    s.cox.quars.find? (fun q => q.1 % 2 ^ 32 == bits f.w1 31 0) = some q → bits f.w1 33 32 = 1 → q.2.2.1 < numTiles → (tileOf s q.2.2.1).charges = [] →
    Claim.completes (.quarClose ring f) s (fun s' =>
      rbits s' (reg .TILE_RES_DP q.2.2.1) 47 0 = (rbits s (reg .TILE_RES_DP q.2.2.1) 47 0 + 1) % 2 ^ 48 ∧ s'.cox.quars = s.cox.quars.erase q ∧
      (tileOf s' q.2.2.1).charges = [(true, (epoch s).toNat)] ∧ Claim.framed (Claim.refOf s ring f) stOK 0 0#64 s s' ∧ s'.stk = s.stk))

/-- Commands of counters and firmware (R372, R394, R418, R420): snapshots copied into the buffer, the sample ring placed, the images told, the cox restarted into the running image at
once or into the other one once it is staged, a warm reset; tiles past the last, a ring outside stack memory, a buffer too short, a restart while an image is staged and one into an
image that is being updated are refused. A detail or result that the catalogue does not give is 0, the model's reading (log 77). -/
def Obligations.CounterAndFirmwareCommands : Prop :=
  (∀ (ring a n : Nat) (f : Frame) (s : State), Claim.taken s ring 0x0800 f { ops := [maskBits 10 0 ||| maskBits 26 16], buf := true } → a = bits f.w1 10 0 → n = bits f.w1 26 16 + 1 →
    a ≠ 0x7FF → a + n ≤ numTiles → 128 * n ≤ bufLen f → bit f.w7 32 = false →
    Claim.completes (.ctrDump ring f) s (fun s' =>
      s'.cox.hostMem = SMap.putList 0#8 s.cox.hostMem f.w6.toNat (wordBytes (ctrRecords s a n)) ∧ s'.snap = s.snap ∧ s'.tiles = s.tiles ∧ s'.stk = s.stk)) ∧
  Claim.serves Instr.ctrDump 0x0800 { ops := [maskBits 10 0 ||| maskBits 26 16], buf := true } (fun f _ => bits f.w1 10 0 ≠ 0x7FF ∧ numTiles < bits f.w1 10 0 + (bits f.w1 26 16 + 1)) stREFUSED_FORM (fun _ _ => 0) (fun _ _ => 0#64) (fun _ _ s => s) ∧
  Claim.serves Instr.sampleRing 0x0801 { ops := [maskBits 3 0, maskBits 47 0] } (fun f _ => bits f.w2 47 0 % 4096 ≠ 0 ∨ stackTop < bits f.w2 47 0 + 4096 * 2 ^ bits f.w1 3 0) stREFUSED_ADDR (fun _ _ => 0) (fun _ _ => 0#64) (fun _ _ s => s) ∧
  Claim.serves Instr.fwInfo 0x0900 { buf := true } (fun f _ => bufLen f < 64) stREFUSED_FORM (fun _ _ => 64) (fun _ _ => 0#64) (fun _ _ s => s) ∧
  Claim.serves Instr.fwRestart 0x0901 { ops := [maskBits 0 0] } (fun _ s => s.gate.staging.isSome = true) stREFUSED_STATE (fun _ s => s.gate.st.code) (fun _ _ => 0#64) (fun _ _ s => s) ∧
  Claim.serves Instr.fwRestart 0x0901 { ops := [maskBits 0 0] } (fun f s => s.gate.staging = none ∧ bit f.w1 0 = true ∧ s.ports.update = 1) stIMAGE_REFUSED (fun _ _ => 0) (fun _ _ => 0#64) (fun _ _ s => s) ∧
  Claim.serves Instr.sampleRing 0x0801 { ops := [maskBits 3 0, maskBits 47 0] } (fun f _ => bits f.w2 47 0 % 4096 = 0 ∧ bits f.w2 47 0 + 4096 * 2 ^ bits f.w1 3 0 ≤ stackTop) stOK
    (fun _ _ => 0) (fun _ _ => 0#64) (fun _ f s => rset (reg .PMC_SRING) (w64 (bits f.w2 47 0 + bits f.w1 3 0 * 2 ^ 48)) s) ∧
  Claim.serves Instr.fwInfo 0x0900 { buf := true } (fun f _ => bit f.w7 32 = false ∧ 64 ≤ bufLen f) stOK (fun _ _ => 0) (fun _ _ => 0#64)
    (fun _ f s => Claim.hostAnswer f [w64 (b2n s.gate.image), rget s (reg .GATE_IMG_DIGEST 0), rget s (reg .GATE_IMG_DIGEST 1),
      rget s (reg .GATE_DIGEST_VALID), w64 (SMap.get 0 s.ports.versions 0), w64 (SMap.get 0 s.ports.versions 1), 0#64, 0#64] s) ∧
  (∀ (ring : Nat) (f : Frame) (s : State), Claim.taken s ring 0x0901 f { ops := [maskBits 0 0] } → Claim.ringOpen s (cplOf s ring) = true → s.gate.staging = none → bit f.w1 0 = false →
    Claim.completes (.fwRestart ring f) s (fun s' =>
      s'.gate = { s.gate with switching := some (s.gate.image, some (Claim.refOf s ring f)), intake := true } ∧
      rbits s' (reg .GATE_COX_RESTARTS) 47 0 = (rbits s (reg .GATE_COX_RESTARTS) 47 0 + 1) % 2 ^ 48 ∧ Claim.recorded 0x0C01 0xFF 0 (w64 1) (w64 (b2n s.gate.image)) s s' ∧
      s'.cox.running = s.cox.running ++ [Claim.refOf s ring f] ∧ Claim.framed (Claim.refOf s ring f) stACCEPTED 0 0#64 s s' ∧ s'.tiles = s.tiles ∧ s'.stk = s.stk)) ∧
  Claim.serves Instr.fwRestart 0x0901 { ops := [maskBits 0 0] } (fun f s => s.gate.staging = none ∧ bit f.w1 0 = true ∧ s.ports.update ≠ 1) stACCEPTED (fun _ _ => 0) (fun _ _ => 0#64)
    (fun r _ s => { s with gate := { s.gate with staging := some (!s.gate.image, some r) }, cox := { s.cox with running := s.cox.running ++ [r] } }) ∧
  (∀ (ring : Nat) (f : Frame) (s : State), Claim.taken s ring 0x0902 f {} → bit f.w0 18 = false → Claim.ringOpen s (cplOf s ring) = true → (∀ g, g < 16 → cgState s g ≠ 1) →
    Claim.completes (.warmReset ring f) s (fun s' =>
      s'.gate.st = .dry ∧ s'.gate.open_ = s.gate.open_ ∧ s'.tiles = [] ∧ s'.stk.mem = s.stk.mem ∧ s'.cox.hostMem = s.cox.hostMem ∧ (∀ r : Reg, r.off < 0x10000 → rget s' r = rget s r) ∧
      Claim.frameAt (Claim.refOf s ring f) stOK 0 0#64 s s'))

/-- Commits (R365 to R368, R386, R388): the cox validates staging, hands it to the Gate and asserts valid; a check that fails ends the commit and leaves the configuration in force; the Gate's check lets
the outputs on and the configuration comes into force, or the device enters HOLD; a release withdraws it; a spare port takes a role or gives it back (R299). Each is refused where a
commit is under way, the device is in another state, no slot is free, or the Gate does not allow the port. A detail or result that the catalogue does not give is 0, the model's reading (log 77). -/
def Obligations.ConfigurationCommits : Prop :=
  (∀ (ring g : Nat) (f : Frame) (s : State), Claim.taken s ring 0x0104 f { ops := [maskAll] } → Claim.ringOpen s (cplOf s ring) = true → s.cox.lock = none → changesQuiescent s = false →
    freeSlot s = some g → cfgError s s.cox.staging f.w1 false = 0 →
    Claim.completes (.cfgCommit ring f) s (fun s' =>
      s'.cox.lock = some (Claim.refOf s ring f) ∧ s'.cox.commitSlot = g ∧ cgState s' g = 0 ∧ s'.gate = { s.gate with buf := s.cox.staging, coxValid := true } ∧
      s'.cox.running = s.cox.running ++ [Claim.refOf s ring f] ∧ s'.cox.active = s.cox.active ∧ Claim.framed (Claim.refOf s ring f) stACCEPTED 0 0#64 s s' ∧ s'.tiles = s.tiles ∧ s'.stk = s.stk)) ∧
  (∀ (ring g : Nat) (f : Frame) (s : State), Claim.taken s ring 0x0104 f { ops := [maskAll] } → s.cox.lock = none → changesQuiescent s = false → freeSlot s = some g →
    cfgError s s.cox.staging f.w1 false ≠ 0 → s.gate.st = .underway →
    Claim.completes (.cfgCommit ring f) s (fun s' =>
      s'.cox.lock = none ∧ s'.gate = s.gate ∧ s'.cox.active = s.cox.active ∧ s'.cox.staging = s.cox.staging ∧ cgState s' g = 4 ∧ s'.tiles = s.tiles ∧ s'.stk = s.stk)) ∧
  Claim.serves Instr.cfgCommit 0x0104 { ops := [maskAll] }
    (fun _ s => s.cox.lock.isSome = true ∨ (changesQuiescent s = true ∧ (s.gate.st = .underway ∨ s.gate.st = .easy ∨ (s.gate.st = .hold ∧ s.gate.frozen = true)))) stREFUSED_STATE
    (fun _ s => s.gate.st.code) (fun _ _ => 0#64) (fun _ _ s => s) ∧
  Claim.serves Instr.cfgCommit 0x0104 { ops := [maskAll] } (fun _ s => s.cox.lock = none ∧ changesQuiescent s = false ∧ freeSlot s = none) stQUEUE_FULL (fun _ _ => 16) (fun _ _ => 0#64)
    (fun _ _ s => s) ∧
  Claim.serves Instr.cfgRelease 0x0105 {} (fun _ s => s.gate.st ≠ .rigged ∨ s.gate.frozen = true ∨ s.cox.lock.isSome = true) stREFUSED_STATE (fun _ s => s.gate.st.code) (fun _ _ => 0#64)
    (fun _ _ s => s) ∧
  Claim.serves Instr.spareAssign 0x0407 { ops := [0xF3#64] } (fun f _ => bits f.w1 1 0 = 3 ∨ bits f.w1 7 4 = 15) stREFUSED_FORM (fun _ _ => 0) (fun _ _ => 0#64) (fun _ _ s => s) ∧
  Claim.serves Instr.spareAssign 0x0407 { ops := [0xF3#64] }
    (fun f s => bits f.w1 1 0 < 3 ∧ bits f.w1 7 4 < 15 ∧ bit (rget s (reg .GATE_LINK_MASK)) (bits f.w1 1 0 * 16 + 15) = false) stREFUSED_GATE (fun _ _ => 0) (fun _ _ => 0#64) (fun _ _ s => s) ∧
  Claim.serves Instr.spareAssign 0x0407 { ops := [0xF3#64] }
    (fun f s => bits f.w1 1 0 < 3 ∧ bits f.w1 7 4 < 15 ∧ bit (rget s (reg .GATE_LINK_MASK)) (bits f.w1 1 0 * 16 + 15) = true ∧
      bit (rget s (reg .LNK_CTL (bits f.w1 1 0 * 16 + 15))) 2 = true) stREFUSED_STATE (fun f s => rbits s (reg .LNK_CTL (bits f.w1 1 0 * 16 + 15)) 7 4) (fun _ _ => 0#64) (fun _ _ s => s) ∧
  Claim.serves Instr.spareRelease 0x0408 { ops := [maskBits 1 0] } (fun f _ => bits f.w1 1 0 = 3) stREFUSED_FORM (fun _ _ => 0) (fun _ _ => 0#64) (fun _ _ s => s) ∧
  Claim.serves Instr.spareRelease 0x0408 { ops := [maskBits 1 0] } (fun f s => bits f.w1 1 0 < 3 ∧ bit (rget s (reg .LNK_CTL (bits f.w1 1 0 * 16 + 15))) 2 = false) stREFUSED_STATE (fun _ _ => 0) (fun _ _ => 0#64) (fun _ _ s => s) ∧
  (∀ (s : State), s.cox.lock = none → exec .gateCheck s = .next s) ∧
  (∀ (c : CmdRef) (d : Word) (s : State), s.cox.lock = some c → d = shortDigest (cfgAll s.gate.buf) → cfgError s s.gate.buf d true = 0 →
    Claim.completes .gateCheck s (fun s' =>
      s'.gate = { s.gate with checkOk := true, st := if !s.gate.trip && (s.gate.st == .moored || s.gate.st == .hold) then .rigged else s.gate.st } ∧
      s'.cox.active = s.gate.buf ∧ s'.cox.hasActive = true ∧ s'.cox.lock = none ∧ rget s' (reg .GATE_CFG_DIGEST) = d ∧ s'.tiles = s.tiles ∧ s'.stk = s.stk)) ∧
  (∀ (c : CmdRef) (d : Word) (s : State), s.cox.lock = some c → d = shortDigest (cfgAll s.gate.buf) → cfgError s s.gate.buf d true ≠ 0 → s.gate.st = .moored →
    Claim.completes .gateCheck s (fun s' =>
      s'.gate.st = .hold ∧ s'.gate.cause = 1 ∧ s'.gate.checkOk = false ∧ outputsOn s' = false ∧ s'.cox.active = s.cox.active ∧ s'.cox.lock = none ∧
      rget s' (reg .GATE_CHECK_ERR) = w64 (cfgError s s.gate.buf d true) ∧ s'.tiles = s.tiles)) ∧
  (∀ (ring : Nat) (f : Frame) (s : State), Claim.taken s ring 0x0105 f {} → bit f.w0 18 = false → Claim.ringOpen s (cplOf s ring) = true → s.gate.st = .rigged → s.gate.frozen = false → s.cox.lock = none →
    Claim.completes (.cfgRelease ring f) s (fun s' =>
      s'.gate = { s.gate with st := .moored, coxValid := false, checkOk := false } ∧ outputsOn s' = false ∧ Claim.framed (Claim.refOf s ring f) stOK 0 0#64 s s' ∧ s'.tiles = s.tiles ∧ s'.stk = s.stk)) ∧
  (∀ (ring d j : Nat) (f : Frame) (s : State), Claim.taken s ring 0x0407 f { ops := [0xF3#64] } → d = bits f.w1 1 0 → j = bits f.w1 7 4 → d < 3 → j < 15 →
    bit (rget s (reg .GATE_LINK_MASK)) (d * 16 + 15) = true → bit (rget s (reg .LNK_CTL (d * 16 + 15))) 2 = false →
    Claim.completes (.spareAssign ring f) s (fun s' =>
      bit (rget s' (reg .LNK_CTL (d * 16 + 15))) 0 = true ∧ bit (rget s' (reg .LNK_CTL (d * 16 + 15))) 2 = true ∧ rbits s' (reg .LNK_CTL (d * 16 + 15)) 7 4 = j ∧ cfgRole s'.cox.active d = some j ∧
      s'.tiles = s.tiles)) ∧
  (∀ (ring d : Nat) (f : Frame) (s : State), Claim.taken s ring 0x0408 f { ops := [maskBits 1 0] } → d = bits f.w1 1 0 → d < 3 → bit (rget s (reg .LNK_CTL (d * 16 + 15))) 2 = true →
    Claim.completes (.spareRelease ring f) s (fun s' =>
      bit (rget s' (reg .LNK_CTL (d * 16 + 15))) 0 = false ∧ bit (rget s' (reg .LNK_CTL (d * 16 + 15))) 2 = false ∧ cfgRole s'.cox.active d = none ∧ s'.tiles = s.tiles))


/-- Rings, asynchronous records and messages. -/
def Obligations.RingsAndRecords : Prop := Claim.RingsTurn ∧ Claim.RecordsAndMessages

/-! ### Scans and the loss of a die (R404, R406, R408) -/

/-- The sweep stands at a position and may go on there: the device is up, a scan has room on its die, and the cox is not being switched (R406). -/
def Sys2Proof.Claim.sweepAt (s : State) (px py : Nat) : Prop :=
  rbits s (reg .ERR_SCAN_POS) 5 0 = px ∧ rbits s (reg .ERR_SCAN_POS) 12 8 = py ∧ assist s 10 = false ∧ isUp s = true ∧ s.gate.switching = none ∧ px < 48 ∧ py < 26 ∧
  scanRoom s (dieOfPos px py) = true

/-- The sweep goes on from a position, past the last one with the next sweep (R406). -/
def Sys2Proof.Claim.sweptOn (px py : Nat) (s s' : State) : Prop :=
  let k := (py * 48 + px + 1) % 1248
  rbits s' (reg .ERR_SCAN_POS) 5 0 = k % 48 ∧ rbits s' (reg .ERR_SCAN_POS) 12 8 = k / 48 ∧
  rbits s' (reg .ERR_SCAN_POS) 47 16 = (rbits s (reg .ERR_SCAN_POS) 47 16 + (if k = 0 then 1 else 0)) % 2 ^ 32

/-- A scan that the command may end stands at tile t (R406). -/
def Sys2Proof.Claim.scanning (s : State) (t n : Nat) : Prop := t < numTiles ∧ tileState s t = 3 ∧ (tileOf s t).scan = n ∧ s.gate.switching = none

/-- A sweep drains the tile at its position, a drained tile is scanned, one that does not drain goes back and is counted; a pass stamps the tile, clears its taint log and gives it back (in service, or draining where it is to move), a first
failure is scanned again, a second one holds the tile, a failure that does not repeat is intermittent and retires at the second within 24 h; a spare that passes is noted with its sweep, one that fails twice retires (R404, R406, R407). -/
def Sys2Proof.Claim.ScansRun : Prop :=
  (∀ (px py t : Nat) (s : State), Claim.sweepAt s px py → tileAt s (px, py) = some t → tileState s t = 0 →
    Claim.completes (.scanStart px py) s (fun s' =>
      tileState s' t = 1 ∧ tileOf s' t = { tileOf s t with scan := 1 } ∧ Claim.sweptOn px py s s' ∧ (∀ u, u ≠ t → tileOf s' u = tileOf s u) ∧ s'.stk = s.stk)) ∧
  (∀ (px py t : Nat) (s : State), Claim.sweepAt s px py → tileAt s (px, py) = some t → tileState s t ≠ 0 →
    Claim.completes (.scanStart px py) s (fun s' => Claim.sweptOn px py s s' ∧ s'.tiles = s.tiles ∧ s'.stk = s.stk)) ∧
  (∀ (px py : Nat) (s : State), Claim.sweepAt s px py → tileAt s (px, py) = none → (px, py) ∈ freeSpares s (dieOfPos px py) →
    Claim.completes (.scanStart px py) s (fun s' => s'.cox.spareScan = s.cox.spareScan ++ [(posKey px py, false)] ∧ Claim.sweptOn px py s s' ∧ s'.tiles = s.tiles)) ∧
  (∀ (px py : Nat) (s : State), isUp s = false ∨ s.gate.switching.isSome = true ∨ 48 ≤ px ∨ 26 ≤ py ∨ scanRoom s (dieOfPos px py) = false → exec (.scanStart px py) s = .next s) ∧
  (∀ (t : Nat) (s : State), t < numTiles → (tileOf s t).scan = 1 → tileState s t = 1 → quiet s t = true → s.gate.switching = none → scanStreams s (dieOfTile t) = true →
    Claim.completes (.scanDrained t) s (fun s' => tileState s' t = 3 ∧ tileOf s' t = { tileOf s t with scan := 2 } ∧ (∀ u, u ≠ t → tileOf s' u = tileOf s u) ∧ s'.stk = s.stk)) ∧
  (∀ (t : Nat) (s : State), numTiles ≤ t ∨ (tileOf s t).scan ≠ 1 ∨ quiet s t = false ∨ s.gate.switching.isSome = true ∨ scanStreams s (dieOfTile t) = false → exec (.scanDrained t) s = .next s) ∧
  (∀ (t : Nat) (s : State), t < numTiles → (tileOf s t).scan = 1 → tileState s t = 1 → quiet s t = false →
    Claim.completes (.scanDrainTimeout t) s (fun s' =>
      tileState s' t = backState s t ∧ tileOf s' t = { tileOf s t with scan := 0 } ∧ s'.cox.scanSkips = s.cox.scanSkips + 1 ∧ s'.cox.skipped = s.cox.skipped ++ [t] ∧
      Claim.recorded 0x0403 (dieOfTile t) t (w64 ((s.cox.scanSkips + 1) % 2 ^ 32)) 0#64 s s' ∧ s'.stk = s.stk)) ∧
  (∀ (t : Nat) (s : State), numTiles ≤ t ∨ (tileOf s t).scan ≠ 1 ∨ tileState s t ≠ 1 ∨ quiet s t = true → exec (.scanDrainTimeout t) s = .next s) ∧
  (∀ (t chains : Nat) (s : State), Claim.scanning s t 2 → (tileOf s t).scanCmd = none →
    Claim.completes (.scanComplete t true chains) s (fun s' =>
      tileState s' t = backState s t ∧ tileOf s' t = { tileOf s t with scan := 0 } ∧ rbits s' (reg .TILE_SCAN_STAT t) 1 0 = 1 ∧ rbits s' (reg .TILE_SCAN_STAT t) 47 16 = stepOf s % 2 ^ 32 ∧
      rget s' (reg .TILE_SCAN_LAST t) = coxEpoch s ∧ rget s' (reg .TILE_TAINT_FLAGS t) = 0#64 ∧ (∀ w, w < 64 → rget s' (reg .TILE_TAINT t w) = 0#64) ∧
      (∀ u, u ≠ t → tileOf s' u = tileOf s u) ∧ s'.stk = s.stk)) ∧
  (∀ (t chains : Nat) (s : State), Claim.scanning s t 2 →
    Claim.completes (.scanComplete t false chains) s (fun s' => tileOf s' t = { tileOf s t with scan := 3 } ∧ s' = { s with tiles := s'.tiles } ∧ ∀ u, u ≠ t → tileOf s' u = tileOf s u)) ∧
  (∀ (t chains : Nat) (s : State), Claim.scanning s t 3 → (tileOf s t).scanCmd = none → assist s 7 = true → retiring s t = false →
    Claim.completes (.scanComplete t false chains) s (fun s' =>
      tileState s' t = 3 ∧ (tileOf s' t).scan = 4 ∧ rbits s' (reg .TILE_SCAN_STAT t) 1 0 = 2 ∧ retiring s' t = true ∧ s'.stk = s.stk)) ∧
  (∀ (t chains : Nat) (s : State), Claim.scanning s t 3 → (tileOf s t).scanCmd = none → (tileOf s t).scanInt = none →
    Claim.completes (.scanComplete t true chains) s (fun s' =>
      tileState s' t = backState s t ∧ (tileOf s' t).scan = 0 ∧ (tileOf s' t).scanInt = some (epoch s).toNat ∧ rbits s' (reg .TILE_SCAN_STAT t) 1 0 = 3 ∧ s'.cox.proposals = s.cox.proposals ∧ s'.stk = s.stk)) ∧
  (∀ (t e chains : Nat) (s : State), Claim.scanning s t 3 → (tileOf s t).scanCmd = none → (tileOf s t).scanInt = some e → (epoch s).toNat < e + dayNs → assist s 7 = true → retiring s t = false →
    Claim.completes (.scanComplete t true chains) s (fun s' =>
      tileState s' t = 3 ∧ (tileOf s' t).scan = 4 ∧ rbits s' (reg .TILE_SCAN_STAT t) 1 0 = 3 ∧ retiring s' t = true ∧ s'.stk = s.stk)) ∧
  (∀ (t chains : Nat) (b : Bool) (s : State), t < numTiles → tileState s t ≠ 3 ∨ ((tileOf s t).scan ≠ 2 ∧ (tileOf s t).scan ≠ 3) ∨ s.gate.switching.isSome = true →
    exec (.scanComplete t b chains) s = .next s) ∧
  (∀ (k chains : Nat) (b : Bool) (s : State), s.cox.spareScan = [(k, b)] →
    Claim.completes (.scanComplete (numTiles + k) true chains) s (fun s' =>
      s'.cox.spareScan = [] ∧ SMap.get 0 s'.cox.spareSwept k = rbits s (reg .ERR_SCAN_POS) 47 16 + 1 ∧ s' = { s with cox := s'.cox })) ∧
  (∀ (k chains : Nat) (s : State), s.cox.spareScan = [(k, false)] →
    Claim.completes (.scanComplete (numTiles + k) false chains) s (fun s' => s' = { s with cox := { s.cox with spareScan := [(k, true)] } })) ∧
  (∀ (k chains : Nat) (s : State), s.cox.spareScan = [(k, true)] →
    Claim.completes (.scanComplete (numTiles + k) false chains) s (fun s' => SMap.get false s'.retired k = true ∧ s'.cox.spareScan = [] ∧ s'.tiles = s.tiles ∧ s'.regs = s.regs)) ∧
  (∀ (k chains : Nat) (b : Bool) (s : State), s.cox.spareScan = [] → exec (.scanComplete (numTiles + k) b chains) s = .next s)

/-- The loss of a die takes its tiles and both its stacks; every other tile keeps its stores and its queue (R408). A die that does not exist or is lost already is not lost again. -/
def Sys2Proof.Claim.DiesAreLost : Prop :=
  (∀ (die : Nat) (s : State), die < 4 → dieGone s die = false → s.gate.st ≠ .off →
    Claim.completes (.dieLoss die) s (fun s' =>
      dieGone s' die = true ∧ stackLost s' (2 * die) = true ∧ stackLost s' (2 * die + 1) = true ∧ (∀ i, i < 288 → tileState s' (die * 288 + i) = 4) ∧
      (∀ t, t < numTiles → dieOfTile t ≠ die → tileState s' t = tileState s t ∧ (tileOf s' t).dq = (tileOf s t).dq ∧ (s.fab.rx = [] → (tileOf s' t).mem = (tileOf s t).mem)) ∧
      ((∀ g, g < 16 → cgState s g ≠ 1) → s.fab.rx = [] → s'.stk = s.stk))) ∧
  (∀ (die : Nat) (s : State), 4 ≤ die ∨ dieGone s die = true ∨ s.gate.st = .off → exec (.dieLoss die) s = .next s)

/-- Scans and the loss of a die. -/
def Obligations.ScansAndDieLoss : Prop := Claim.ScansRun ∧ Claim.DiesAreLost

/-! ### Performance counters (R332, R414 to R421) -/

/-- A freeze keeps every counter at an instant, under the next number (R417). -/
def Sys2Proof.Claim.freezes (instant : Word) (s s' : State) : Prop :=
  s'.snap.seq = (rbits s (reg .PMC_FREEZE_SEQ) 31 0 + 1) % 2 ^ 32 ∧ rbits s' (reg .PMC_FREEZE_SEQ) 31 0 = s'.snap.seq ∧ s'.snap.at_ = instant ∧ rget s' (reg .PMC_FREEZE_EPOCH) = instant ∧
  s'.snap.cyc = s.ep.cyc ∧ (∀ r : Reg, frozenOff r.off = true → snapReg s' r = rget s r) ∧ s' = { s with regs := s'.regs, snap := s'.snap }

/-- The oldest sample of tile t is ready to be written (R419). -/
def Sys2Proof.Claim.sampleReady (s : State) (t : Nat) (p : Sample) (ps : List Sample) : Prop := (tileOf s t).samples = p :: ps ∧ (tileOf s t).inFlight p.sn = false

/-- Records that stand in the ring (R420). -/
def Sys2Proof.Claim.samplesHeld (s : State) : Nat := (rbits s (reg .PMC_SRING_WR) 31 0 + 2 ^ 32 - rbits s (reg .PMC_SRING_RD) 31 0) % 2 ^ 32

/-- Where the next record goes (R420). -/
def Sys2Proof.Claim.sampleAddr (s : State) : Nat := rbits s (reg .PMC_SRING) 47 12 * 4096 + (rbits s (reg .PMC_SRING_WR) 31 0 % sampleCap s) * 64

/-- Counters clear by the bits written, after the hold where the tile moves; the configuration, once locked, takes no write; a freeze that is due or asked for keeps every counter at one instant; a sample whose instruction has completed goes to
the ring, or is dropped and counted where the ring is full or its write fails (R31, R332, R414, R417, R419 to R421). -/
def Obligations.CountersAndSamples : Prop :=
  (∀ (q : Req) (t : Nat) (v : Word) (s : State), t < numTiles → tileState s t ≠ 2 → pmcLocked s = false →
    Claim.completes (.counterClear q t v) s (fun s' =>
      (∀ k, k < 8 → rget s' (reg .TILE_PMC_CTR t k) = (if bit v k then 0#64 else rget s (reg .TILE_PMC_CTR t k))) ∧
      Claim.onlyRegs ((List.range 8).map (fun k => (reg .TILE_PMC_CTR t k).off)) s s')) ∧
  (∀ (q : Req) (t : Nat) (v : Word) (s : State), t < numTiles → tileState s t ≠ 2 → pmcLocked s = true →
    Claim.completes (.counterClear q t v) s (Claim.onlyRecorded 0x0F08 0xFF (Req.code q) (w64 ((reg .TILE_PMC_CLR t).off % 2 ^ 48)) v s)) ∧
  (∀ (q : Req) (t : Nat) (v : Word) (s : State), t < numTiles → tileState s t = 2 →
    Claim.completes (.counterClear q t v) s (fun s' => (∀ r : Reg, rget s' r = rget s r) ∧ (tileOf s' t).held.length = (tileOf s t).held.length + 1 ∧ ∀ u, u ≠ t → tileOf s' u = tileOf s u)) ∧
  (∀ (q : Req) (t : Nat) (v : Word) (s : State), numTiles ≤ t → exec (.counterClear q t v) s = .next s) ∧
  (∀ (q : Req) (v : Word) (s : State), pmcLocked s = false →
    Claim.completes (.pmcSampleWrite q v) s (fun s' =>
      (∀ t, t < numTiles → tileOf s' t = { tileOf s t with lfsr := BitVec.ofNat 32 (bits v 63 32 ^^^ t) }) ∧ rbits s' (reg .PMC_SAMPLE) 23 0 = bits v 23 0 ∧
      s' = { s with regs := s'.regs, tiles := s'.tiles } ∧ Claim.regsKeep [(reg .PMC_SAMPLE).off] s s')) ∧
  (∀ (q : Req) (v : Word) (s : State), pmcLocked s = true → Claim.completes (.pmcSampleWrite q v) s (Claim.onlyRecorded 0x0F08 0xFF (Req.code q) (w64 ((reg .PMC_SAMPLE).off % 2 ^ 48)) v s)) ∧
  (∀ (q : Req) (s : State), Claim.completes (.pmcConfigLock q) s (fun s' => pmcLocked s' = true ∧ Claim.onlyRegs [(reg .PMC_CTL).off] s s')) ∧
  (∀ (q : Req) (s : State), Claim.completes (.freezeArm q) s (fun s' =>
      bit (rget s' (reg .EPOCH_FREEZE_CTL)) 0 = true ∧ bit (rget s' (reg .EPOCH_ERR)) 3 = (bit (rget s (reg .EPOCH_ERR)) 3 || decide ((rget s (reg .EPOCH_FREEZE_AT)).toNat < (epoch s).toNat)) ∧
      Claim.onlyRegs [(reg .EPOCH_FREEZE_CTL).off, (reg .EPOCH_ERR).off] s s')) ∧
  (∀ s : State, s.gate.st ≠ .off → bit (rget s (reg .EPOCH_FREEZE_CTL)) 0 = true → (rget s (reg .EPOCH_FREEZE_AT)).toNat ≤ (epoch s).toNat →
    Claim.completes .counterFreeze s (fun s' =>
      rbits s' (reg .EPOCH_FREEZE_CTL) 1 0 = 2 ∧
      Claim.freezes (if (epoch s).toNat ≤ (rget s (reg .EPOCH_FREEZE_AT)).toNat + 11 then rget s (reg .EPOCH_FREEZE_AT) else epoch s) s s')) ∧
  (∀ s : State, s.gate.st = .off ∨ bit (rget s (reg .EPOCH_FREEZE_CTL)) 0 = false ∨ (epoch s).toNat < (rget s (reg .EPOCH_FREEZE_AT)).toNat → exec .counterFreeze s = .next s) ∧
  (∀ (q : Req) (s : State), Claim.completes (.pmcFreezeNow q) s (fun s' =>
      Claim.freezes (epoch s) s s' ∧ Claim.regsKeep [(reg .PMC_FREEZE_SEQ).off, (reg .PMC_FREEZE_EPOCH).off] s s')) ∧
  (∀ (t : Nat) (ok : Bool) (p : Sample) (ps : List Sample) (s : State), Claim.sampleReady s t p ps → sampleCap s ≤ Claim.samplesHeld s →
    Claim.completes (.sampleRecordWrite t ok) s (fun s' =>
      tileOf s' t = { tileOf s t with samples := ps } ∧ rbits s' (reg .PMC_SAMPLE_DROP) 47 0 = (rbits s (reg .PMC_SAMPLE_DROP) 47 0 + 1) % 2 ^ 48 ∧ s'.stk = s.stk ∧
      Claim.regsKeep [(reg .PMC_SAMPLE_DROP).off] s s')) ∧
  (∀ (t a : Nat) (p : Sample) (ps : List Sample) (s : State), Claim.sampleReady s t p ps → Claim.samplesHeld s < sampleCap s → a = Claim.sampleAddr s → stkPresent s a = true →
    stackLost s (physStack (physOf s (backing s false a))) = false →
    Claim.completes (.sampleRecordWrite t true) s (fun s' =>
      tileOf s' t = { tileOf s t with samples := ps } ∧ rbits s' (reg .PMC_SRING_WR) 31 0 = (rbits s (reg .PMC_SRING_WR) 31 0 + 1) % 2 ^ 32 ∧
      (p.bytes.length = 64 → s.stk.flips = [] → placeLost s (physOf s (backing s false a)) = false → rawBytes (stkPeek s' a 64) = p.bytes) ∧ ∀ u, u ≠ t → tileOf s' u = tileOf s u)) ∧
  (∀ (t a : Nat) (ok : Bool) (p : Sample) (ps : List Sample) (s : State), Claim.sampleReady s t p ps → Claim.samplesHeld s < sampleCap s → a = Claim.sampleAddr s →
    ok = false ∨ stkPresent s a = false ∨ stackLost s (physStack (physOf s (backing s false a))) = true →
    Claim.completes (.sampleRecordWrite t ok) s (fun s' =>
      tileOf s' t = { tileOf s t with samples := ps } ∧ rbits s' (reg .PMC_SAMPLE_DROP) 47 0 = (rbits s (reg .PMC_SAMPLE_DROP) 47 0 + 1) % 2 ^ 48 ∧
      Claim.recorded 0x0FFF 0xFF (Req.code .engine) (w64 420) (w64 a) s s' ∧ s'.stk = s.stk ∧ rget s' (reg .PMC_SRING_WR) = rget s (reg .PMC_SRING_WR))) ∧
  (∀ (t : Nat) (ok : Bool) (s : State), (tileOf s t).samples.all (fun p => (tileOf s t).inFlight p.sn) = true → exec (.sampleRecordWrite t ok) s = .next s)

/-! ### Time (R323, R326, R328 to R331, R334) -/

/-- A PPS edge, timed `sub` ns into the present cycle, is measured against the target: its instant and its error are shown (R328). -/
def Sys2Proof.Claim.edgeShown (at_ : Word) (e : Int) (s' : State) : Prop := rget s' (reg .EPOCH_PPS_LAST) = at_ ∧ rbits s' (reg .EPOCH_PPS_ERR) 31 0 = sat32 e

/-- The instant of an edge, its target and their difference: a second that the cox wrote in this cycle is the next edge's (R328). -/
def Sys2Proof.Claim.edge (s : State) (sub : Nat) (at_ target : Word) (e : Int) : Prop :=
  s.gate.st ≠ .off ∧ at_ = epoch s + w64 (sub % 10) ∧ target = s.ep.target.getD (rget s (reg .EPOCH_NEXT_SEC)) ∧ e = (at_ - target).toInt

/-- The registers that an edge may move (R328). -/
def Sys2Proof.Claim.edgeRegs : List Nat := [(reg .EPOCH_PPS_LAST).off, (reg .EPOCH_PPS_ERR).off, (reg .EPOCH_NEXT_SEC).off, (reg .EPOCH_RATE).off, (reg .EPOCH_STAT).off]

/-- An edge was accepted: its error is to be worked off, the next second is the target unless the cox wrote it already, the counter itself goes on (R328). -/
def Sys2Proof.Claim.edgeTaken (at_ target : Word) (e : Int) (s s' : State) : Prop :=
  Claim.edgeShown at_ e s' ∧ rget s' (reg .EPOCH_NEXT_SEC) = (if s.ep.target.isSome then rget s (reg .EPOCH_NEXT_SEC) else target + 1000000000#64) ∧
  s'.ep.phase = e * 100000000 ∧ s'.ep.outl = [] ∧ epoch s' = epoch s ∧ s' = { s with regs := s'.regs, ep := s'.ep, fresh := s'.fresh } ∧ Claim.regsKeep Claim.edgeRegs s s'

/-- The epoch counter: an edge within 5 ns of a locked counter is accepted and the lock holds, one within 1 µs is accepted and the lock is acquired again; an outlier is counted, not followed, until three in a row agree; a counter that is
not locked takes any edge, one more than 1 ms off by a step, and four good edges lock it; host-assisted mode only measures, and the host sets the counter; without edges the counter holds over.
PLL locks are shown and their losses recorded. -/
def Obligations.TimeIsKept : Prop :=
  (∀ (sub : Nat) (at_ target : Word) (e : Int) (s : State), Claim.edge s sub at_ target e → assist s 13 = true →
    Claim.completes (.ppsEdge sub) s (fun s' => Claim.edgeShown at_ e s' ∧ Claim.onlyRegs [(reg .EPOCH_PPS_LAST).off, (reg .EPOCH_PPS_ERR).off] s s')) ∧
  (∀ (sub : Nat) (at_ target : Word) (e : Int) (s : State), Claim.edge s sub at_ target e → assist s 13 = false → epochState s = 2 → e.natAbs ≤ 5 →
    Claim.completes (.ppsEdge sub) s (fun s' => epochState s' = 2 ∧ Claim.edgeTaken at_ target e s s')) ∧
  (∀ (sub : Nat) (at_ target : Word) (e : Int) (s : State), Claim.edge s sub at_ target e → assist s 13 = false → epochState s = 2 → 5 < e.natAbs → e.natAbs ≤ 1000 →
    Claim.completes (.ppsEdge sub) s (fun s' => epochState s' = 1 ∧ s'.ep.good = 0 ∧ Claim.edgeTaken at_ target e s s')) ∧
  (∀ (sub : Nat) (at_ target : Word) (e : Int) (s : State), Claim.edge s sub at_ target e → assist s 13 = false → (epochState s = 1 ∨ epochState s = 3) → e.natAbs ≤ 1000000 →
    Claim.completes (.ppsEdge sub) s (fun s' =>
      s'.ep.good = (if e.natAbs ≤ 5 then s.ep.good + 1 else 0) ∧ epochState s' = (if 4 ≤ s'.ep.good then 2 else 1) ∧ Claim.edgeTaken at_ target e s s')) ∧
  (∀ (sub : Nat) (at_ target : Word) (e : Int) (s : State), Claim.edge s sub at_ target e → assist s 13 = false → epochState s = 0 → e.natAbs ≤ 1000000 →
    Claim.completes (.ppsEdge sub) s (fun s' =>
      epochState s' = 1 ∧ s'.ep.good = (if e.natAbs ≤ 5 then 1 else 0) ∧ rget s' (reg .EPOCH_RATE) = rget s (reg .EPOCH_RATE) ∧ Claim.edgeTaken at_ target e s s')) ∧
  (∀ (sub : Nat) (at_ target : Word) (e : Int) (s : State), Claim.edge s sub at_ target e → assist s 13 = false → epochState s ≠ 2 → 1000000 < e.natAbs →
    Claim.completes (.ppsEdge sub) s (fun s' =>
      epoch s' = epoch s + (target - at_) ∧ rbits s' (reg .EPOCH_STEPS) 47 0 = (rbits s (reg .EPOCH_STEPS) 47 0 + 1) % 2 ^ 48 ∧ bit (rget s' (reg .EPOCH_ERR)) 1 = true ∧ epochState s' = 1 ∧
      s'.ep.good = 0 ∧ s'.ep.phase = 0 ∧ rget s' (reg .EPOCH_NEXT_SEC) = (if s.ep.target.isSome then rget s (reg .EPOCH_NEXT_SEC) else target + 1000000000#64) ∧ s'.tiles = s.tiles ∧ s'.stk = s.stk)) ∧
  (∀ (sub : Nat) (at_ target : Word) (e : Int) (s : State), Claim.edge s sub at_ target e → assist s 13 = false → epochState s = 2 → 1000 < e.natAbs → s.ep.outl.length < 2 →
    Claim.completes (.ppsEdge sub) s (fun s' =>
      rbits s' (reg .EPOCH_OUTLIERS) 47 0 = (rbits s (reg .EPOCH_OUTLIERS) 47 0 + 1) % 2 ^ 48 ∧ bit (rget s' (reg .EPOCH_ERR)) 2 = true ∧ s'.ep = { s.ep with outl := s.ep.outl ++ [e] } ∧ epoch s' = epoch s ∧
      epochState s' = 2 ∧ rget s' (reg .EPOCH_NEXT_SEC) = rget s (reg .EPOCH_NEXT_SEC) ∧ Claim.recorded 0x0B01 0xFF 0 (w64 3) (w64 (ofSigned 64 e)) s s')) ∧
  (∀ (sub : Nat) (at_ target : Word) (a b e : Int) (s : State), Claim.edge s sub at_ target e → assist s 13 = false → epochState s = 2 → 1000 < e.natAbs → e.natAbs ≤ 1000000 → s.ep.outl = [a, b] →
    (a - b).natAbs ≤ 1000 → (a - e).natAbs ≤ 1000 → (b - e).natAbs ≤ 1000 →
    Claim.completes (.ppsEdge sub) s (fun s' =>
      rbits s' (reg .EPOCH_OUTLIERS) 47 0 = (rbits s (reg .EPOCH_OUTLIERS) 47 0 + 1) % 2 ^ 48 ∧ epochState s' = 1 ∧ s'.ep.outl = [] ∧ s'.ep.phase = e * 100000000 ∧ epoch s' = epoch s)) ∧
  (∀ s : State, s.gate.st ≠ .off → assist s 13 = false → (epochState s = 1 ∨ epochState s = 2) →
    Claim.completes .holdoverEntry s (fun s' =>
      epochState s' = 3 ∧ bit (rget s' (reg .EPOCH_ERR)) 0 = true ∧ epoch s' = epoch s ∧ s'.ep.phase = 0 ∧
      Claim.recorded 0x0B01 0xFF 0 (w64 1) (w64 (ofSigned 64 (toSigned 32 (rbits s (reg .EPOCH_PPS_ERR) 31 0)))) s s' ∧ s'.tiles = s.tiles)) ∧
  (∀ s : State, s.gate.st = .off ∨ assist s 13 = true ∨ epochState s = 0 ∨ epochState s = 3 → exec .holdoverEntry s = .next s) ∧
  (∀ (sub : Nat) (s : State), s.gate.st = .off → exec (.ppsEdge sub) s = .next s) ∧
  (∀ (q : Req) (v : Word) (s : State), assist s 13 = true →
    Claim.completes (.epochSet q v) s (fun s' =>
      epoch s' = v ∧ rbits s' (reg .EPOCH_STEPS) 47 0 = (rbits s (reg .EPOCH_STEPS) 47 0 + 1) % 2 ^ 48 ∧ bit (rget s' (reg .EPOCH_ERR)) 1 = true ∧ s'.ep.phase = 0 ∧
      Claim.recorded 0x0B01 0xFF 0 (w64 2) (w64 (ofSigned 64 (epoch s - v).toInt)) (rset (reg .EPOCH_NOW) v s) s' ∧ s'.tiles = s.tiles ∧ s'.stk = s.stk)) ∧
  (∀ (q : Req) (v : Word) (s : State), assist s 13 = false → Claim.completes (.epochSet q v) s (Claim.onlyRecorded 0x0F08 0xFF (Req.code q) (w64 ((reg .EPOCH_SET).off % 2 ^ 48)) v s)) ∧
  (∀ (p : Nat) (s : State), p < 26 → s.gate.st ≠ .off → Claim.completes (.pllLock p) s (fun s' =>
      rget s' (reg .CLK_LOCK) = setBit (rget s (reg .CLK_LOCK)) p true ∧ Claim.onlyRegs [(reg .CLK_LOCK).off] s s')) ∧
  (∀ (p : Nat) (s : State), p < 26 → bit (rget s (reg .CLK_LOCK)) p = true → Claim.completes (.pllUnlock p) s (fun s' =>
      rget s' (reg .CLK_LOCK) = setBit (rget s (reg .CLK_LOCK)) p false ∧ bit (rget s' (reg .CLK_UNLOCK)) p = true ∧ Claim.recorded 0x0A01 (pllDie p) 0 (w64 5) (w64 p) s s' ∧
      Claim.regsKeep ((reg .CLK_LOCK).off :: (reg .CLK_UNLOCK).off :: Claim.eventRegs) s s')) ∧
  (∀ (p : Nat) (s : State), 26 ≤ p ∨ s.gate.st = .off → exec (.pllLock p) s = .next s) ∧
  (∀ (p : Nat) (s : State), 26 ≤ p ∨ bit (rget s (reg .CLK_LOCK)) p = false → exec (.pllUnlock p) s = .next s)

/-! ### The rating governor (R338 to R354, R363) -/

/-- The registers in which the governor shows what it chose (R343, R356, R357). -/
def Sys2Proof.Claim.clockRegs : List Nat := (List.range 4).flatMap (fun d => [(reg .CLK_DIE_F d).off, (reg .CLK_DIE_V d).off]) ++ [(reg .GOV_STATE).off, (reg .GOV_ERR).off]

/-- A die follows the choice made at m: its target clock and duty are those chosen, its voltage target covers the faster of the clock that runs and the target, and a voltage that moves is not settled (R339, R340, R343, R345). -/
def Sys2Proof.Claim.dieFollows (m s' : State) (d : Nat) : Prop :=
  dieTarget s' d = (chosenClock m d).1 ∧ rbits s' (reg .CLK_DIE_F d) 27 24 = chosenDuty m d ∧ dieClock s' d = dieClock m d ∧ dieV s' d = dieV m d ∧
  dieVt s' d = (if dieClock m d < (chosenClock m d).1 then dieVolt d (chosenClock m d).1 else min (dieVt m d) (dieVolt d (dieClock m d))) ∧
  dieG s' d = { dieG m d with planned := predict m d (chosenClock m d).1, settled := (dieG m d).settled && dieVt s' d == dieVt m d }

/-- Every die that stands follows the choice made at m, and GOV_STATE shows the lowest cause of the slowest target (R343). -/
def Sys2Proof.Claim.clocksFollow (m s' : State) : Prop :=
  (∀ d, d < 4 → dieGone m d = false → Claim.dieFollows m s' d) ∧ (∀ d, d < 4 → dieGone m d = true → dieG s' d = dieG m d) ∧ bit (rget s' (reg .GOV_STATE)) 4 = m.gov.shed ∧
  ∀ d, d < 4 → dieGone m d = false → (∀ e, e < 4 → dieGone m e = false → (chosenClock m d).1 ≤ (chosenClock m e).1 ∧
    ((chosenClock m e).1 = (chosenClock m d).1 → (chosenClock m d).2 ≤ (chosenClock m e).2)) → rbits s' (reg .GOV_STATE) 3 0 = (chosenClock m d).2

/-- The governor chooses anew at m and nothing else moves (R343). -/
def Sys2Proof.Claim.retargets (m s' : State) : Prop :=
  Claim.clocksFollow m s' ∧ Claim.regsKeep Claim.clockRegs m s' ∧
  s' = { m with regs := s'.regs, fresh := s'.fresh, gov := { m.gov with dies := s'.gov.dies, changedAt := s'.gov.changedAt, lowered := s'.gov.lowered } }

/-- A die that the governor works for: it exists, stands and has power (R335, R408). -/
def Sys2Proof.Claim.dieUp (s : State) (d : Nat) : Prop := d < 4 ∧ dieGone s d = false ∧ s.gate.st ≠ .off

/-- Package power of a sample: the rest and every standing die's calibrated estimate (R341). -/
def Sys2Proof.Claim.packagePower (s : State) (dies : List Nat) (stackW linkW ctrlW : Nat) : Nat :=
  stackW + linkW + ctrlW + sumNat (((List.range 4).filter (fun d => !dieGone s d)).map (fun d => calibrated (dieG s d) (nth 0 dies d)))

/-- Power and voltage: averages above a ceiling clamp the package, which the cox leaves 5 % below; a breach stops it; a clock moves at most 100 MHz at a time, falling before its voltage and rising after; a shed
request holds the shed clocks and duties (R338, R340, R341, R344 to R346, R363). -/
def Sys2Proof.Claim.PowerIsLimited : Prop :=
  (∀ (dies : List Nat) (stackW linkW ctrlW a avg2 avg100 : Nat) (ws : List Nat) (above fell : Bool) (s : State), s.gate.st ≠ .off → a = Claim.packagePower s dies stackW linkW ctrlW →
    ws = (a :: s.gov.samples).take 10000 → avg2 = sumNat (ws.take 200) / min 200 ws.length → avg100 = sumNat ws / ws.length →
    above = (decide (rbits s (reg .GATE_PWR_CEIL) 27 16 < avg2) || decide (rbits s (reg .GATE_PWR_CEIL) 11 0 < avg100)) →
    fell = (!s.gov.lowered && decide (rbits s (reg .GOV_CTL) 23 12 < (s.gov.samples.headD a - a) * 100)) →
    Claim.completes (.powerSample dies stackW linkW ctrlW) s (fun s' =>
      rbits s' (reg .GOV_PWR) 15 0 = a % 65536 ∧ rbits s' (reg .GOV_PWR) 31 16 = avg2 % 65536 ∧ rbits s' (reg .GOV_PWR) 47 32 = avg100 % 65536 ∧ s'.gov.samples = ws ∧
      s'.gov.clamp = (s.gov.clamp || above) ∧ rbits s' (reg .GATE_PWR_CLAMPS) 47 0 = (rbits s (reg .GATE_PWR_CLAMPS) 47 0 + (if above && !s.gov.clamp then 1 else 0)) % 2 ^ 48 ∧
      rbits s' (reg .GOV_RAMP_EXCEED) 47 0 = (rbits s (reg .GOV_RAMP_EXCEED) 47 0 + b2n fell) % 2 ^ 48 ∧ bit (rget s' (reg .GOV_ERR)) 0 = (bit (rget s (reg .GOV_ERR)) 0 || fell) ∧
      (fell = true → (above && !s.gov.clamp) = false → Claim.recorded 0x0A01 0xFF 0 (w64 2) (w64 0xFF) s s') ∧
      (fell = false → (above && !s.gov.clamp) = true → Claim.recorded 0x0202 0xFF 0 (w64 (avg2 % 65536 + (avg100 % 65536) * 2 ^ 16)) 0#64 s s') ∧
      (∀ d, d < 4 → dieGone s d = false → (dieG s' d).est = nth 0 dies d) ∧ s'.gov.slotSum = s.gov.slotSum + a ∧ s'.gov.slotNo = s.gov.slotNo + 1 ∧ s'.gate = s.gate ∧ s'.tiles = s.tiles ∧ s'.stk = s.stk)) ∧
  (∀ s : State, s.gov.clamp = true → rbits s (reg .GOV_PWR) 31 16 * 100 ≤ rbits s (reg .GATE_PWR_CEIL) 27 16 * 95 → rbits s (reg .GOV_PWR) 47 32 * 100 ≤ rbits s (reg .GATE_PWR_CEIL) 11 0 * 95 →
    Claim.completes .clampEnd s (Claim.retargets { s with gov := { s.gov with clamp := false } })) ∧
  (∀ s : State, s.gov.clamp = false ∨ rbits s (reg .GATE_PWR_CEIL) 27 16 * 95 < rbits s (reg .GOV_PWR) 31 16 * 100 ∨ rbits s (reg .GATE_PWR_CEIL) 11 0 * 95 < rbits s (reg .GOV_PWR) 47 32 * 100 →
    exec .clampEnd s = .next s) ∧
  (∀ s : State, s.gov.clamp = true → rbits s (reg .GATE_PWR_CEIL) 11 0 < rbits s (reg .GOV_PWR) 47 32 → s.gate.st = .underway →
    Claim.completes .ceilingBreach s (fun s' => s'.gate = { s.gate with st := .hold, cause := 5, frozen := true } ∧ outputsOn s' = false ∧ s'.tiles = s.tiles ∧ s'.stk = s.stk)) ∧
  (∀ s : State, s.gov.clamp = false ∨ rbits s (reg .GOV_PWR) 47 32 ≤ rbits s (reg .GATE_PWR_CEIL) 11 0 ∨ s.gate.st = .moored ∨ s.gate.st = .hold → exec .ceilingBreach s = .next s) ∧
  (∀ (amps : List Nat) (s : State), s.gate.st ≠ .off →
    Claim.completes (.avsCurrentRead amps) s (fun s' =>
      (∀ d, d < 4 → dieG s' d = (if dieGone s d then dieG s d else { dieG s d with amps := nth 0 amps d, gain := some (nth 0 amps d * dieV s d / 1000, (dieG s d).est) })) ∧
      s' = { s with gov := { s.gov with dies := s'.gov.dies } })) ∧
  (∀ (d mv : Nat) (b : Bool) (s : State), Claim.dieUp s d → b = true ∨ mv + 10 < dieVt s d ∨ dieVt s d + 10 < mv →
    Claim.completes (.voltageSettled d mv b) s (fun s' =>
      bit (rget s' (reg .GOV_ERR)) 3 = true ∧ dieG s' d = { dieG s d with avsFault := true } ∧ (∀ e, e ≠ d → dieG s' e = dieG s e) ∧ Claim.recorded 0x0A01 d 0 (w64 3) (w64 d) s s' ∧
      Claim.regsKeep ((reg .GOV_ERR).off :: Claim.eventRegs) s s')) ∧
  (∀ (d mv : Nat) (s : State), Claim.dieUp s d → mv ≤ dieVt s d + 10 → dieVt s d ≤ mv + 10 → mv < 1024 →
    Claim.completes (.voltageSettled d mv false) s (fun s' =>
      dieV s' d = mv ∧ dieG s' d = { dieG s d with avsFault := false, settled := true } ∧ (∀ e, e ≠ d → dieG s' e = dieG s e) ∧ Claim.regsKeep [(reg .CLK_DIE_V d).off] s s')) ∧
  (∀ (d : Nat) (s : State), Claim.dieUp s d → (dieG s d).stretch = false → dieTarget s d < dieClock s d →
    Claim.completes (.frequencyStep d) s (fun s' =>
      dieClock s' d = max (dieTarget s d) (dieClock s d - 100) ∧ dieTarget s' d = dieTarget s d ∧
      dieVt s' d = (if dieClock s d ≤ dieTarget s d + 100 then dieVolt d (dieTarget s d) else dieVt s d) ∧
      dieG s' d = { dieG s d with settled := (dieG s d).settled && dieVt s' d == dieVt s d } ∧ s'.gov.lowered = true ∧
      Claim.regsKeep [(reg .CLK_DIE_F d).off, (reg .CLK_DIE_V d).off] s s' ∧ s' = { s with regs := s'.regs, gov := s'.gov })) ∧
  (∀ (d : Nat) (s : State), Claim.dieUp s d → (dieG s d).stretch = false → dieClock s d < dieTarget s d → mayRaise s d = true →
    Claim.completes (.frequencyStep d) s (fun s' =>
      dieClock s' d = min (dieTarget s d) (dieClock s d + 100) ∧ dieTarget s' d = dieTarget s d ∧ Claim.onlyRegs [(reg .CLK_DIE_F d).off] s s')) ∧
  (∀ (d : Nat) (s : State), 4 ≤ d ∨ dieGone s d = true ∨ (dieG s d).stretch = true ∨ dieClock s d = dieTarget s d ∨ (dieClock s d < dieTarget s d ∧ mayRaise s d = false) →
    exec (.frequencyStep d) s = .next s) ∧
  (∀ s : State, s.gate.st ≠ .off →
    Claim.completes .shedReqN s (fun s' =>
      Claim.clocksFollow { s with gov := { s.gov with shed := true, budget := budgetOf s } } s' ∧
      s'.gov = { s.gov with shed := true, budget := budgetOf s, dies := s'.gov.dies, changedAt := s'.gov.changedAt, lowered := s'.gov.lowered } ∧
      rbits s' (reg .GOV_SHED_EVENTS) 47 0 = (rbits s (reg .GOV_SHED_EVENTS) 47 0 + 1) % 2 ^ 48 ∧ Claim.recorded 0x0A01 0xFF 0 (w64 1) (w64 0xFF) s s' ∧
      Claim.regsKeep ((reg .GOV_SHED_EVENTS).off :: (Claim.clockRegs ++ Claim.eventRegs)) s s' ∧ s'.gate = s.gate ∧ s'.tiles = s.tiles)) ∧
  (∀ (acts : List Nat) (temps : List Int) (s : State), s.gate.st ≠ .off →
    Claim.completes (.shedClockUpdate acts temps) s (fun s' =>
      (∀ d, d < 4 → dieGone s d = false →
        dieG s' d = { dieG s d with shedClk := shedClock s d (nth 0 acts d) (nth 0 temps d), shedDuty := shedDutyOf s d (nth 0 acts d) (nth 0 temps d), planned := (dieG s' d).planned, settled := (dieG s' d).settled } ∧
        (s.gate.trip = false → (s.gov.shed || s.gov.clamp) = true → rbits s' (reg .CLK_DIE_F d) 27 24 = min (shedDutyOf s d (nth 0 acts d) (nth 0 temps d)) (budgetDuty s d))) ∧
      Claim.regsKeep Claim.clockRegs s s' ∧
      s' = { s with regs := s'.regs, fresh := s'.fresh, gov := { s.gov with dies := s'.gov.dies, changedAt := s'.gov.changedAt, lowered := s'.gov.lowered } })) ∧
  (∀ s : State, s.gov.shed = true → Claim.completes .shedEnd s (Claim.retargets { s with gov := { s.gov with shed := false } })) ∧
  (∀ s : State, s.gov.shed = false → exec .shedEnd s = .next s) ∧
  (∀ (watts : Nat) (s : State), mgmtReady s = true → (watts = 0 ∨ 400 ≤ watts ∧ watts ≤ 1500) →
    Claim.completes (.facilityBudgetWrite watts) s (fun s' =>
      rbits s' (reg .GOV_BUDGET) 11 0 = watts ∧ Claim.clocksFollow (rsetBits (reg .GOV_BUDGET) 11 0 watts s) s' ∧ s'.ports = { s.ports with reply := [0#8] } ∧
      Claim.regsKeep ((reg .GOV_BUDGET).off :: Claim.clockRegs) s s' ∧ s'.gate = s.gate ∧ s'.tiles = s.tiles)) ∧
  (∀ (watts : Nat) (s : State), mgmtReady s = true → watts ≠ 0 → (watts < 400 ∨ 1500 < watts) →
    Claim.completes (.facilityBudgetWrite watts) s (fun s' => s' = { s with ports := { s.ports with reply := [2#8] } })) ∧
  (∀ (d mv n : Nat) (dies amps : List Nat) (temps : List Int) (b : Bool) (c : Instr) (s : State), s.gate.st = .off →
    (c = .powerSample dies n d mv ∨ c = .avsCurrentRead amps ∨ c = .voltageSettled d mv b ∨ c = .frequencyStep d ∨ c = .shedReqN ∨ c = .shedClockUpdate amps temps ∨ c = .facilityBudgetWrite n ∨ c = .forecastPublish d n) →
    exec c s = .next s)

/-- The energy of an interval: that of the ten samples in it (R341, R348). -/
def Sys2Proof.Claim.intervalEnergy (s : State) : Nat := 10 * sumNat (s.gov.samples.take 10)

/-- More than a quarter of a die's cycles since the last interval were stretched (R354). -/
def Sys2Proof.Claim.tooStretched (s : State) (d : Nat) : Bool :=
  decide ((SMap.get 0 s.ep.cyc d + 2 ^ 64 - (dieG s d).cycMark) % 2 ^ 64 < (rbits s (reg .CLK_STRETCH_CNT d) 47 0 + 2 ^ 48 - (dieG s d).stretchMark) % 2 ^ 48 * 4)

/-- An interval of 100 µs whose dominant tag is k comes on a die that the governor works for (R348). -/
def Sys2Proof.Claim.interval (s : State) (d k : Nat) (tiles : List Nat) (notes0 notes1 colls : Nat) : Prop :=
  d < 4 ∧ dieGone s d = false ∧ governing s = true ∧ k = dominantTag tiles (notes0 + notes1) colls

/-- What an occurrence of one tag on one die taught (R348). -/
def Sys2Proof.Claim.LearningRule : Prop :=
  (∀ (s : State) (d k f dur e : Nat), SMap.get (0, 0, 0) (learnOcc s d k f dur e).recs f = ((SMap.get (0, 0, 0) (learnOf s d k).recs f).1 + 1, dur, e) ∨ learnOcc s d k f dur e = {}) ∧
  (∀ (s : State) (d k f dur e : Nat) (l : Learn), l = learnOf s d k → l.trying = true → f + 100 = l.node → dur * 1000 ≤ (SMap.get (0, 0, 0) l.recs l.node).2.1 * (1000 + rbits s (reg .GOV_CTL) 39 32) →
    e < (SMap.get (0, 0, 0) l.recs l.node).2.2 → (learnOcc s d k f dur e).node = f ∧ (learnOcc s d k f dur e).trying = false ∧ (learnOcc s d k f dur e).final = l.final) ∧
  (∀ (s : State) (d k f dur e : Nat) (l : Learn), l = learnOf s d k → l.trying = true → f + 100 = l.node →
    ((SMap.get (0, 0, 0) l.recs l.node).2.1 * (1000 + rbits s (reg .GOV_CTL) 39 32) < dur * 1000 ∨ (SMap.get (0, 0, 0) l.recs l.node).2.2 ≤ e) →
    (learnOcc s d k f dur e).node = l.node ∧ (learnOcc s d k f dur e).trying = false ∧ (learnOcc s d k f dur e).final = true) ∧
  (∀ (s : State) (d k dur e : Nat) (l : Learn), l = learnOf s d k → 0 < (SMap.get (0, 0, 0) l.recs l.node).1 →
    (SMap.get (0, 0, 0) l.recs l.node).2.1 * (1000 + rbits s (reg .GOV_CTL) 39 32) < dur * 1000 → learnOcc s d k l.node dur e = {}) ∧
  (∀ (s : State) (d k dur e : Nat) (l : Learn), l = learnOf s d k → (SMap.get (0, 0, 0) l.recs l.node).1 = 2 → l.final = false → 600 < l.node →
    dur * 1000 ≤ (SMap.get (0, 0, 0) l.recs l.node).2.1 * (1000 + rbits s (reg .GOV_CTL) 39 32) → (learnOcc s d k l.node dur e).trying = true)

/-- Tags, heat, forecast and stretch (R343, R347 to R351, R353, R354). -/
def Sys2Proof.Claim.HeatTagsAndStretch : Prop :=
  (∀ (d k notes0 notes1 colls : Nat) (tiles : List Nat) (s : State), Claim.interval s d k tiles notes0 notes1 colls → k = (dieG s d).tag →
    Claim.completes (.tagInterval d tiles notes0 notes1 colls) s (fun s' =>
      (dieG s' d).dom = k ∧ (dieG s' d).tag = k ∧ (dieG s' d).occ = (dieG s d).occ + (dieG s d).candOcc + 100 ∧ (dieG s' d).occE = (dieG s d).occE + (dieG s d).candE + Claim.intervalEnergy s ∧
      (dieG s' d).candOcc = 0 ∧ (dieG s' d).occClk = (if (dieG s d).occClk = 0 then dieClock s d else (dieG s d).occClk) ∧
      (dieG s' d).mixed = ((dieG s d).mixed || ((dieG s d).occClk != 0 && (dieG s d).occClk != dieClock s d)) ∧ s'.gov.learn = s.gov.learn ∧ s'.tiles = s.tiles ∧ s'.stk = s.stk)) ∧
  (∀ (d k notes0 notes1 colls : Nat) (tiles : List Nat) (s : State), Claim.interval s d k tiles notes0 notes1 colls → k ≠ (dieG s d).tag → (k ≠ (dieG s d).cand ∨ (dieG s d).candOcc = 0) →
    Claim.completes (.tagInterval d tiles notes0 notes1 colls) s (fun s' =>
      (dieG s' d).dom = k ∧ (dieG s' d).tag = (dieG s d).tag ∧ (dieG s' d).occ = (dieG s d).occ + (dieG s d).candOcc ∧ (dieG s' d).occE = (dieG s d).occE + (dieG s d).candE ∧
      (dieG s' d).cand = k ∧ (dieG s' d).candOcc = 100 ∧ (dieG s' d).candE = Claim.intervalEnergy s ∧ s'.gov.learn = s.gov.learn ∧ s'.tiles = s.tiles ∧ s'.stk = s.stk)) ∧
  (∀ (d k notes0 notes1 colls : Nat) (tiles : List Nat) (s : State), Claim.interval s d k tiles notes0 notes1 colls → k ≠ (dieG s d).tag → k = (dieG s d).cand → 0 < (dieG s d).candOcc → (dieG s d).candOcc < 900 →
    Claim.completes (.tagInterval d tiles notes0 notes1 colls) s (fun s' =>
      (dieG s' d).dom = k ∧ (dieG s' d).tag = (dieG s d).tag ∧ (dieG s' d).candOcc = (dieG s d).candOcc + 100 ∧ (dieG s' d).candE = (dieG s d).candE + Claim.intervalEnergy s ∧
      (dieG s' d).occ = (dieG s d).occ ∧ s'.gov.learn = s.gov.learn ∧ s'.tiles = s.tiles ∧ s'.stk = s.stk)) ∧
  (∀ (d k j notes0 notes1 colls : Nat) (tiles : List Nat) (s : State), Claim.interval s d k tiles notes0 notes1 colls → j = (dieG s d).tag → j < 16 → k ≠ j → k = (dieG s d).cand → 900 ≤ (dieG s d).candOcc → 0 < (dieG s d).occ →
    rbits s (reg .GOV_TAG_FIX j) 10 0 = 0 → (dieG s d).mixed = false → (dieG s d).occClk ≠ 0 →
    Claim.completes (.tagInterval d tiles notes0 notes1 colls) s (fun s' =>
      (dieG s' d).dom = k ∧ (dieG s' d).tag = k ∧ (dieG s' d).occ = (dieG s d).candOcc + 100 ∧ (dieG s' d).occE = (dieG s d).candE + Claim.intervalEnergy s ∧ (dieG s' d).candOcc = 0 ∧
      (dieG s' d).occClk = dieClock s d ∧ (dieG s' d).past = ((j, (dieG s d).occ, (dieG s d).occE) :: (dieG s d).past).take 96 ∧
      learnOf s' d j = learnOcc s d j (dieG s d).occClk (dieG s d).occ (dieG s d).occE ∧ rbits s' (reg .GOV_TAG j) 31 16 = (dieG s d).occE / (dieG s d).occ % 65536 ∧ s'.tiles = s.tiles)) ∧
  (∀ (d k notes0 notes1 colls : Nat) (tiles : List Nat) (s : State), Claim.interval s d k tiles notes0 notes1 colls → Claim.tooStretched s d = true →
    Claim.completes (.tagInterval d tiles notes0 notes1 colls) s (fun s' =>
      (dieG s' d).sustained = true ∧ (dieG s' d).capStretch = nodeBelow (min (dieG s d).capStretch (dieClock s d)) ∧
      (k = (dieG s d).tag → Claim.recorded 0x0A01 d 0 (w64 4) (w64 d) s s'))) ∧
  (∀ (d k notes0 notes1 colls : Nat) (tiles : List Nat) (s : State), Claim.interval s d k tiles notes0 notes1 colls → Claim.tooStretched s d = false →
    Claim.completes (.tagInterval d tiles notes0 notes1 colls) s (fun s' => (dieG s' d).sustained = false ∧ (dieG s' d).capStretch = nodeAbove (dieG s d).capStretch ∧ (k = (dieG s d).tag → s'.rec_ = s.rec_))) ∧
  (∀ (d : Nat) (hot : Int) (temps : List Int) (s : State), d < 4 → dieGone s d = false → temps ≠ [] → hot = temps.foldl max (-273) → 9 ≤ (dieG s d).thermFor → (rbits s (reg .GOV_TJ) 7 0 : Nat) < hot →
    Claim.completes (.junctionSample d temps) s (Claim.retargets (setDie d
      { dieG s d with hottest := hot, capTherm := nodeBelow (min (dieG s d).capTherm (dieClock s d)), thermFor := 0 } s))) ∧
  (∀ (d : Nat) (hot : Int) (temps : List Int) (s : State), d < 4 → dieGone s d = false → temps ≠ [] → hot = temps.foldl max (-273) → 9 ≤ (dieG s d).thermFor → hot ≤ (rbits s (reg .GOV_TJ) 7 0 : Nat) →
    Claim.completes (.junctionSample d temps) s (Claim.retargets (setDie d { dieG s d with hottest := hot, capTherm := nodeAbove (dieG s d).capTherm, thermFor := 0 } s))) ∧
  (∀ (d : Nat) (hot : Int) (temps : List Int) (s : State), d < 4 → dieGone s d = false → temps ≠ [] → hot = temps.foldl max (-273) → (dieG s d).thermFor < 9 →
    (decide ((rbits s (reg .GOV_TJ) 7 0 : Nat) < hot) = decide ((rbits s (reg .GOV_TJ) 7 0 : Nat) < (dieG s d).hottest)) →
    Claim.completes (.junctionSample d temps) s (Claim.retargets (setDie d { dieG s d with hottest := hot, thermFor := (dieG s d).thermFor + 1 } s))) ∧
  (∀ (d : Nat) (hot : Int) (temps : List Int) (s : State), d < 4 → dieGone s d = false → temps ≠ [] → hot = temps.foldl max (-273) → (dieG s d).thermFor < 9 →
    (decide ((rbits s (reg .GOV_TJ) 7 0 : Nat) < hot) ≠ decide ((rbits s (reg .GOV_TJ) 7 0 : Nat) < (dieG s d).hottest)) →
    Claim.completes (.junctionSample d temps) s (Claim.retargets (setDie d { dieG s d with hottest := hot, thermFor := 0 } s))) ∧
  (∀ (d : Nat) (s : State), d < 4 → dieGone s d = false →
    (2 ≤ rbits s (reg .STK_TEMP (2 * d)) 9 8 ∧ 100000 ≤ SMap.get 0 s.stk.hot (2 * d) ∨ 2 ≤ rbits s (reg .STK_TEMP (2 * d + 1)) 9 8 ∧ 100000 ≤ SMap.get 0 s.stk.hot (2 * d + 1)) →
    Claim.completes (.stackHeatThrottle d) s (Claim.retargets (setDie d { dieG s d with capHeat := max 800 (nodeBelow (min (dieG s d).capHeat (dieClock s d))) } s))) ∧
  (∀ (d : Nat) (s : State), d < 4 → dieGone s d = false → rbits s (reg .STK_TEMP (2 * d)) 9 8 < 2 → rbits s (reg .STK_TEMP (2 * d + 1)) 9 8 < 2 →
    Claim.completes (.stackHeatThrottle d) s (Claim.retargets (setDie d { dieG s d with capHeat := nodeAbove (dieG s d).capHeat } s))) ∧
  (∀ (d pick : Nat) (s : State), s.gate.st ≠ .off →
    Claim.completes (.forecastPublish d pick) s (fun s' =>
      rget s' (reg .GOV_FCAST_EPOCH) = epoch s ∧ (∀ k, k < 100 → rget s' (reg .GOV_FCAST k) = w64 (nth 0 (forecast d pick s) k)) ∧
      s'.gov = { s.gov with fcast := (((epoch s).toNat, forecast d pick s) :: s.gov.fcast).take 12, slotSum := 0, slotNo := 0 } ∧
      bit (rget s' (reg .GOV_ERR)) 2 = (bit (rget s (reg .GOV_ERR)) 2 || (match boundAt s ((epoch s).toNat - 1) with | some b => decide (s.gov.slotNo ≠ 0 ∧ b * s.gov.slotNo < s.gov.slotSum) | none => false)) ∧
      s' = { s with regs := s'.regs, gov := s'.gov })) ∧
  (∀ (d pick k : Nat) (s : State), k < 100 → nth 0 (forecast d pick s) k ≤ (if budgetOf s = 0 then rbits s (reg .GATE_PWR_CEIL) 11 0 else min (budgetOf s) (rbits s (reg .GATE_PWR_CEIL) 11 0))) ∧
  (∀ (d r uv : Nat) (s : State), d = r / 26 → r < 104 → dieGone s d = false → s.gate.st ≠ .off → uv * 200 < dieVt s d * 1000 * (200 - rbits s (reg .CLK_DROOP_THR d) 4 0) →
    Claim.completes (.catchStretch { region := r, uv := uv }) s (fun s' =>
      dieG s' d = { dieG s d with stretch := true, holding := false } ∧ rbits s' (reg .CLK_STRETCH_EVT d) 47 0 = (rbits s (reg .CLK_STRETCH_EVT d) 47 0 + 1) % 2 ^ 48 ∧
      bit (rget s' (reg .CLK_DROOP_REGION d)) (r - d * 26) = true ∧ s' = { s with regs := s'.regs, gov := { s.gov with dies := s'.gov.dies } } ∧
      Claim.regsKeep [(reg .CLK_STRETCH_EVT d).off, (reg .CLK_DROOP_REGION d).off] s s')) ∧
  (∀ (r uv : Nat) (s : State), 104 ≤ r ∨ dieGone s (r / 26) = true ∨ s.gate.st = .off ∨ dieVt s (r / 26) * 1000 * (200 - rbits s (reg .CLK_DROOP_THR (r / 26)) 4 0) ≤ uv * 200 →
    exec (.catchStretch { region := r, uv := uv }) s = .next s) ∧
  (∀ (d : Nat) (uvs : List Nat) (s : State), d < 4 → (dieG s d).stretch = true → (dieG s d).holding = false →
    (∀ r, r < 26 → dieVt s d * 1000 * (202 - rbits s (reg .CLK_DROOP_THR d) 4 0) < nth 0 uvs r * 200) →
    Claim.completes (.stretchRecovery { die := d, uvs := uvs }) s (fun s' => dieG s' d = { dieG s d with holding := true } ∧ s' = { s with gov := { s.gov with dies := s'.gov.dies } } ∧ ∀ e, e ≠ d → dieG s' e = dieG s e)) ∧
  (∀ (d r : Nat) (uvs : List Nat) (s : State), 4 ≤ d ∨ (dieG s d).stretch = false ∨ (dieG s d).holding = true ∨ (r < 26 ∧ nth 0 uvs r * 200 ≤ dieVt s d * 1000 * (202 - rbits s (reg .CLK_DROOP_THR d) 4 0)) → exec (.stretchRecovery { die := d, uvs := uvs }) s = .next s) ∧
  (∀ (d n : Nat) (s : State), (dieG s d).holding = true → 64 ≤ n →
    Claim.completes (.stretchEnd d n) s (fun s' =>
      dieG s' d = { dieG s d with stretch := false, holding := false } ∧ s' = { s with gov := { s.gov with dies := s'.gov.dies } } ∧ ∀ e, e ≠ d → dieG s' e = dieG s e)) ∧
  (∀ (d n : Nat) (s : State), (dieG s d).holding = false ∨ n < 64 → exec (.stretchEnd d n) s = .next s) ∧
  (∀ (d n : Nat) (temps : List Int) (tiles : List Nat) (s : State), 4 ≤ d ∨ dieGone s d = true →
    exec (.junctionSample d temps) s = .next s ∧ exec (.stackHeatThrottle d) s = .next s ∧ exec (.tagInterval d tiles n n n) s = .next s)

/-- The governor. -/
def Obligations.GovernorActs : Prop := Claim.PowerIsLimited ∧ Claim.LearningRule ∧ Claim.HeatTagsAndStretch

/-! ### The Gate and the resets (R358 to R372, R429, R432) -/

/-- A Gate-write message takes effect whole while the window is open and its value is in range; else it is refused with its code, counted and recorded, and no bound moves (R359, R361, R432).
The window closes at the lock message or its timeout (R358); the Gate's words can be read at any time (R432). -/
def Obligations.GateWritesAndReads : Prop :=
  (∀ (off i j : Nat) (n : RegName) (v : Word) (s : State), mgmtReady s = true → off ≠ 0 → gateWriteCode s off v = 0 → regAt off = some (n, i, j) →
    Claim.completes (.gateWrite off v) s (fun s' =>
      rget s' (reg n i j) = v ∧ s' = { s with regs := s'.regs, ports := { s.ports with reply := [0#8] } } ∧ Claim.regsKeep [(reg n i j).off] s s')) ∧
  (∀ (off : Nat) (v : Word) (s : State), mgmtReady s = true → gateWriteCode s off v ≠ 0 →
    Claim.completes (.gateWrite off v) s (fun s' =>
      s'.ports = { s.ports with reply := [BitVec.ofNat 8 (gateWriteCode s off v)] } ∧ rbits s' (reg .GATE_GL_REFUSED) 47 0 = (rbits s (reg .GATE_GL_REFUSED) 47 0 + 1) % 2 ^ 48 ∧
      Claim.recorded 0x0201 0xFF 0 (w64 1) (w64 (off % 65536)) s s' ∧ Safety.glWords s' = Safety.glWords s ∧ s'.gate = s.gate ∧ s'.tiles = s.tiles)) ∧
  (∀ (n : RegName) (i j off : Nat) (v : Word) (s : State), off < 0x10000 → regAt off = some (n, i, j) → (regInfo n).gl ≠ 0#64 → s.gate.open_ = false → gateWriteCode s off v = 1) ∧
  (∀ s : State, mgmtReady s = true → s.gate.open_ = true →
    Claim.completes .gateLock s (fun s' =>
      s'.gate = { s.gate with open_ := false } ∧ bit (rget s' (reg .GATE_LOCK)) 0 = true ∧ s'.ports = { s.ports with reply := [0#8] } ∧ Claim.regsKeep [(reg .GATE_LOCK).off] s s' ∧ s'.tiles = s.tiles)) ∧
  (∀ s : State, mgmtReady s = true → s.gate.open_ = false →
    Claim.completes .gateLock s (fun s' =>
      s'.gate = s.gate ∧ s'.ports = { s.ports with reply := [1#8] } ∧ rbits s' (reg .GATE_GL_REFUSED) 47 0 = (rbits s (reg .GATE_GL_REFUSED) 47 0 + 1) % 2 ^ 48 ∧
      Claim.recorded 0x0201 0xFF 0 (w64 1) 0#64 s s' ∧ Safety.glWords s' = Safety.glWords s)) ∧
  (∀ s : State, s.gate.st ≠ .off → s.gate.open_ = true →
    Claim.completes .gateWindowTimeout s (fun s' =>
      s' = { s with regs := s'.regs, gate := { s.gate with open_ := false } } ∧ bit (rget s' (reg .GATE_LOCK)) 1 = true ∧ Claim.regsKeep [(reg .GATE_LOCK).off] s s')) ∧
  (∀ s : State, s.gate.st = .off ∨ s.gate.open_ = false → exec .gateWindowTimeout s = .next s) ∧
  (∀ (off i j : Nat) (n : RegName) (s : State), mgmtReady s = true → off < 0x10000 → regAt off = some (n, i, j) →
    Claim.completes (.gateRead off) s (fun s' => s' = { s with ports := { s.ports with reply := 0#8 :: leBytes 8 (regView s n i j).toNat } })) ∧
  (∀ (off : Nat) (s : State), mgmtReady s = true → (0x10000 ≤ off ∨ regAt off = none) → Claim.completes (.gateRead off) s (fun s' => s' = { s with ports := { s.ports with reply := [3#8] } })) ∧
  (∀ s : State, mgmtReady s = true → Claim.completes .forecastRead s (fun s' =>
      s'.ports.reply = 0#8 :: (leBytes 8 (rget s (reg .GOV_FCAST_EPOCH)).toNat ++ (List.range 100).flatMap (fun k => leBytes 2 (rbits s (reg .GOV_FCAST k) 15 0))) ∧
      s' = { s with ports := { s.ports with reply := s'.ports.reply } })) ∧
  (∀ (off : Nat) (v : Word) (c : Instr) (s : State), mgmtReady s = false → (c = .gateWrite off v ∨ c = .gateLock ∨ c = .gateRead off ∨ c = .forecastRead) → exec c s = .next s)

/-- The fields of a device beyond its registers are as after power-on, what the host holds excepted (R371). -/
def Sys2Proof.Claim.blank (s' : State) : Prop :=
  s'.tiles = [] ∧ s'.stk = {} ∧ s'.groups = [] ∧ s'.bn = [] ∧ s'.fab = {} ∧ s'.gov = {} ∧ s'.ep = {} ∧ s'.ports = {} ∧ s'.cox.running = [] ∧ s'.cox.held = []

/-- Power-on, the cold reset and the loss of a rail leave nothing of the device but what the host holds; the window opens (R358, R368, R371). The warm reset keeps the Gate's words, the window, stack memory and its repairs, absent tiles, and
of every tile nothing (R371); the PCIe resets keep all but the host's registrations (R371, R429); the PCIe link comes up and goes down (R429, R440). -/
def Obligations.ResetsClear : Prop :=
  (∀ (c : Instr) (octal : Bool) (s : State), (c = .powerGood octal ∧ s.gate.st = .off ∨ c = .coldRstN octal ∧ s.gate.st ≠ .off) →
    Claim.completes c s (fun s' =>
      s'.gate = {} ∧ Claim.blank s' ∧ s'.cox.hostMem = s.cox.hostMem ∧ s'.cox.slots = s.cox.slots ∧ s'.pending = s.pending ∧
      bit (rget s' (reg .FLASH_ERR)) 2 = !octal ∧ ∀ r : Reg, ((reg .FLASH_ERR).off :: Claim.eventRegs).contains r.off = false → rget s' r = r.rst)) ∧
  (∀ (octal : Bool) (s : State), s.gate.st ≠ .off → exec (.powerGood octal) s = .next s) ∧
  (∀ s : State, Claim.completes .railLoss s (fun s' =>
      s'.gate.st = .off ∧ Claim.blank s' ∧ s'.regs = [] ∧ outputsOn s' = false ∧ s'.cox.hostMem = s.cox.hostMem ∧ s'.pending = s.pending)) ∧
  (∀ s : State, s.gate.st ≠ .off → (∀ g, g < 16 → cgState s g ≠ 1) →
    Claim.completes .warmRstN s (fun s' =>
      s'.gate.st = .dry ∧ s'.gate.open_ = s.gate.open_ ∧ s'.gate.boot = s.gate.boot ∧ s'.gate.image = s.gate.image ∧ s'.gate.trip = s.gate.trip ∧ outputsOn s' = false ∧ s'.tiles = [] ∧
      s'.stk.mem = s.stk.mem ∧ s'.stk.flips = s.stk.flips ∧ s'.stk.poison = s.stk.poison ∧ s'.stk.remap = s.stk.remap ∧ s'.stk.pages = s.stk.pages ∧ s'.stk.gone = s.stk.gone ∧
      s'.groups = [] ∧ s'.bn = [] ∧ s'.fab = {} ∧ s'.gov = {} ∧ s'.cox.hostMem = s.cox.hostMem ∧ s'.pending = s.pending ∧
      (∀ t, t < numTiles → rget s' (reg .TILE_MAP t) = rget s (reg .TILE_MAP t)) ∧ (∀ t, t < numTiles → tileState s t = 4 → rget s' (reg .TILE_STATE t) = 4#64) ∧
      (∀ d, d < 4 → dieV s' d = dieV s d ∧ dieVt s' d = dieVolt d 600) ∧ (∀ r : Reg, r.off < 0x10000 → rget s' r = rget s r))) ∧
  (∀ (c : Instr) (s : State), (c = .perstN ∨ c = .hotReset ∨ c = .functionLevelReset) → s.gate.st ≠ .off →
    Claim.completes c s (fun s' =>
      (∀ k, k < 8 → rget s' (reg .MBX_CMD_CFG k) = (reg .MBX_CMD_CFG k).rst ∧ rget s' (reg .MBX_CPL_CFG k) = (reg .MBX_CPL_CFG k).rst ∧ SMap.get false s'.cox.unreg k = true) ∧ s'.cox.tails = [] ∧
      s'.cox.held = s.cox.held ∧ s'.cox.running = s.cox.running ∧ s'.tiles = s.tiles ∧ s'.stk = s.stk ∧ s'.gate = s.gate ∧ s'.fab = s.fab ∧
      ∀ r : Reg, pcieClears r.off = false → rget s' r = rget s r)) ∧
  (∀ (c : Instr) (octal : Bool) (s : State), s.gate.st = .off → (c = .coldRstN octal ∨ c = .warmRstN ∨ c = .perstN ∨ c = .hotReset ∨ c = .functionLevelReset) → exec c s = .next s) ∧
  (∀ (rate width : Nat) (b : Bool) (s : State), s.gate.st ≠ .off → 0 < rate → rate < 4 → width < 32 →
    Claim.completes (.pcieLinkUp rate width b) s (fun s' =>
      rbits s' (reg .PCIE_LINK) 1 0 = rate ∧ rbits s' (reg .PCIE_LINK) 6 2 = width ∧ bit (rget s' (reg .PCIE_LINK)) 7 = b ∧ bit (rget s' (reg .PCIE_LINK)) 8 = true ∧
      s' = { s with regs := s'.regs, ports := { s.ports with ready := true } } ∧ Claim.regsKeep [(reg .PCIE_LINK).off] s s')) ∧
  (∀ (rate width : Nat) (b : Bool) (s : State), s.gate.st = .off ∨ rate = 0 ∨ 4 ≤ rate → exec (.pcieLinkUp rate width b) s = .next s) ∧
  (∀ s : State, bit (rget s (reg .PCIE_LINK)) 8 = true →
    Claim.completes .pcieLinkDown s (fun s' =>
      bit (rget s' (reg .PCIE_LINK)) 8 = false ∧ bit (rget s' (reg .PCIE_ERR)) 2 = true ∧ s' = { s with regs := s'.regs, ports := { s.ports with ready := false } } ∧
      Claim.regsKeep [(reg .PCIE_LINK).off, (reg .PCIE_ERR).off] s s')) ∧
  (∀ s : State, bit (rget s (reg .PCIE_LINK)) 8 = false → exec .pcieLinkDown s = .next s)

/-- An image has been read: its digest, its version and whether its slot is valid are shown (R361, R440). -/
def Sys2Proof.Claim.imageShown (img : Bool) (digest header : Word) (version : Nat) (s' : State) : Prop :=
  rget s' (reg .GATE_IMG_DIGEST (b2n img)) = digest ∧ bit (rget s' (reg .FLASH_STAT)) (b2n img) = (digest == header) ∧ SMap.get 0 s'.ports.versions (b2n img) = version

/-- Start-up (R360, R368, R371): the Gate reads the first image, runs it if its digest is allowed, else counts a refusal and tries the other one, then none; with the start-up tests complete the device is MOORED. -/
def Obligations.ImagesBoot : Prop :=
  (∀ (digest header : Word) (version : Nat) (img : Bool) (s : State), s.gate.st = .dry → s.gate.boot < 2 → img = (bit (rget s (reg .GATE_POLICY)) 2 != (s.gate.boot == 1)) → digestAllowed s digest header = true →
    Claim.completes (.bootImageCheck digest header version) s (fun s' =>
      s'.gate.boot = 2 ∧ s'.gate.image = img ∧ Claim.imageShown img digest header version s' ∧ s'.gate.st = .dry ∧ s'.tiles = s.tiles ∧ s'.stk = s.stk)) ∧
  (∀ (digest header : Word) (version : Nat) (img : Bool) (s : State), s.gate.st = .dry → s.gate.boot < 2 → img = (bit (rget s (reg .GATE_POLICY)) 2 != (s.gate.boot == 1)) → digestAllowed s digest header = false →
    Claim.completes (.bootImageCheck digest header version) s (fun s' =>
      s'.gate.boot = (if s.gate.boot = 0 then 1 else 3) ∧ s'.gate.image = s.gate.image ∧ rbits s' (reg .GATE_IMG_REFUSED) 47 0 = (rbits s (reg .GATE_IMG_REFUSED) 47 0 + 1) % 2 ^ 48 ∧
      Claim.imageShown img digest header version s' ∧ Claim.recorded 0x0201 0xFF 0 (w64 3) (w64 (b2n img)) s s' ∧ s'.tiles = s.tiles)) ∧
  (∀ (digest header : Word) (version : Nat) (s : State), s.gate.st ≠ .dry ∨ 2 ≤ s.gate.boot → exec (.bootImageCheck digest header version) s = .next s) ∧
  (∀ s : State, s.gate.st = .dry → s.gate.boot = 2 →
    Claim.completes .startupTestsComplete s (fun s' =>
      s'.gate = { s.gate with st := .moored } ∧ Claim.recorded 0x0101 0xFF 0 (w64 (1 + 2 * 256 + 17 * 65536)) 0#64 s s' ∧
      rbits s' (reg .MEM_RESERVE) 15 0 = sumNat (s.stk.pages.map (·.2)) % 2 ^ 16 ∧ rbits s' (reg .MEM_RESERVE) 19 16 = s.stk.gone.length % 16 ∧
      outputsOn s' = outputsOn s ∧ s'.tiles = s.tiles ∧ s'.stk = s.stk)) ∧
  (∀ s : State, s.gate.st ≠ .dry ∨ s.gate.boot ≠ 2 → exec .startupTestsComplete s = .next s)

/-- The cox runs and no switch of it is under way (R370, R372). -/
def Sys2Proof.Claim.coxRuns (s : State) : Prop := s.gate.st ≠ .off ∧ s.gate.boot = 2 ∧ s.gate.switching = none

/-- A cox-only reset into an image has begun, for the command given (R372). -/
def Sys2Proof.Claim.switches (img : Bool) (cmd : Option CmdRef) (s s' : State) : Prop :=
  s'.gate.staging = none ∧ s'.gate.switching = some (img, cmd) ∧ s'.gate.image = img ∧ s'.gate.intake = true ∧
  rbits s' (reg .GATE_COX_RESTARTS) 47 0 = (rbits s (reg .GATE_COX_RESTARTS) 47 0 + 1) % 2 ^ 48

/-- The watchdog and the cox's restarts (R370, R372, R409): a miss holds intake and restarts the running image, a second one within a second the other image, a third nothing more; a staged image that is allowed is
switched to, one that is not is refused and its command answered so; when the switch ends its command is answered and, but after a watchdog restart, intake goes on. -/
def Sys2Proof.Claim.CoxRestarts : Prop :=
  (∀ (b : Bool) (s : State), Claim.coxRuns s → b = false ∨ s.gate.misses = 0 →
    Claim.completes (.watchdogMiss b) s (fun s' =>
      s'.gate = { s.gate with misses := 1, intake := true, switching := some (s.gate.image, none), staging := none } ∧
      rbits s' (reg .GATE_WDOG_MISS) 47 0 = (rbits s (reg .GATE_WDOG_MISS) 47 0 + 1) % 2 ^ 48 ∧ Claim.switches s.gate.image none s s' ∧ s'.tiles = s.tiles)) ∧
  (∀ s : State, Claim.coxRuns s → s.gate.misses = 1 →
    Claim.completes (.watchdogMiss true) s (fun s' =>
      s'.gate = { s.gate with misses := 2, intake := true, staging := some (!s.gate.image, none) } ∧ rbits s' (reg .GATE_WDOG_MISS) 47 0 = (rbits s (reg .GATE_WDOG_MISS) 47 0 + 1) % 2 ^ 48 ∧
      Claim.recorded 0x0204 0xFF 0 (w64 2) (w64 (b2n (!s.gate.image))) s s' ∧ s'.tiles = s.tiles)) ∧
  (∀ s : State, Claim.coxRuns s → 2 ≤ s.gate.misses →
    Claim.completes (.watchdogMiss true) s (fun s' =>
      s'.gate = { s.gate with misses := s.gate.misses + 1, intake := true } ∧ rbits s' (reg .GATE_WDOG_MISS) 47 0 = (rbits s (reg .GATE_WDOG_MISS) 47 0 + 1) % 2 ^ 48 ∧
      Claim.recorded 0x0204 0xFF 0 (w64 (s.gate.misses + 1)) (w64 (b2n s.gate.image)) s s' ∧ s'.tiles = s.tiles)) ∧
  (∀ s : State, s.gate.intake = true → s.gate.switching = none → s.gate.staging = none → s.gate.misses < 3 →
    Claim.completes .watchdogToggle s (fun s' => s' = { s with gate := { s.gate with intake := false }, ports := s'.ports })) ∧
  (∀ s : State, s.gate.intake = false ∨ s.gate.switching.isSome = true ∨ s.gate.staging.isSome = true ∨ 3 ≤ s.gate.misses → exec .watchdogToggle s = .next s) ∧
  (∀ (img : Bool) (cmd : Option CmdRef) (digest header : Word) (version : Nat) (s : State), s.gate.staging = some (img, cmd) → digestAllowed s digest header = true →
    Claim.completes (.stagingComplete digest header version) s (fun s' => Claim.switches img cmd s s' ∧ Claim.imageShown img digest header version s' ∧ s'.tiles = s.tiles)) ∧
  (∀ (img : Bool) (digest header : Word) (version : Nat) (s : State), s.gate.staging = some (img, none) → digestAllowed s digest header = false →
    Claim.completes (.stagingComplete digest header version) s (fun s' =>
      s'.gate.staging = none ∧ s'.gate.switching = s.gate.switching ∧ s'.gate.image = s.gate.image ∧ rbits s' (reg .GATE_IMG_REFUSED) 47 0 = (rbits s (reg .GATE_IMG_REFUSED) 47 0 + 1) % 2 ^ 48 ∧
      s'.ports.activating = false ∧ (s.ports.activating = true → s'.ports.reply = [1#8]) ∧ s'.tiles = s.tiles)) ∧
  (∀ (img : Bool) (c : CmdRef) (digest header : Word) (version : Nat) (s : State), s.gate.staging = some (img, some c) → digestAllowed s digest header = false →
    c.ring < 8 → Claim.ringOpen s (cplOf s c.ring) = true →
    Claim.completes (.stagingComplete digest header version) s (fun s' =>
      s'.gate.staging = none ∧ s'.gate.switching = none ∧ s'.gate.image = s.gate.image ∧ Claim.framed c stIMAGE_REFUSED 0 0#64 s s' ∧ s'.tiles = s.tiles)) ∧
  (∀ (digest header : Word) (version : Nat) (s : State), s.gate.staging = none → exec (.stagingComplete digest header version) s = .next s) ∧
  (∀ (img : Bool) (c : CmdRef) (s : State), s.gate.switching = some (img, some c) → s.ports.activating = false → c.ring < 8 → bit c.w0 18 = false →
    Claim.ringOpen { s with gate := { s.gate with switching := none } } (cplOf s c.ring) = true →
    Claim.completes .coxSwitchEnd s (fun s' => s'.gate = { s.gate with switching := none, intake := false, boot := 2 } ∧ Claim.framed c stOK 0 0#64 s s' ∧ s'.tiles = s.tiles)) ∧
  (∀ (img : Bool) (s : State), s.gate.switching = some (img, none) →
    Claim.completes .coxSwitchEnd s (fun s' =>
      s'.gate = { s.gate with switching := none, intake := !s.ports.activating, boot := 2 } ∧ s'.ports.activating = false ∧ (s.ports.activating = true → s'.ports.reply = [0#8]) ∧ s'.tiles = s.tiles)) ∧
  (∀ s : State, s.gate.switching = none → exec .coxSwitchEnd s = .next s ∧ exec .switchTimeout s = .next s) ∧
  (∀ (img : Bool) (cmd : Option CmdRef) (s : State), s.gate.switching = some (img, cmd) → s.gate.misses = 0 →
    Claim.completes .switchTimeout s (fun s' =>
      s'.gate = { s.gate with misses := 1, intake := true, switching := some (s.gate.image, cmd), staging := none } ∧
      rbits s' (reg .GATE_WDOG_MISS) 47 0 = (rbits s (reg .GATE_WDOG_MISS) 47 0 + 1) % 2 ^ 48 ∧ s'.tiles = s.tiles)) ∧
  (∀ (img : Bool) (cmd : Option CmdRef) (s : State), s.gate.switching = some (img, cmd) → s.gate.misses = 1 →
    Claim.completes .switchTimeout s (fun s' =>
      s'.gate = { s.gate with misses := 2, intake := true, switching := none, staging := some (!s.gate.image, cmd) } ∧
      rbits s' (reg .GATE_WDOG_MISS) 47 0 = (rbits s (reg .GATE_WDOG_MISS) 47 0 + 1) % 2 ^ 48 ∧ s'.tiles = s.tiles)) ∧
  (∀ s : State, Claim.coxRuns s →
    Claim.completes .coxLockstepDisagreement s (fun s' =>
      s'.gate = { s.gate with intake := true, switching := some (s.gate.image, none), staging := none } ∧ Claim.recorded 0x0C01 0xFF 0 (w64 3) (w64 (b2n s.gate.image)) s s' ∧
      rbits s' (reg .GATE_COX_RESTARTS) 47 0 = (rbits s (reg .GATE_COX_RESTARTS) 47 0 + 1) % 2 ^ 48 ∧ s'.tiles = s.tiles)) ∧
  (∀ (b : Bool) (s : State), s.gate.st = .off ∨ s.gate.boot ≠ 2 ∨ s.gate.switching.isSome = true → exec (.watchdogMiss b) s = .next s ∧ exec .coxLockstepDisagreement s = .next s)

/-- A sensor is at its trip temperature in a device that no trip holds (R364). -/
def Sys2Proof.Claim.tripsAt (s : State) (stackSensor : Bool) (i : Nat) (temp : Int) : Prop :=
  s.gate.st ≠ .off ∧ s.gate.trip = false ∧ i < (if stackSensor then 8 else 64) ∧ ((if stackSensor then rbits s (reg .GATE_TRIP) 15 8 else rbits s (reg .GATE_TRIP) 7 0 : Nat) : Int) ≤ temp

/-- Every die that stands is held at its lowest clock (R364). -/
def Sys2Proof.Claim.slowed (s s' : State) : Prop := ∀ d, d < 4 → dieGone s d = false → dieClock s' d = 600 ∧ dieTarget s' d = 600

/-- A thermal trip takes the outputs away, holds every die at its lowest clock, and freezes the work that ran; its release lets the clocks go (R363, R364, R368). -/
def Sys2Proof.Claim.Trips : Prop :=
  (∀ (b : Bool) (i : Nat) (temp : Int) (s : State), Claim.tripsAt s b i temp → s.gate.st = .underway →
    Claim.completes (.thermalTrip b i temp) s (fun s' =>
      s'.gate = { s.gate with trip := true, thermLow := bit (rget s (reg .GATE_POLICY)) 1, st := .hold, cause := if b then 4 else 3, frozen := true } ∧ outputsOn s' = false ∧
      rbits s' (reg .GATE_TRIPS) 47 0 = (rbits s (reg .GATE_TRIPS) 47 0 + 1) % 2 ^ 48 ∧ Claim.slowed s s' ∧ s'.tiles = s.tiles ∧ s'.stk = s.stk)) ∧
  (∀ (b : Bool) (i : Nat) (temp : Int) (s : State), Claim.tripsAt s b i temp → s.gate.st = .dry ∨ s.gate.st = .moored ∧ s.cox.lock = none →
    Claim.completes (.thermalTrip b i temp) s (fun s' =>
      s'.gate = { s.gate with trip := true, thermLow := bit (rget s (reg .GATE_POLICY)) 1 } ∧ outputsOn s' = false ∧
      Claim.recorded 0x0203 (if b then i / 2 else i / 16) (if b then i else 0) (w64 (b2n b + (if b then i else i % 16) * 2 ^ 8 + ofSigned 16 temp * 2 ^ 16)) 0#64 s s' ∧
      (b = true → rbits s' (reg .STK_TEMP i) 7 0 = ofSigned 8 temp % 256) ∧ (b = false → (dieG s' (i / 16)).hottest = max temp (dieG s (i / 16)).hottest) ∧ Claim.slowed s s' ∧ s'.tiles = s.tiles)) ∧
  (∀ (b : Bool) (i : Nat) (temp : Int) (s : State), s.gate.st = .off ∨ s.gate.trip = true ∨ temp < ((if b then rbits s (reg .GATE_TRIP) 15 8 else rbits s (reg .GATE_TRIP) 7 0 : Nat) : Int) →
    exec (.thermalTrip b i temp) s = .next s) ∧
  (∀ s : State, s.gate.trip = true → belowTrip s = true → s.gate.st ≠ .moored →
    Claim.completes .tripRelease s (Claim.retargets { s with gate := { s.gate with trip := false, thermLow := false } })) ∧
  (∀ s : State, s.gate.trip = true → belowTrip s = true → s.gate.st = .moored → s.gate.coxValid = true → s.gate.checkOk = true →
    Claim.completes .tripRelease s (fun s' => s'.gate = { s.gate with trip := false, thermLow := false, st := .rigged } ∧ outputsOn s' = true ∧ s'.tiles = s.tiles ∧ s'.stk = s.stk)) ∧
  (∀ s : State, s.gate.trip = false ∨ belowTrip s = false → exec .tripRelease s = .next s)

/-- Restarts of the cox and trips. A detail or result that the catalogue does not give is 0, the model's reading (log 77). -/
def Obligations.RestartsAndTrips : Prop := Claim.CoxRestarts ∧ Claim.Trips

/-! ### The management port and JTAG (R430 to R435, R439, R450) -/

/-- A message of the management port that changes nothing but its answer. -/
def Sys2Proof.Claim.answers (c : Instr) (bs : List Byte) (s : State) : Prop := Claim.completes c s (fun s' => s' = { s with ports := { s.ports with reply := bs } })

/-- Addresses, endpoint, monitoring and events (R430, R431, R433, R434). The bytes that the DMTF standards fix are the model's own (log 51). -/
def Sys2Proof.Claim.PortAnswers : Prop :=
  (∀ (c : Instr) (a : Nat) (s : State), (c = .entdaa a ∨ c = .setdasa a) → s.gate.st ≠ .off → rbits s (reg .MGMT_STAT) 7 0 = 0 → 0 < a → a < 128 →
    Claim.completes c s (fun s' => rbits s' (reg .MGMT_STAT) 7 0 = a ∧ rbits s' (reg .MGMT_STAT) 63 8 = rbits s (reg .MGMT_STAT) 63 8 ∧ Claim.onlyRegs [(reg .MGMT_STAT).off] s s')) ∧
  (∀ (c : Instr) (a : Nat) (s : State), (c = .entdaa a ∨ c = .setdasa a) → s.gate.st = .off ∨ rbits s (reg .MGMT_STAT) 7 0 ≠ 0 ∨ a = 0 ∨ 128 ≤ a → exec c s = .next s) ∧
  (∀ (e : Nat) (s : State), s.gate.st ≠ .off → 8 ≤ e → e ≤ 254 →
    Claim.completes (.setEndpointId e) s (fun s' => rbits s' (reg .MGMT_STAT) 15 8 = e ∧ s'.ports = { s.ports with reply := [0#8, 0#8, BitVec.ofNat 8 e, 0#8] } ∧ s'.tiles = s.tiles)) ∧
  (∀ (e : Nat) (s : State), s.gate.st ≠ .off → e < 8 ∨ 254 < e → Claim.answers (.setEndpointId e) [2#8] s) ∧
  (∀ s : State, s.gate.st ≠ .off → Claim.answers .getEndpointId [0#8, BitVec.ofNat 8 (rbits s (reg .MGMT_STAT) 15 8), 0#8, 0#8] s) ∧
  (∀ s : State, s.gate.st ≠ .off → Claim.answers .getMessageTypeSupport [0#8, 2#8, 1#8, 0x7F#8] s) ∧
  (∀ s : State, s.gate.st ≠ .off → Claim.completes .getMctpVersion s (fun s' =>
      s'.ports.reply.length = 6 ∧ s'.ports.reply.take 2 = [0#8, 1#8] ∧ s' = { s with fresh := s'.fresh, ports := { s.ports with reply := s'.ports.reply } })) ∧
  (∀ s : State, s.gate.st ≠ .off → Claim.completes .getVendorDefinedMessageSupport s (fun s' =>
      s'.ports.reply.length = 9 ∧ s'.ports.reply.take 3 = [0#8, 0xFF#8, 1#8] ∧ s' = { s with fresh := s'.fresh, ports := { s.ports with reply := s'.ports.reply } })) ∧
  (∀ (h k : Nat) (s : State), mgmtReady s = true → h ≤ 21 → k = max 1 h →
    Claim.answers (.getPdr h) ([0#8] ++ leBytes 4 (if k < 21 then k + 1 else 0) ++ leBytes 4 0 ++ [5#8] ++ leBytes 2 32 ++ (List.range 32).map (Config.pdrByte k)) s) ∧
  (∀ (h : Nat) (s : State), mgmtReady s = true → 21 < h → Claim.answers (.getPdr h) [0x82#8] s) ∧
  (∀ (id v : Nat) (s : State), mgmtReady s = true → sensorValue s id = some v → Claim.answers (.getSensorReading id) (0#8 :: leBytes 2 v) s) ∧
  (∀ (id : Nat) (s : State), mgmtReady s = true → sensorValue s id = none → Claim.answers (.getSensorReading id) [0x80#8] s) ∧
  (∀ (e : Nat) (s : State), mgmtReady s = true → 0 < e → e ≤ 255 →
    Claim.completes (.setEventReceiver e) s (fun s' =>
      bit (rget s' (reg .MGMT_STAT)) 16 = true ∧ s'.rec_ = { s.rec_ with sent := s.rec_.sent ++ s.rec_.port, port := [] } ∧ s'.ports = { s.ports with receiver := e, reply := [0#8] } ∧ s'.tiles = s.tiles)) ∧
  (∀ s : State, mgmtReady s = true →
    Claim.completes (.setEventReceiver 0) s (fun s' =>
      bit (rget s' (reg .MGMT_STAT)) 16 = false ∧ s'.rec_ = s.rec_ ∧ s'.ports = { s.ports with receiver := 0, reply := [0#8] } ∧ Claim.regsKeep [(reg .MGMT_STAT).off] s s')) ∧
  (∀ (e : Nat) (s : State), mgmtReady s = true → 255 < e → Claim.answers (.setEventReceiver e) [2#8] s) ∧
  (∀ (r : List Word) (rs : List (List Word)) (s : State), mgmtReady s = true → s.rec_.port = r :: rs →
    Claim.completes .pollForPlatformEventMessage s (fun s' =>
      s'.ports = { s.ports with reply := 0#8 :: 0xF0#8 :: wordBytes r } ∧ s'.rec_ = { s.rec_ with port := rs } ∧ s'.regs = s.regs ∧ s'.tiles = s.tiles)) ∧
  (∀ s : State, mgmtReady s = true → s.rec_.port = [] → Claim.answers .pollForPlatformEventMessage [0#8] s) ∧
  (∀ (n : Nat) (c : Instr) (s : State), s.gate.st = .off → (c = .setEndpointId n ∨ c = .getEndpointId ∨ c = .getMctpVersion ∨ c = .getMessageTypeSupport ∨ c = .getVendorDefinedMessageSupport) → exec c s = .next s) ∧
  (∀ (n : Nat) (c : Instr) (s : State), mgmtReady s = false → (c = .getPdr n ∨ c = .getSensorReading n ∨ c = .setEventReceiver n ∨ c = .pollForPlatformEventMessage) → exec c s = .next s)

/-- A transfer that the port takes: an update is open and unverified, the data fits a transfer and the slot (R435, R439). -/
def Sys2Proof.Claim.transfer (s : State) (d : List Byte) : Prop :=
  mgmtReady s = true ∧ s.ports.update ≠ 0 ∧ s.ports.updOk = false ∧ d.length ≤ 256 ∧ s.ports.updLen + d.length ≤ slotBytes s.ports.update

/-- Firmware updates (R435, R437, R439) and the JTAG data register (R450). The completion codes of refusals are the model's own (log 51). -/
def Sys2Proof.Claim.UpdatesAndJtag : Prop :=
  (∀ (c : Nat) (s : State), mgmtReady s = true → s.ports.update = 0 → (c = 1 ∧ s.gate.staging = none ∧ s.gate.switching = none ∨ c = 2) →
    Claim.completes (.requestUpdate c) s (fun s' =>
      s'.ports = { s.ports with update := c, updLen := 0, updOk := false, reply := [0#8] } ∧ bit (rget s' (reg .MGMT_STAT)) 17 = true ∧
      bit (rget s' (reg .FLASH_STAT)) (updSlot s c) = false ∧ s'.gate = s.gate ∧ s'.tiles = s.tiles)) ∧
  (∀ (c : Nat) (s : State), mgmtReady s = true → s.ports.update ≠ 0 → Claim.answers (.requestUpdate c) [0x81#8] s) ∧
  (∀ (c : Nat) (s : State), mgmtReady s = true → s.ports.update = 0 → c = 0 ∨ 2 < c → Claim.answers (.requestUpdate c) [2#8] s) ∧
  (∀ s : State, mgmtReady s = true → s.ports.update = 0 → s.gate.staging.isSome = true ∨ s.gate.switching.isSome = true → Claim.answers (.requestUpdate 1) [0x8A#8] s) ∧
  (∀ (d : List Byte) (s : State), Claim.transfer s d → Claim.completes (.firmwareData d true) s (fun s' => s' = { s with ports := { s.ports with updLen := s.ports.updLen + d.length } })) ∧
  (∀ (d : List Byte) (s : State), Claim.transfer s d →
    Claim.completes (.firmwareData d false) s (fun s' =>
      s'.ports = { s.ports with update := 0, updLen := 0, updOk := false } ∧ bit (rget s' (reg .FLASH_ERR)) 0 = true ∧ bit (rget s' (reg .FLASH_STAT)) (updSlot s s.ports.update) = false ∧
      Claim.recorded 0x0FFF 0xFF (Req.code .mgmt) (w64 439) (w64 (updSlot s s.ports.update)) s s' ∧ s'.tiles = s.tiles)) ∧
  (∀ (d : List Byte) (b : Bool) (s : State), mgmtReady s = false ∨ s.ports.update = 0 ∨ s.ports.updOk = true ∨ 256 < d.length ∨ slotBytes s.ports.update < s.ports.updLen + d.length →
    exec (.firmwareData d b) s = .next s) ∧
  (∀ (d h : Word) (v : Nat) (s : State), mgmtReady s = true → (s.ports.update = 1 ∨ s.ports.update = 2) →
    Claim.completes (.verifyComplete d h v) s (fun s' =>
      s'.ports.updOk = (d == h && digestAllowed s d h) ∧ bit (rget s' (reg .FLASH_STAT)) (updSlot s s.ports.update) = (d == h && digestAllowed s d h) ∧
      s'.ports.reply = [if d == h && digestAllowed s d h then 0#8 else 1#8] ∧ s'.ports.update = s.ports.update ∧
      (s.ports.update = 1 → rget s' (reg .GATE_IMG_DIGEST (updSlot s 1)) = d ∧ SMap.get 0 s'.ports.versions (updSlot s 1) = v) ∧ s'.tiles = s.tiles)) ∧
  (∀ s : State, mgmtReady s = true → s.ports.update = 1 → s.ports.updOk = true → s.gate.staging = none → s.gate.switching = none →
    Claim.completes .activateFirmware s (fun s' =>
      s'.gate = { s.gate with staging := some (!s.gate.image, none) } ∧ s'.ports.activating = true ∧ s'.ports.update = 0 ∧ bit (rget s' (reg .MGMT_STAT)) 17 = false ∧ s'.tiles = s.tiles)) ∧
  (∀ s : State, mgmtReady s = true → s.ports.update = 2 → s.ports.updOk = true → s.gate.staging = none → s.gate.switching = none →
    Claim.completes .activateFirmware s (fun s' =>
      bit (rget s' (reg .MGMT_STAT)) 18 = !bit (rget s (reg .MGMT_STAT)) 18 ∧ s'.ports.reply = [0#8] ∧ s'.ports.update = 0 ∧ s'.gate = s.gate ∧ s'.tiles = s.tiles)) ∧
  (∀ s : State, mgmtReady s = true → s.ports.update ≠ 0 → s.ports.updOk = false ∨ s.gate.staging.isSome = true ∨ s.gate.switching.isSome = true → Claim.answers .activateFirmware [0x84#8] s) ∧
  (∀ s : State, mgmtReady s = true → s.ports.update ≠ 0 →
    Claim.completes .cancelUpdate s (fun s' =>
      s'.ports = { s.ports with update := 0, updLen := 0, updOk := false, reply := [0#8] } ∧ bit (rget s' (reg .FLASH_STAT)) (updSlot s s.ports.update) = false ∧
      bit (rget s' (reg .MGMT_STAT)) 17 = false ∧ s'.tiles = s.tiles)) ∧
  (∀ (d h : Word) (v : Nat) (s : State), mgmtReady s = true → s.ports.update = 0 →
    Claim.answers (.verifyComplete d h v) [0x80#8] s ∧ Claim.answers .activateFirmware [0x80#8] s ∧ Claim.answers .cancelUpdate [0x80#8] s) ∧
  (∀ (n : Nat) (d h : Word) (c : Instr) (s : State), mgmtReady s = false → (c = .requestUpdate n ∨ c = .verifyComplete d h n ∨ c = .activateFirmware ∨ c = .cancelUpdate) → exec c s = .next s) ∧
  (∀ s : State, s.gate.st ≠ .off → Claim.completes .jtagIdcode s (fun s' => s' = { s with ports := { s.ports with jtag := idcode } })) ∧
  (∀ s : State, s.gate.st ≠ .off → Claim.completes .jtagBypass s (fun s' => s' = { s with ports := { s.ports with jtag := 0#32 } })) ∧
  (∀ s : State, s.gate.st ≠ .off → Claim.completes .jtagSample s (fun s' => s' = { s with fresh := s'.fresh, ports := { s.ports with jtag := s'.ports.jtag } })) ∧
  (∀ (c : Instr) (s : State), s.gate.st = .off → (c = .jtagIdcode ∨ c = .jtagBypass ∨ c = .jtagSample) → exec c s = .next s) ∧
  bits idcode 0 0 = 1 ∧ bits idcode 11 1 = 0x0DB ∧ bits idcode 27 12 = 0x4830

/-- The management port and JTAG. -/
def Obligations.ManagementAnswers : Prop := Claim.PortAnswers ∧ Claim.UpdatesAndJtag

/-! ### The block as a whole -/

/-- A step takes the command at the front of the queue and is that command's effect on the state with the rest of the queue. -/
def Obligations.StepRunsFront : Prop :=
  ∀ (c : Instr) (rest : List Instr) (s : State), step { s with pending := c :: rest } = exec c { s with pending := rest }

/-- On an empty queue one cycle of the reference clock passes (the model's choice, log 7): the epoch counter goes on by 10 ns and a correction of at most 1 ns, none in host-assisted mode (R326, R331); a die that stands counts its cycles, stretched ones
1.3 times as long (R353, R354); no tile, stack byte or command moves; a device without power stands still. -/
def Obligations.EmptyQueueIsOneCycle : Prop :=
  (∀ s : State, s.pending = [] → s.gate.st ≠ .off → ∃ s', step s = .next s' ∧
    (∃ c : Int, (c = -1 ∨ c = 0 ∨ c = 1) ∧ (assist s 13 = true → c = 0) ∧ epoch s' = epoch s + BitVec.ofInt 64 (10 + c)) ∧
    s' = { s with regs := s'.regs, ep := s'.ep, snap := s'.snap } ∧ s'.ep.ref = s.ep.ref + 1 ∧ s'.ep.target = none) ∧
  (∀ (d n : Nat) (s : State), s.pending = [] → s.gate.st ≠ .off → d < 4 → dieGone s d = false →
    n = (SMap.get 0 s.ep.cycAcc d + dieClock s d * (if (dieG s d).stretch then 10 else 13)) / 1300 → ∃ s', step s = .next s' ∧
    SMap.get 0 s'.ep.cyc d = (SMap.get 0 s.ep.cyc d + n) % 2 ^ 64 ∧
    rbits s' (reg .CLK_STRETCH_CNT d) 47 0 = (rbits s (reg .CLK_STRETCH_CNT d) 47 0 + (if (dieG s d).stretch then n else 0)) % 2 ^ 48) ∧
  (∀ s : State, s.pending = [] → s.gate.st = .off → step s = .next s)

/-- What reset leaves (R358, R361, R371): DRY with the window open and outputs off, no work anywhere, the Gate's bounds and the registers at the values of their
tables. Where the spec gives a register no reset value, the value is the model's choice (log 4). -/
def Obligations.ResetLeaves : Prop :=
  State.reset.gate.st = .dry ∧ State.reset.gate.open_ = true ∧ outputsOn State.reset = false ∧ State.reset.pending = [] ∧ (∀ t, tileOf State.reset t = {}) ∧
  rbits State.reset (reg .GATE_PWR_CEIL) 11 0 = 1500 ∧ rbits State.reset (reg .GATE_PWR_CEIL) 27 16 = 1650 ∧ rbits State.reset (reg .GATE_TRIP) 7 0 = 105 ∧ rbits State.reset (reg .GATE_TRIP) 15 8 = 110 ∧
  (∀ d, d < 4 → dieClock State.reset d = 600) ∧ (∀ r : Reg, rget State.reset r = r.rst)

/-- The window is open exactly while neither bit of GATE_LOCK shows it closed (R358, R361). -/
def Sys2Proof.Claim.windowShown (s : State) : Prop := s.gate.open_ = true ↔ rbits s (reg .GATE_LOCK) 1 0 = 0

/-- Reset leaves the window shown as it is. -/
def Obligations.ResetShowsWindow : Prop := Claim.windowShown State.reset

/-- Whatever command comes next, GATE_LOCK goes on showing whether the gate-open window is closed (R358, R361). -/
def Obligations.WindowStaysShown : Prop := ∀ s s' : State, Claim.windowShown s → step s = .next s' → Claim.windowShown s'

/-- Once the window is closed no command but one that starts the device cold moves a bound of the Gate: power ceilings, shed limit, trips, link mask, lane rate, watchdog, policy, configuration pin, digests
(R358, R359, R361, R371). -/
def Obligations.BoundsHold : Prop := ∀ (v : SMap Word) (s s' : State), Safety.Bounded v s → step s = .next s' → Safety.Bounded v s'
end

