-- ==== Sys2Proof/Laws/SMap.lean ====
section
/-! SUPPORT. Laws of the sparse tables: a read after a write, and that every write keeps the canonical form. -/

namespace Sys2Proof

variable {α : Type}

@[simp] theorem SMap.get_nil (d : α) (j : Nat) : SMap.get d [] j = d := rfl

theorem SMap.get_cons (d : α) (k : Nat) (v : α) (m : SMap α) (j : Nat) :
    SMap.get d ((k, v) :: m) j = if k = j then v else SMap.get d m j := rfl

/-- An erased key reads as the default. -/
@[simp] theorem SMap.get_erase_same (d : α) (m : SMap α) (j : Nat) : SMap.get d (SMap.erase m j) j = d := by
  induction m with
  | nil => rfl
  | cons e m ih =>
    obtain ⟨k, v⟩ := e
    by_cases h : k = j
    · simpa [SMap.erase, h] using ih
    · simpa [SMap.erase, h, SMap.get] using ih

/-- Erasing one key leaves the others. -/
theorem SMap.get_erase_other (d : α) (m : SMap α) (j i : Nat) (h : i ≠ j) : SMap.get d (SMap.erase m j) i = SMap.get d m i := by
  induction m with
  | nil => rfl
  | cons e m ih =>
    obtain ⟨k, v⟩ := e
    by_cases hk : k = j
    · have hi : k ≠ i := fun c => h (c.symm.trans hk)
      rw [SMap.erase, if_pos hk, ih, SMap.get_cons, if_neg hi]
    · rw [SMap.erase, if_neg hk, SMap.get_cons, SMap.get_cons, ih]

/-- Inserting a key leaves the others. -/
theorem SMap.get_insert_other (d : α) (m : SMap α) (j i : Nat) (x : α) (h : i ≠ j) : SMap.get d (SMap.insert m j x) i = SMap.get d m i := by
  have hn : ¬ j = i := fun c => h c.symm
  induction m with
  | nil => simp [SMap.insert, SMap.get, hn]
  | cons e m ih =>
    obtain ⟨k, v⟩ := e
    by_cases hk : j < k
    · rw [SMap.insert, if_pos hk, SMap.get_cons, if_neg hn]
    · rw [SMap.insert, if_neg hk, SMap.get_cons, SMap.get_cons, ih]

/-- A key that the table does not list reads as what is inserted. -/
theorem SMap.get_insert_same (d : α) (m : SMap α) (j : Nat) (x : α) (h : ∀ e ∈ m, e.1 ≠ j) : SMap.get d (SMap.insert m j x) j = x := by
  induction m with
  | nil => simp [SMap.insert, SMap.get]
  | cons e m ih =>
    obtain ⟨k, v⟩ := e
    have hk : k ≠ j := h (k, v) (by simp)
    by_cases hl : j < k
    · simp [SMap.insert, hl, SMap.get]
    · simpa [SMap.insert, hl, SMap.get, hk] using ih (fun e he => h e (by simp [he]))

/-- An erased key is not listed. -/
theorem SMap.erase_not_listed (m : SMap α) (j : Nat) : ∀ e ∈ SMap.erase m j, e.1 ≠ j := by
  induction m with
  | nil => simp [SMap.erase]
  | cons e m ih =>
    obtain ⟨k, v⟩ := e
    by_cases h : k = j
    · simpa [SMap.erase, h] using ih
    · simp only [SMap.erase, h, if_false, List.mem_cons]
      rintro e (rfl | he)
      · exact h
      · exact ih e he

@[simp] theorem SMap.get_set_same (d : α) (m : SMap α) (j : Nat) (x : α) : SMap.get d (SMap.set m j x) j = x :=
  SMap.get_insert_same d _ j x (SMap.erase_not_listed m j)

theorem SMap.get_set_other (d : α) (m : SMap α) (j i : Nat) (x : α) (h : i ≠ j) : SMap.get d (SMap.set m j x) i = SMap.get d m i := by
  rw [SMap.set, SMap.get_insert_other d _ j i x h, SMap.get_erase_other d m j i h]

theorem SMap.get_set (d : α) (m : SMap α) (j i : Nat) (x : α) : SMap.get d (SMap.set m j x) i = if i = j then x else SMap.get d m i := by
  by_cases h : i = j
  · subst h; simp
  · rw [if_neg h, SMap.get_set_other d m j i x h]

section
variable [DecidableEq α]

/-- A read after a write of the same key gives what was written. -/
@[simp] theorem SMap.get_put_same (d : α) (m : SMap α) (j : Nat) (x : α) : SMap.get d (SMap.put d m j x) j = x := by
  unfold SMap.put
  split
  · next h => rw [SMap.get_erase_same, h]
  · exact SMap.get_insert_same d _ j x (SMap.erase_not_listed m j)

/-- A write leaves every other key. -/
theorem SMap.get_put_other (d : α) (m : SMap α) (j i : Nat) (x : α) (h : i ≠ j) : SMap.get d (SMap.put d m j x) i = SMap.get d m i := by
  unfold SMap.put
  split
  · exact SMap.get_erase_other d m j i h
  · rw [SMap.get_insert_other d _ j i x h, SMap.get_erase_other d m j i h]

theorem SMap.get_put (d : α) (m : SMap α) (j i : Nat) (x : α) : SMap.get d (SMap.put d m j x) i = if i = j then x else SMap.get d m i := by
  by_cases h : i = j
  · subst h; simp
  · rw [if_neg h, SMap.get_put_other d m j i x h]

theorem SMap.get_putList (d : α) (xs : List α) (m : SMap α) (j i : Nat) :
    SMap.get d (SMap.putList d m j xs) i = if j ≤ i ∧ i < j + xs.length then nth d xs (i - j) else SMap.get d m i := by
  induction xs generalizing m j with
  | nil => simp [SMap.putList] <;> omega
  | cons x xs ih =>
    rw [SMap.putList, ih, SMap.get_put]
    by_cases h : i = j
    · subst h
      rw [if_neg (by omega), if_pos rfl, if_pos (by simp), Nat.sub_self, nth]
    · by_cases h1 : j + 1 ≤ i ∧ i < j + 1 + xs.length
      · have e : i - j = (i - (j + 1)) + 1 := by omega
        rw [if_pos h1, if_pos (by simp; omega), e]; rfl
      · rw [if_neg h1, if_neg h, if_neg (by simp; omega)]

/-! ### The canonical form -/

theorem SMap.wfAbove_le (d : α) (m : SMap α) (lo lo' : Nat) (h : lo' ≤ lo) (w : SMap.wfAbove d lo m = true) : SMap.wfAbove d lo' m = true := by
  cases m with
  | nil => rfl
  | cons e m =>
    obtain ⟨k, v⟩ := e
    simp only [SMap.wfAbove, Bool.and_eq_true, decide_eq_true_eq] at w ⊢
    exact ⟨⟨Nat.le_trans h w.1.1, w.1.2⟩, w.2⟩

theorem SMap.erase_wfAbove (d : α) (m : SMap α) (lo j : Nat) (w : SMap.wfAbove d lo m = true) : SMap.wfAbove d lo (SMap.erase m j) = true := by
  induction m generalizing lo with
  | nil => rfl
  | cons e m ih =>
    obtain ⟨k, v⟩ := e
    simp only [SMap.wfAbove, Bool.and_eq_true, decide_eq_true_eq] at w
    by_cases h : k = j
    · rw [SMap.erase, if_pos h]
      exact ih lo (SMap.wfAbove_le d m (k + 1) lo (by omega) w.2)
    · rw [SMap.erase, if_neg h]
      simp only [SMap.wfAbove, Bool.and_eq_true, decide_eq_true_eq]
      exact ⟨w.1, ih (k + 1) w.2⟩

theorem SMap.insert_wfAbove (d : α) (m : SMap α) (lo j : Nat) (x : α) (hx : x ≠ d) (hl : lo ≤ j) (hn : ∀ e ∈ m, e.1 ≠ j)
    (w : SMap.wfAbove d lo m = true) : SMap.wfAbove d lo (SMap.insert m j x) = true := by
  induction m generalizing lo with
  | nil => simp [SMap.insert, SMap.wfAbove, hl, hx]
  | cons e m ih =>
    obtain ⟨k, v⟩ := e
    have hk : k ≠ j := hn (k, v) (by simp)
    simp only [SMap.wfAbove, Bool.and_eq_true, decide_eq_true_eq] at w
    by_cases h : j < k
    · rw [SMap.insert, if_pos h]
      simp only [SMap.wfAbove, Bool.and_eq_true, decide_eq_true_eq]
      exact ⟨⟨hl, by simp [hx]⟩, ⟨by omega, w.1.2⟩, w.2⟩
    · rw [SMap.insert, if_neg h]
      simp only [SMap.wfAbove, Bool.and_eq_true, decide_eq_true_eq]
      exact ⟨w.1, ih (k + 1) (by omega) (fun e he => hn e (by simp [he])) w.2⟩

/-- A write keeps the canonical form. -/
theorem SMap.put_wf (d : α) (m : SMap α) (j : Nat) (x : α) (w : SMap.wf d m = true) : SMap.wf d (SMap.put d m j x) = true := by
  unfold SMap.wf SMap.put at *
  split
  · exact SMap.erase_wfAbove d m 0 j w
  · next h => exact SMap.insert_wfAbove d _ 0 j x h (Nat.zero_le j) (SMap.erase_not_listed m j) (SMap.erase_wfAbove d m 0 j w)

theorem SMap.putList_wf (d : α) (xs : List α) (m : SMap α) (j : Nat) (w : SMap.wf d m = true) : SMap.wf d (SMap.putList d m j xs) = true := by
  induction xs generalizing m j with
  | nil => exact w
  | cons x xs ih => exact ih _ _ (SMap.put_wf d m j x w)

end

/-! ### Filters that a write does not reach -/

theorem SMap.filter_erase (f : Nat × α → Bool) (m : SMap α) (j : Nat) (h : ∀ v, f (j, v) = false) : (SMap.erase m j).filter f = m.filter f := by
  induction m with
  | nil => rfl
  | cons e m ih =>
    obtain ⟨k, v⟩ := e
    by_cases hk : k = j
    · subst hk; simp [SMap.erase, h v, ih]
    · simp [SMap.erase, hk, List.filter_cons, ih]

theorem SMap.filter_insert (f : Nat × α → Bool) (m : SMap α) (j : Nat) (x : α) (h : f (j, x) = false) : (SMap.insert m j x).filter f = m.filter f := by
  induction m with
  | nil => simp [SMap.insert, h]
  | cons e m ih =>
    obtain ⟨k, v⟩ := e
    by_cases hk : j < k
    · simp [SMap.insert, hk, h]
    · simp [SMap.insert, hk, List.filter_cons, ih]

/-- A write of a key that a filter drops leaves what the filter keeps. -/
theorem SMap.filter_put [DecidableEq α] (f : Nat × α → Bool) (d : α) (m : SMap α) (j : Nat) (x : α) (h : ∀ v, f (j, v) = false) :
    (SMap.put d m j x).filter f = m.filter f := by
  unfold SMap.put
  split
  · exact SMap.filter_erase f m j h
  · rw [SMap.filter_insert f _ j x (h x), SMap.filter_erase f m j h]

end Sys2Proof
end

