-- ==== Sys2Proof/Laws/State.lean ====
section
/-! SUPPORT. What the updates of one part of the state leave alone, field by field: no proof need unfold a record update. -/

namespace Sys2Proof.Machine
open Sys2Proof

/-! ### rset: changes `regs` only -/

@[simp] theorem rset_pending (r : Reg) (v : Word) (s : State) : (rset r v s).pending = s.pending := rfl
@[simp] theorem rset_tiles (r : Reg) (v : Word) (s : State) : (rset r v s).tiles = s.tiles := rfl
@[simp] theorem rset_stk (r : Reg) (v : Word) (s : State) : (rset r v s).stk = s.stk := rfl
@[simp] theorem rset_shadow (r : Reg) (v : Word) (s : State) : (rset r v s).shadow = s.shadow := rfl
@[simp] theorem rset_restores (r : Reg) (v : Word) (s : State) : (rset r v s).restores = s.restores := rfl
@[simp] theorem rset_groups (r : Reg) (v : Word) (s : State) : (rset r v s).groups = s.groups := rfl
@[simp] theorem rset_bn (r : Reg) (v : Word) (s : State) : (rset r v s).bn = s.bn := rfl
@[simp] theorem rset_blt (r : Reg) (v : Word) (s : State) : (rset r v s).blt = s.blt := rfl
@[simp] theorem rset_fab (r : Reg) (v : Word) (s : State) : (rset r v s).fab = s.fab := rfl
@[simp] theorem rset_ep (r : Reg) (v : Word) (s : State) : (rset r v s).ep = s.ep := rfl
@[simp] theorem rset_snap (r : Reg) (v : Word) (s : State) : (rset r v s).snap = s.snap := rfl
@[simp] theorem rset_gov (r : Reg) (v : Word) (s : State) : (rset r v s).gov = s.gov := rfl
@[simp] theorem rset_gate (r : Reg) (v : Word) (s : State) : (rset r v s).gate = s.gate := rfl
@[simp] theorem rset_cox (r : Reg) (v : Word) (s : State) : (rset r v s).cox = s.cox := rfl
@[simp] theorem rset_rec_ (r : Reg) (v : Word) (s : State) : (rset r v s).rec_ = s.rec_ := rfl
@[simp] theorem rset_ports (r : Reg) (v : Word) (s : State) : (rset r v s).ports = s.ports := rfl
@[simp] theorem rset_passThrough (r : Reg) (v : Word) (s : State) : (rset r v s).passThrough = s.passThrough := rfl
@[simp] theorem rset_retired (r : Reg) (v : Word) (s : State) : (rset r v s).retired = s.retired := rfl
@[simp] theorem rset_flitErr (r : Reg) (v : Word) (s : State) : (rset r v s).flitErr = s.flitErr := rfl
@[simp] theorem rset_watch (r : Reg) (v : Word) (s : State) : (rset r v s).watch = s.watch := rfl
@[simp] theorem rset_fresh (r : Reg) (v : Word) (s : State) : (rset r v s).fresh = s.fresh := rfl
@[simp] theorem tileOf_rset (r : Reg) (v : Word) (s : State) (u : Nat) : tileOf (rset r v s) u = tileOf s u := rfl

/-! ### rsetBits: changes `regs` only -/

@[simp] theorem rsetBits_pending (r : Reg) (hi lo v : Nat) (s : State) : (rsetBits r hi lo v s).pending = s.pending := rfl
@[simp] theorem rsetBits_tiles (r : Reg) (hi lo v : Nat) (s : State) : (rsetBits r hi lo v s).tiles = s.tiles := rfl
@[simp] theorem rsetBits_stk (r : Reg) (hi lo v : Nat) (s : State) : (rsetBits r hi lo v s).stk = s.stk := rfl
@[simp] theorem rsetBits_shadow (r : Reg) (hi lo v : Nat) (s : State) : (rsetBits r hi lo v s).shadow = s.shadow := rfl
@[simp] theorem rsetBits_restores (r : Reg) (hi lo v : Nat) (s : State) : (rsetBits r hi lo v s).restores = s.restores := rfl
@[simp] theorem rsetBits_groups (r : Reg) (hi lo v : Nat) (s : State) : (rsetBits r hi lo v s).groups = s.groups := rfl
@[simp] theorem rsetBits_bn (r : Reg) (hi lo v : Nat) (s : State) : (rsetBits r hi lo v s).bn = s.bn := rfl
@[simp] theorem rsetBits_blt (r : Reg) (hi lo v : Nat) (s : State) : (rsetBits r hi lo v s).blt = s.blt := rfl
@[simp] theorem rsetBits_fab (r : Reg) (hi lo v : Nat) (s : State) : (rsetBits r hi lo v s).fab = s.fab := rfl
@[simp] theorem rsetBits_ep (r : Reg) (hi lo v : Nat) (s : State) : (rsetBits r hi lo v s).ep = s.ep := rfl
@[simp] theorem rsetBits_snap (r : Reg) (hi lo v : Nat) (s : State) : (rsetBits r hi lo v s).snap = s.snap := rfl
@[simp] theorem rsetBits_gov (r : Reg) (hi lo v : Nat) (s : State) : (rsetBits r hi lo v s).gov = s.gov := rfl
@[simp] theorem rsetBits_gate (r : Reg) (hi lo v : Nat) (s : State) : (rsetBits r hi lo v s).gate = s.gate := rfl
@[simp] theorem rsetBits_cox (r : Reg) (hi lo v : Nat) (s : State) : (rsetBits r hi lo v s).cox = s.cox := rfl
@[simp] theorem rsetBits_rec_ (r : Reg) (hi lo v : Nat) (s : State) : (rsetBits r hi lo v s).rec_ = s.rec_ := rfl
@[simp] theorem rsetBits_ports (r : Reg) (hi lo v : Nat) (s : State) : (rsetBits r hi lo v s).ports = s.ports := rfl
@[simp] theorem rsetBits_passThrough (r : Reg) (hi lo v : Nat) (s : State) : (rsetBits r hi lo v s).passThrough = s.passThrough := rfl
@[simp] theorem rsetBits_retired (r : Reg) (hi lo v : Nat) (s : State) : (rsetBits r hi lo v s).retired = s.retired := rfl
@[simp] theorem rsetBits_flitErr (r : Reg) (hi lo v : Nat) (s : State) : (rsetBits r hi lo v s).flitErr = s.flitErr := rfl
@[simp] theorem rsetBits_watch (r : Reg) (hi lo v : Nat) (s : State) : (rsetBits r hi lo v s).watch = s.watch := rfl
@[simp] theorem rsetBits_fresh (r : Reg) (hi lo v : Nat) (s : State) : (rsetBits r hi lo v s).fresh = s.fresh := rfl
@[simp] theorem tileOf_rsetBits (r : Reg) (hi lo v : Nat) (s : State) (u : Nat) : tileOf (rsetBits r hi lo v s) u = tileOf s u := rfl

/-! ### rsetBit: changes `regs` only -/

@[simp] theorem rsetBit_pending (r : Reg) (i : Nat) (b : Bool) (s : State) : (rsetBit r i b s).pending = s.pending := rfl
@[simp] theorem rsetBit_tiles (r : Reg) (i : Nat) (b : Bool) (s : State) : (rsetBit r i b s).tiles = s.tiles := rfl
@[simp] theorem rsetBit_stk (r : Reg) (i : Nat) (b : Bool) (s : State) : (rsetBit r i b s).stk = s.stk := rfl
@[simp] theorem rsetBit_shadow (r : Reg) (i : Nat) (b : Bool) (s : State) : (rsetBit r i b s).shadow = s.shadow := rfl
@[simp] theorem rsetBit_restores (r : Reg) (i : Nat) (b : Bool) (s : State) : (rsetBit r i b s).restores = s.restores := rfl
@[simp] theorem rsetBit_groups (r : Reg) (i : Nat) (b : Bool) (s : State) : (rsetBit r i b s).groups = s.groups := rfl
@[simp] theorem rsetBit_bn (r : Reg) (i : Nat) (b : Bool) (s : State) : (rsetBit r i b s).bn = s.bn := rfl
@[simp] theorem rsetBit_blt (r : Reg) (i : Nat) (b : Bool) (s : State) : (rsetBit r i b s).blt = s.blt := rfl
@[simp] theorem rsetBit_fab (r : Reg) (i : Nat) (b : Bool) (s : State) : (rsetBit r i b s).fab = s.fab := rfl
@[simp] theorem rsetBit_ep (r : Reg) (i : Nat) (b : Bool) (s : State) : (rsetBit r i b s).ep = s.ep := rfl
@[simp] theorem rsetBit_snap (r : Reg) (i : Nat) (b : Bool) (s : State) : (rsetBit r i b s).snap = s.snap := rfl
@[simp] theorem rsetBit_gov (r : Reg) (i : Nat) (b : Bool) (s : State) : (rsetBit r i b s).gov = s.gov := rfl
@[simp] theorem rsetBit_gate (r : Reg) (i : Nat) (b : Bool) (s : State) : (rsetBit r i b s).gate = s.gate := rfl
@[simp] theorem rsetBit_cox (r : Reg) (i : Nat) (b : Bool) (s : State) : (rsetBit r i b s).cox = s.cox := rfl
@[simp] theorem rsetBit_rec_ (r : Reg) (i : Nat) (b : Bool) (s : State) : (rsetBit r i b s).rec_ = s.rec_ := rfl
@[simp] theorem rsetBit_ports (r : Reg) (i : Nat) (b : Bool) (s : State) : (rsetBit r i b s).ports = s.ports := rfl
@[simp] theorem rsetBit_passThrough (r : Reg) (i : Nat) (b : Bool) (s : State) : (rsetBit r i b s).passThrough = s.passThrough := rfl
@[simp] theorem rsetBit_retired (r : Reg) (i : Nat) (b : Bool) (s : State) : (rsetBit r i b s).retired = s.retired := rfl
@[simp] theorem rsetBit_flitErr (r : Reg) (i : Nat) (b : Bool) (s : State) : (rsetBit r i b s).flitErr = s.flitErr := rfl
@[simp] theorem rsetBit_watch (r : Reg) (i : Nat) (b : Bool) (s : State) : (rsetBit r i b s).watch = s.watch := rfl
@[simp] theorem rsetBit_fresh (r : Reg) (i : Nat) (b : Bool) (s : State) : (rsetBit r i b s).fresh = s.fresh := rfl
@[simp] theorem tileOf_rsetBit (r : Reg) (i : Nat) (b : Bool) (s : State) (u : Nat) : tileOf (rsetBit r i b s) u = tileOf s u := rfl

/-! ### rcount: changes `regs` only -/

@[simp] theorem rcount_pending (r : Reg) (w n : Nat) (s : State) : (rcount r w n s).pending = s.pending := rfl
@[simp] theorem rcount_tiles (r : Reg) (w n : Nat) (s : State) : (rcount r w n s).tiles = s.tiles := rfl
@[simp] theorem rcount_stk (r : Reg) (w n : Nat) (s : State) : (rcount r w n s).stk = s.stk := rfl
@[simp] theorem rcount_shadow (r : Reg) (w n : Nat) (s : State) : (rcount r w n s).shadow = s.shadow := rfl
@[simp] theorem rcount_restores (r : Reg) (w n : Nat) (s : State) : (rcount r w n s).restores = s.restores := rfl
@[simp] theorem rcount_groups (r : Reg) (w n : Nat) (s : State) : (rcount r w n s).groups = s.groups := rfl
@[simp] theorem rcount_bn (r : Reg) (w n : Nat) (s : State) : (rcount r w n s).bn = s.bn := rfl
@[simp] theorem rcount_blt (r : Reg) (w n : Nat) (s : State) : (rcount r w n s).blt = s.blt := rfl
@[simp] theorem rcount_fab (r : Reg) (w n : Nat) (s : State) : (rcount r w n s).fab = s.fab := rfl
@[simp] theorem rcount_ep (r : Reg) (w n : Nat) (s : State) : (rcount r w n s).ep = s.ep := rfl
@[simp] theorem rcount_snap (r : Reg) (w n : Nat) (s : State) : (rcount r w n s).snap = s.snap := rfl
@[simp] theorem rcount_gov (r : Reg) (w n : Nat) (s : State) : (rcount r w n s).gov = s.gov := rfl
@[simp] theorem rcount_gate (r : Reg) (w n : Nat) (s : State) : (rcount r w n s).gate = s.gate := rfl
@[simp] theorem rcount_cox (r : Reg) (w n : Nat) (s : State) : (rcount r w n s).cox = s.cox := rfl
@[simp] theorem rcount_rec_ (r : Reg) (w n : Nat) (s : State) : (rcount r w n s).rec_ = s.rec_ := rfl
@[simp] theorem rcount_ports (r : Reg) (w n : Nat) (s : State) : (rcount r w n s).ports = s.ports := rfl
@[simp] theorem rcount_passThrough (r : Reg) (w n : Nat) (s : State) : (rcount r w n s).passThrough = s.passThrough := rfl
@[simp] theorem rcount_retired (r : Reg) (w n : Nat) (s : State) : (rcount r w n s).retired = s.retired := rfl
@[simp] theorem rcount_flitErr (r : Reg) (w n : Nat) (s : State) : (rcount r w n s).flitErr = s.flitErr := rfl
@[simp] theorem rcount_watch (r : Reg) (w n : Nat) (s : State) : (rcount r w n s).watch = s.watch := rfl
@[simp] theorem rcount_fresh (r : Reg) (w n : Nat) (s : State) : (rcount r w n s).fresh = s.fresh := rfl
@[simp] theorem tileOf_rcount (r : Reg) (w n : Nat) (s : State) (u : Nat) : tileOf (rcount r w n s) u = tileOf s u := rfl

/-! ### slotCount: changes `regs` only -/

@[simp] theorem slotCount_pending (n use k : Nat) (s : State) : (slotCount n use k s).pending = s.pending := rfl
@[simp] theorem slotCount_tiles (n use k : Nat) (s : State) : (slotCount n use k s).tiles = s.tiles := rfl
@[simp] theorem slotCount_stk (n use k : Nat) (s : State) : (slotCount n use k s).stk = s.stk := rfl
@[simp] theorem slotCount_shadow (n use k : Nat) (s : State) : (slotCount n use k s).shadow = s.shadow := rfl
@[simp] theorem slotCount_restores (n use k : Nat) (s : State) : (slotCount n use k s).restores = s.restores := rfl
@[simp] theorem slotCount_groups (n use k : Nat) (s : State) : (slotCount n use k s).groups = s.groups := rfl
@[simp] theorem slotCount_bn (n use k : Nat) (s : State) : (slotCount n use k s).bn = s.bn := rfl
@[simp] theorem slotCount_blt (n use k : Nat) (s : State) : (slotCount n use k s).blt = s.blt := rfl
@[simp] theorem slotCount_fab (n use k : Nat) (s : State) : (slotCount n use k s).fab = s.fab := rfl
@[simp] theorem slotCount_ep (n use k : Nat) (s : State) : (slotCount n use k s).ep = s.ep := rfl
@[simp] theorem slotCount_snap (n use k : Nat) (s : State) : (slotCount n use k s).snap = s.snap := rfl
@[simp] theorem slotCount_gov (n use k : Nat) (s : State) : (slotCount n use k s).gov = s.gov := rfl
@[simp] theorem slotCount_gate (n use k : Nat) (s : State) : (slotCount n use k s).gate = s.gate := rfl
@[simp] theorem slotCount_cox (n use k : Nat) (s : State) : (slotCount n use k s).cox = s.cox := rfl
@[simp] theorem slotCount_rec_ (n use k : Nat) (s : State) : (slotCount n use k s).rec_ = s.rec_ := rfl
@[simp] theorem slotCount_ports (n use k : Nat) (s : State) : (slotCount n use k s).ports = s.ports := rfl
@[simp] theorem slotCount_passThrough (n use k : Nat) (s : State) : (slotCount n use k s).passThrough = s.passThrough := rfl
@[simp] theorem slotCount_retired (n use k : Nat) (s : State) : (slotCount n use k s).retired = s.retired := rfl
@[simp] theorem slotCount_flitErr (n use k : Nat) (s : State) : (slotCount n use k s).flitErr = s.flitErr := rfl
@[simp] theorem slotCount_watch (n use k : Nat) (s : State) : (slotCount n use k s).watch = s.watch := rfl
@[simp] theorem slotCount_fresh (n use k : Nat) (s : State) : (slotCount n use k s).fresh = s.fresh := rfl
@[simp] theorem tileOf_slotCount (n use k : Nat) (s : State) (u : Nat) : tileOf (slotCount n use k s) u = tileOf s u := rfl

/-! ### setTileState: changes `regs` only -/

@[simp] theorem setTileState_pending (t v : Nat) (s : State) : (setTileState t v s).pending = s.pending := rfl
@[simp] theorem setTileState_tiles (t v : Nat) (s : State) : (setTileState t v s).tiles = s.tiles := rfl
@[simp] theorem setTileState_stk (t v : Nat) (s : State) : (setTileState t v s).stk = s.stk := rfl
@[simp] theorem setTileState_shadow (t v : Nat) (s : State) : (setTileState t v s).shadow = s.shadow := rfl
@[simp] theorem setTileState_restores (t v : Nat) (s : State) : (setTileState t v s).restores = s.restores := rfl
@[simp] theorem setTileState_groups (t v : Nat) (s : State) : (setTileState t v s).groups = s.groups := rfl
@[simp] theorem setTileState_bn (t v : Nat) (s : State) : (setTileState t v s).bn = s.bn := rfl
@[simp] theorem setTileState_blt (t v : Nat) (s : State) : (setTileState t v s).blt = s.blt := rfl
@[simp] theorem setTileState_fab (t v : Nat) (s : State) : (setTileState t v s).fab = s.fab := rfl
@[simp] theorem setTileState_ep (t v : Nat) (s : State) : (setTileState t v s).ep = s.ep := rfl
@[simp] theorem setTileState_snap (t v : Nat) (s : State) : (setTileState t v s).snap = s.snap := rfl
@[simp] theorem setTileState_gov (t v : Nat) (s : State) : (setTileState t v s).gov = s.gov := rfl
@[simp] theorem setTileState_gate (t v : Nat) (s : State) : (setTileState t v s).gate = s.gate := rfl
@[simp] theorem setTileState_cox (t v : Nat) (s : State) : (setTileState t v s).cox = s.cox := rfl
@[simp] theorem setTileState_rec_ (t v : Nat) (s : State) : (setTileState t v s).rec_ = s.rec_ := rfl
@[simp] theorem setTileState_ports (t v : Nat) (s : State) : (setTileState t v s).ports = s.ports := rfl
@[simp] theorem setTileState_passThrough (t v : Nat) (s : State) : (setTileState t v s).passThrough = s.passThrough := rfl
@[simp] theorem setTileState_retired (t v : Nat) (s : State) : (setTileState t v s).retired = s.retired := rfl
@[simp] theorem setTileState_flitErr (t v : Nat) (s : State) : (setTileState t v s).flitErr = s.flitErr := rfl
@[simp] theorem setTileState_watch (t v : Nat) (s : State) : (setTileState t v s).watch = s.watch := rfl
@[simp] theorem setTileState_fresh (t v : Nat) (s : State) : (setTileState t v s).fresh = s.fresh := rfl
@[simp] theorem tileOf_setTileState (t v : Nat) (s : State) (u : Nat) : tileOf (setTileState t v s) u = tileOf s u := rfl

/-! ### setTile: changes `tiles` only -/

@[simp] theorem setTile_pending (t : Nat) (x : Tile) (s : State) : (setTile t x s).pending = s.pending := rfl
@[simp] theorem setTile_regs (t : Nat) (x : Tile) (s : State) : (setTile t x s).regs = s.regs := rfl
@[simp] theorem setTile_stk (t : Nat) (x : Tile) (s : State) : (setTile t x s).stk = s.stk := rfl
@[simp] theorem setTile_shadow (t : Nat) (x : Tile) (s : State) : (setTile t x s).shadow = s.shadow := rfl
@[simp] theorem setTile_restores (t : Nat) (x : Tile) (s : State) : (setTile t x s).restores = s.restores := rfl
@[simp] theorem setTile_groups (t : Nat) (x : Tile) (s : State) : (setTile t x s).groups = s.groups := rfl
@[simp] theorem setTile_bn (t : Nat) (x : Tile) (s : State) : (setTile t x s).bn = s.bn := rfl
@[simp] theorem setTile_blt (t : Nat) (x : Tile) (s : State) : (setTile t x s).blt = s.blt := rfl
@[simp] theorem setTile_fab (t : Nat) (x : Tile) (s : State) : (setTile t x s).fab = s.fab := rfl
@[simp] theorem setTile_ep (t : Nat) (x : Tile) (s : State) : (setTile t x s).ep = s.ep := rfl
@[simp] theorem setTile_snap (t : Nat) (x : Tile) (s : State) : (setTile t x s).snap = s.snap := rfl
@[simp] theorem setTile_gov (t : Nat) (x : Tile) (s : State) : (setTile t x s).gov = s.gov := rfl
@[simp] theorem setTile_gate (t : Nat) (x : Tile) (s : State) : (setTile t x s).gate = s.gate := rfl
@[simp] theorem setTile_cox (t : Nat) (x : Tile) (s : State) : (setTile t x s).cox = s.cox := rfl
@[simp] theorem setTile_rec_ (t : Nat) (x : Tile) (s : State) : (setTile t x s).rec_ = s.rec_ := rfl
@[simp] theorem setTile_ports (t : Nat) (x : Tile) (s : State) : (setTile t x s).ports = s.ports := rfl
@[simp] theorem setTile_passThrough (t : Nat) (x : Tile) (s : State) : (setTile t x s).passThrough = s.passThrough := rfl
@[simp] theorem setTile_retired (t : Nat) (x : Tile) (s : State) : (setTile t x s).retired = s.retired := rfl
@[simp] theorem setTile_flitErr (t : Nat) (x : Tile) (s : State) : (setTile t x s).flitErr = s.flitErr := rfl
@[simp] theorem setTile_watch (t : Nat) (x : Tile) (s : State) : (setTile t x s).watch = s.watch := rfl
@[simp] theorem setTile_fresh (t : Nat) (x : Tile) (s : State) : (setTile t x s).fresh = s.fresh := rfl
@[simp] theorem rget_setTile (t : Nat) (x : Tile) (s : State) (q : Reg) : rget (setTile t x s) q = rget s q := rfl
@[simp] theorem rbits_setTile (t : Nat) (x : Tile) (s : State) (q : Reg) (hi lo : Nat) : rbits (setTile t x s) q hi lo = rbits s q hi lo := rfl

/-! ### modTile: changes `tiles` only -/

@[simp] theorem modTile_pending (t : Nat) (f : Tile → Tile) (s : State) : (modTile t f s).pending = s.pending := rfl
@[simp] theorem modTile_regs (t : Nat) (f : Tile → Tile) (s : State) : (modTile t f s).regs = s.regs := rfl
@[simp] theorem modTile_stk (t : Nat) (f : Tile → Tile) (s : State) : (modTile t f s).stk = s.stk := rfl
@[simp] theorem modTile_shadow (t : Nat) (f : Tile → Tile) (s : State) : (modTile t f s).shadow = s.shadow := rfl
@[simp] theorem modTile_restores (t : Nat) (f : Tile → Tile) (s : State) : (modTile t f s).restores = s.restores := rfl
@[simp] theorem modTile_groups (t : Nat) (f : Tile → Tile) (s : State) : (modTile t f s).groups = s.groups := rfl
@[simp] theorem modTile_bn (t : Nat) (f : Tile → Tile) (s : State) : (modTile t f s).bn = s.bn := rfl
@[simp] theorem modTile_blt (t : Nat) (f : Tile → Tile) (s : State) : (modTile t f s).blt = s.blt := rfl
@[simp] theorem modTile_fab (t : Nat) (f : Tile → Tile) (s : State) : (modTile t f s).fab = s.fab := rfl
@[simp] theorem modTile_ep (t : Nat) (f : Tile → Tile) (s : State) : (modTile t f s).ep = s.ep := rfl
@[simp] theorem modTile_snap (t : Nat) (f : Tile → Tile) (s : State) : (modTile t f s).snap = s.snap := rfl
@[simp] theorem modTile_gov (t : Nat) (f : Tile → Tile) (s : State) : (modTile t f s).gov = s.gov := rfl
@[simp] theorem modTile_gate (t : Nat) (f : Tile → Tile) (s : State) : (modTile t f s).gate = s.gate := rfl
@[simp] theorem modTile_cox (t : Nat) (f : Tile → Tile) (s : State) : (modTile t f s).cox = s.cox := rfl
@[simp] theorem modTile_rec_ (t : Nat) (f : Tile → Tile) (s : State) : (modTile t f s).rec_ = s.rec_ := rfl
@[simp] theorem modTile_ports (t : Nat) (f : Tile → Tile) (s : State) : (modTile t f s).ports = s.ports := rfl
@[simp] theorem modTile_passThrough (t : Nat) (f : Tile → Tile) (s : State) : (modTile t f s).passThrough = s.passThrough := rfl
@[simp] theorem modTile_retired (t : Nat) (f : Tile → Tile) (s : State) : (modTile t f s).retired = s.retired := rfl
@[simp] theorem modTile_flitErr (t : Nat) (f : Tile → Tile) (s : State) : (modTile t f s).flitErr = s.flitErr := rfl
@[simp] theorem modTile_watch (t : Nat) (f : Tile → Tile) (s : State) : (modTile t f s).watch = s.watch := rfl
@[simp] theorem modTile_fresh (t : Nat) (f : Tile → Tile) (s : State) : (modTile t f s).fresh = s.fresh := rfl
@[simp] theorem rget_modTile (t : Nat) (f : Tile → Tile) (s : State) (q : Reg) : rget (modTile t f s) q = rget s q := rfl
@[simp] theorem rbits_modTile (t : Nat) (f : Tile → Tile) (s : State) (q : Reg) (hi lo : Nat) : rbits (modTile t f s) q hi lo = rbits s q hi lo := rfl

/-! ### setDrain: changes `tiles` only -/

@[simp] theorem setDrain_pending (t : Nat) (d : Drain) (s : State) : (setDrain t d s).pending = s.pending := rfl
@[simp] theorem setDrain_regs (t : Nat) (d : Drain) (s : State) : (setDrain t d s).regs = s.regs := rfl
@[simp] theorem setDrain_stk (t : Nat) (d : Drain) (s : State) : (setDrain t d s).stk = s.stk := rfl
@[simp] theorem setDrain_shadow (t : Nat) (d : Drain) (s : State) : (setDrain t d s).shadow = s.shadow := rfl
@[simp] theorem setDrain_restores (t : Nat) (d : Drain) (s : State) : (setDrain t d s).restores = s.restores := rfl
@[simp] theorem setDrain_groups (t : Nat) (d : Drain) (s : State) : (setDrain t d s).groups = s.groups := rfl
@[simp] theorem setDrain_bn (t : Nat) (d : Drain) (s : State) : (setDrain t d s).bn = s.bn := rfl
@[simp] theorem setDrain_blt (t : Nat) (d : Drain) (s : State) : (setDrain t d s).blt = s.blt := rfl
@[simp] theorem setDrain_fab (t : Nat) (d : Drain) (s : State) : (setDrain t d s).fab = s.fab := rfl
@[simp] theorem setDrain_ep (t : Nat) (d : Drain) (s : State) : (setDrain t d s).ep = s.ep := rfl
@[simp] theorem setDrain_snap (t : Nat) (d : Drain) (s : State) : (setDrain t d s).snap = s.snap := rfl
@[simp] theorem setDrain_gov (t : Nat) (d : Drain) (s : State) : (setDrain t d s).gov = s.gov := rfl
@[simp] theorem setDrain_gate (t : Nat) (d : Drain) (s : State) : (setDrain t d s).gate = s.gate := rfl
@[simp] theorem setDrain_cox (t : Nat) (d : Drain) (s : State) : (setDrain t d s).cox = s.cox := rfl
@[simp] theorem setDrain_rec_ (t : Nat) (d : Drain) (s : State) : (setDrain t d s).rec_ = s.rec_ := rfl
@[simp] theorem setDrain_ports (t : Nat) (d : Drain) (s : State) : (setDrain t d s).ports = s.ports := rfl
@[simp] theorem setDrain_passThrough (t : Nat) (d : Drain) (s : State) : (setDrain t d s).passThrough = s.passThrough := rfl
@[simp] theorem setDrain_retired (t : Nat) (d : Drain) (s : State) : (setDrain t d s).retired = s.retired := rfl
@[simp] theorem setDrain_flitErr (t : Nat) (d : Drain) (s : State) : (setDrain t d s).flitErr = s.flitErr := rfl
@[simp] theorem setDrain_watch (t : Nat) (d : Drain) (s : State) : (setDrain t d s).watch = s.watch := rfl
@[simp] theorem setDrain_fresh (t : Nat) (d : Drain) (s : State) : (setDrain t d s).fresh = s.fresh := rfl
@[simp] theorem rget_setDrain (t : Nat) (d : Drain) (s : State) (q : Reg) : rget (setDrain t d s) q = rget s q := rfl
@[simp] theorem rbits_setDrain (t : Nat) (d : Drain) (s : State) (q : Reg) (hi lo : Nat) : rbits (setDrain t d s) q hi lo = rbits s q hi lo := rfl

/-! ### endRun: changes `tiles` only -/

@[simp] theorem endRun_pending (t : Nat) (s : State) : (endRun t s).pending = s.pending := rfl
@[simp] theorem endRun_regs (t : Nat) (s : State) : (endRun t s).regs = s.regs := rfl
@[simp] theorem endRun_stk (t : Nat) (s : State) : (endRun t s).stk = s.stk := rfl
@[simp] theorem endRun_shadow (t : Nat) (s : State) : (endRun t s).shadow = s.shadow := rfl
@[simp] theorem endRun_restores (t : Nat) (s : State) : (endRun t s).restores = s.restores := rfl
@[simp] theorem endRun_groups (t : Nat) (s : State) : (endRun t s).groups = s.groups := rfl
@[simp] theorem endRun_bn (t : Nat) (s : State) : (endRun t s).bn = s.bn := rfl
@[simp] theorem endRun_blt (t : Nat) (s : State) : (endRun t s).blt = s.blt := rfl
@[simp] theorem endRun_fab (t : Nat) (s : State) : (endRun t s).fab = s.fab := rfl
@[simp] theorem endRun_ep (t : Nat) (s : State) : (endRun t s).ep = s.ep := rfl
@[simp] theorem endRun_snap (t : Nat) (s : State) : (endRun t s).snap = s.snap := rfl
@[simp] theorem endRun_gov (t : Nat) (s : State) : (endRun t s).gov = s.gov := rfl
@[simp] theorem endRun_gate (t : Nat) (s : State) : (endRun t s).gate = s.gate := rfl
@[simp] theorem endRun_cox (t : Nat) (s : State) : (endRun t s).cox = s.cox := rfl
@[simp] theorem endRun_rec_ (t : Nat) (s : State) : (endRun t s).rec_ = s.rec_ := rfl
@[simp] theorem endRun_ports (t : Nat) (s : State) : (endRun t s).ports = s.ports := rfl
@[simp] theorem endRun_passThrough (t : Nat) (s : State) : (endRun t s).passThrough = s.passThrough := rfl
@[simp] theorem endRun_retired (t : Nat) (s : State) : (endRun t s).retired = s.retired := rfl
@[simp] theorem endRun_flitErr (t : Nat) (s : State) : (endRun t s).flitErr = s.flitErr := rfl
@[simp] theorem endRun_watch (t : Nat) (s : State) : (endRun t s).watch = s.watch := rfl
@[simp] theorem endRun_fresh (t : Nat) (s : State) : (endRun t s).fresh = s.fresh := rfl
@[simp] theorem rget_endRun (t : Nat) (s : State) (q : Reg) : rget (endRun t s) q = rget s q := rfl
@[simp] theorem rbits_endRun (t : Nat) (s : State) (q : Reg) (hi lo : Nat) : rbits (endRun t s) q hi lo = rbits s q hi lo := rfl

/-! ### holdAccess: changes `tiles` only -/

@[simp] theorem holdAccess_pending (t : Nat) (a : HeldAcc) (s : State) : (holdAccess t a s).pending = s.pending := rfl
@[simp] theorem holdAccess_regs (t : Nat) (a : HeldAcc) (s : State) : (holdAccess t a s).regs = s.regs := rfl
@[simp] theorem holdAccess_stk (t : Nat) (a : HeldAcc) (s : State) : (holdAccess t a s).stk = s.stk := rfl
@[simp] theorem holdAccess_shadow (t : Nat) (a : HeldAcc) (s : State) : (holdAccess t a s).shadow = s.shadow := rfl
@[simp] theorem holdAccess_restores (t : Nat) (a : HeldAcc) (s : State) : (holdAccess t a s).restores = s.restores := rfl
@[simp] theorem holdAccess_groups (t : Nat) (a : HeldAcc) (s : State) : (holdAccess t a s).groups = s.groups := rfl
@[simp] theorem holdAccess_bn (t : Nat) (a : HeldAcc) (s : State) : (holdAccess t a s).bn = s.bn := rfl
@[simp] theorem holdAccess_blt (t : Nat) (a : HeldAcc) (s : State) : (holdAccess t a s).blt = s.blt := rfl
@[simp] theorem holdAccess_fab (t : Nat) (a : HeldAcc) (s : State) : (holdAccess t a s).fab = s.fab := rfl
@[simp] theorem holdAccess_ep (t : Nat) (a : HeldAcc) (s : State) : (holdAccess t a s).ep = s.ep := rfl
@[simp] theorem holdAccess_snap (t : Nat) (a : HeldAcc) (s : State) : (holdAccess t a s).snap = s.snap := rfl
@[simp] theorem holdAccess_gov (t : Nat) (a : HeldAcc) (s : State) : (holdAccess t a s).gov = s.gov := rfl
@[simp] theorem holdAccess_gate (t : Nat) (a : HeldAcc) (s : State) : (holdAccess t a s).gate = s.gate := rfl
@[simp] theorem holdAccess_cox (t : Nat) (a : HeldAcc) (s : State) : (holdAccess t a s).cox = s.cox := rfl
@[simp] theorem holdAccess_rec_ (t : Nat) (a : HeldAcc) (s : State) : (holdAccess t a s).rec_ = s.rec_ := rfl
@[simp] theorem holdAccess_ports (t : Nat) (a : HeldAcc) (s : State) : (holdAccess t a s).ports = s.ports := rfl
@[simp] theorem holdAccess_passThrough (t : Nat) (a : HeldAcc) (s : State) : (holdAccess t a s).passThrough = s.passThrough := rfl
@[simp] theorem holdAccess_retired (t : Nat) (a : HeldAcc) (s : State) : (holdAccess t a s).retired = s.retired := rfl
@[simp] theorem holdAccess_flitErr (t : Nat) (a : HeldAcc) (s : State) : (holdAccess t a s).flitErr = s.flitErr := rfl
@[simp] theorem holdAccess_watch (t : Nat) (a : HeldAcc) (s : State) : (holdAccess t a s).watch = s.watch := rfl
@[simp] theorem holdAccess_fresh (t : Nat) (a : HeldAcc) (s : State) : (holdAccess t a s).fresh = s.fresh := rfl
@[simp] theorem rget_holdAccess (t : Nat) (a : HeldAcc) (s : State) (q : Reg) : rget (holdAccess t a s) q = rget s q := rfl
@[simp] theorem rbits_holdAccess (t : Nat) (a : HeldAcc) (s : State) (q : Reg) (hi lo : Nat) : rbits (holdAccess t a s) q hi lo = rbits s q hi lo := rfl

/-! ### setCg: changes `groups` only -/

@[simp] theorem setCg_pending (g : Nat) (c : CGroup) (s : State) : (setCg g c s).pending = s.pending := rfl
@[simp] theorem setCg_regs (g : Nat) (c : CGroup) (s : State) : (setCg g c s).regs = s.regs := rfl
@[simp] theorem setCg_tiles (g : Nat) (c : CGroup) (s : State) : (setCg g c s).tiles = s.tiles := rfl
@[simp] theorem setCg_stk (g : Nat) (c : CGroup) (s : State) : (setCg g c s).stk = s.stk := rfl
@[simp] theorem setCg_shadow (g : Nat) (c : CGroup) (s : State) : (setCg g c s).shadow = s.shadow := rfl
@[simp] theorem setCg_restores (g : Nat) (c : CGroup) (s : State) : (setCg g c s).restores = s.restores := rfl
@[simp] theorem setCg_bn (g : Nat) (c : CGroup) (s : State) : (setCg g c s).bn = s.bn := rfl
@[simp] theorem setCg_blt (g : Nat) (c : CGroup) (s : State) : (setCg g c s).blt = s.blt := rfl
@[simp] theorem setCg_fab (g : Nat) (c : CGroup) (s : State) : (setCg g c s).fab = s.fab := rfl
@[simp] theorem setCg_ep (g : Nat) (c : CGroup) (s : State) : (setCg g c s).ep = s.ep := rfl
@[simp] theorem setCg_snap (g : Nat) (c : CGroup) (s : State) : (setCg g c s).snap = s.snap := rfl
@[simp] theorem setCg_gov (g : Nat) (c : CGroup) (s : State) : (setCg g c s).gov = s.gov := rfl
@[simp] theorem setCg_gate (g : Nat) (c : CGroup) (s : State) : (setCg g c s).gate = s.gate := rfl
@[simp] theorem setCg_cox (g : Nat) (c : CGroup) (s : State) : (setCg g c s).cox = s.cox := rfl
@[simp] theorem setCg_rec_ (g : Nat) (c : CGroup) (s : State) : (setCg g c s).rec_ = s.rec_ := rfl
@[simp] theorem setCg_ports (g : Nat) (c : CGroup) (s : State) : (setCg g c s).ports = s.ports := rfl
@[simp] theorem setCg_passThrough (g : Nat) (c : CGroup) (s : State) : (setCg g c s).passThrough = s.passThrough := rfl
@[simp] theorem setCg_retired (g : Nat) (c : CGroup) (s : State) : (setCg g c s).retired = s.retired := rfl
@[simp] theorem setCg_flitErr (g : Nat) (c : CGroup) (s : State) : (setCg g c s).flitErr = s.flitErr := rfl
@[simp] theorem setCg_watch (g : Nat) (c : CGroup) (s : State) : (setCg g c s).watch = s.watch := rfl
@[simp] theorem setCg_fresh (g : Nat) (c : CGroup) (s : State) : (setCg g c s).fresh = s.fresh := rfl
@[simp] theorem rget_setCg (g : Nat) (c : CGroup) (s : State) (q : Reg) : rget (setCg g c s) q = rget s q := rfl
@[simp] theorem rbits_setCg (g : Nat) (c : CGroup) (s : State) (q : Reg) (hi lo : Nat) : rbits (setCg g c s) q hi lo = rbits s q hi lo := rfl
@[simp] theorem tileOf_setCg (g : Nat) (c : CGroup) (s : State) (u : Nat) : tileOf (setCg g c s) u = tileOf s u := rfl

/-! ### setLink: changes `fab` only -/

@[simp] theorem setLink_pending (l : Nat) (k : Link) (s : State) : (setLink l k s).pending = s.pending := rfl
@[simp] theorem setLink_regs (l : Nat) (k : Link) (s : State) : (setLink l k s).regs = s.regs := rfl
@[simp] theorem setLink_tiles (l : Nat) (k : Link) (s : State) : (setLink l k s).tiles = s.tiles := rfl
@[simp] theorem setLink_stk (l : Nat) (k : Link) (s : State) : (setLink l k s).stk = s.stk := rfl
@[simp] theorem setLink_shadow (l : Nat) (k : Link) (s : State) : (setLink l k s).shadow = s.shadow := rfl
@[simp] theorem setLink_restores (l : Nat) (k : Link) (s : State) : (setLink l k s).restores = s.restores := rfl
@[simp] theorem setLink_groups (l : Nat) (k : Link) (s : State) : (setLink l k s).groups = s.groups := rfl
@[simp] theorem setLink_bn (l : Nat) (k : Link) (s : State) : (setLink l k s).bn = s.bn := rfl
@[simp] theorem setLink_blt (l : Nat) (k : Link) (s : State) : (setLink l k s).blt = s.blt := rfl
@[simp] theorem setLink_ep (l : Nat) (k : Link) (s : State) : (setLink l k s).ep = s.ep := rfl
@[simp] theorem setLink_snap (l : Nat) (k : Link) (s : State) : (setLink l k s).snap = s.snap := rfl
@[simp] theorem setLink_gov (l : Nat) (k : Link) (s : State) : (setLink l k s).gov = s.gov := rfl
@[simp] theorem setLink_gate (l : Nat) (k : Link) (s : State) : (setLink l k s).gate = s.gate := rfl
@[simp] theorem setLink_cox (l : Nat) (k : Link) (s : State) : (setLink l k s).cox = s.cox := rfl
@[simp] theorem setLink_rec_ (l : Nat) (k : Link) (s : State) : (setLink l k s).rec_ = s.rec_ := rfl
@[simp] theorem setLink_ports (l : Nat) (k : Link) (s : State) : (setLink l k s).ports = s.ports := rfl
@[simp] theorem setLink_passThrough (l : Nat) (k : Link) (s : State) : (setLink l k s).passThrough = s.passThrough := rfl
@[simp] theorem setLink_retired (l : Nat) (k : Link) (s : State) : (setLink l k s).retired = s.retired := rfl
@[simp] theorem setLink_flitErr (l : Nat) (k : Link) (s : State) : (setLink l k s).flitErr = s.flitErr := rfl
@[simp] theorem setLink_watch (l : Nat) (k : Link) (s : State) : (setLink l k s).watch = s.watch := rfl
@[simp] theorem setLink_fresh (l : Nat) (k : Link) (s : State) : (setLink l k s).fresh = s.fresh := rfl
@[simp] theorem rget_setLink (l : Nat) (k : Link) (s : State) (q : Reg) : rget (setLink l k s) q = rget s q := rfl
@[simp] theorem rbits_setLink (l : Nat) (k : Link) (s : State) (q : Reg) (hi lo : Nat) : rbits (setLink l k s) q hi lo = rbits s q hi lo := rfl
@[simp] theorem tileOf_setLink (l : Nat) (k : Link) (s : State) (u : Nat) : tileOf (setLink l k s) u = tileOf s u := rfl

/-! ### setColls: changes `fab regs` only -/

@[simp] theorem setColls_pending (cs : List Coll) (s : State) : (setColls cs s).pending = s.pending := rfl
@[simp] theorem setColls_tiles (cs : List Coll) (s : State) : (setColls cs s).tiles = s.tiles := rfl
@[simp] theorem setColls_stk (cs : List Coll) (s : State) : (setColls cs s).stk = s.stk := rfl
@[simp] theorem setColls_shadow (cs : List Coll) (s : State) : (setColls cs s).shadow = s.shadow := rfl
@[simp] theorem setColls_restores (cs : List Coll) (s : State) : (setColls cs s).restores = s.restores := rfl
@[simp] theorem setColls_groups (cs : List Coll) (s : State) : (setColls cs s).groups = s.groups := rfl
@[simp] theorem setColls_bn (cs : List Coll) (s : State) : (setColls cs s).bn = s.bn := rfl
@[simp] theorem setColls_blt (cs : List Coll) (s : State) : (setColls cs s).blt = s.blt := rfl
@[simp] theorem setColls_ep (cs : List Coll) (s : State) : (setColls cs s).ep = s.ep := rfl
@[simp] theorem setColls_snap (cs : List Coll) (s : State) : (setColls cs s).snap = s.snap := rfl
@[simp] theorem setColls_gov (cs : List Coll) (s : State) : (setColls cs s).gov = s.gov := rfl
@[simp] theorem setColls_gate (cs : List Coll) (s : State) : (setColls cs s).gate = s.gate := rfl
@[simp] theorem setColls_cox (cs : List Coll) (s : State) : (setColls cs s).cox = s.cox := rfl
@[simp] theorem setColls_rec_ (cs : List Coll) (s : State) : (setColls cs s).rec_ = s.rec_ := rfl
@[simp] theorem setColls_ports (cs : List Coll) (s : State) : (setColls cs s).ports = s.ports := rfl
@[simp] theorem setColls_passThrough (cs : List Coll) (s : State) : (setColls cs s).passThrough = s.passThrough := rfl
@[simp] theorem setColls_retired (cs : List Coll) (s : State) : (setColls cs s).retired = s.retired := rfl
@[simp] theorem setColls_flitErr (cs : List Coll) (s : State) : (setColls cs s).flitErr = s.flitErr := rfl
@[simp] theorem setColls_watch (cs : List Coll) (s : State) : (setColls cs s).watch = s.watch := rfl
@[simp] theorem setColls_fresh (cs : List Coll) (s : State) : (setColls cs s).fresh = s.fresh := rfl
@[simp] theorem tileOf_setColls (cs : List Coll) (s : State) (u : Nat) : tileOf (setColls cs s) u = tileOf s u := rfl

/-! ### setDie: changes `gov` only -/

@[simp] theorem setDie_pending (d : Nat) (x : Die) (s : State) : (setDie d x s).pending = s.pending := rfl
@[simp] theorem setDie_regs (d : Nat) (x : Die) (s : State) : (setDie d x s).regs = s.regs := rfl
@[simp] theorem setDie_tiles (d : Nat) (x : Die) (s : State) : (setDie d x s).tiles = s.tiles := rfl
@[simp] theorem setDie_stk (d : Nat) (x : Die) (s : State) : (setDie d x s).stk = s.stk := rfl
@[simp] theorem setDie_shadow (d : Nat) (x : Die) (s : State) : (setDie d x s).shadow = s.shadow := rfl
@[simp] theorem setDie_restores (d : Nat) (x : Die) (s : State) : (setDie d x s).restores = s.restores := rfl
@[simp] theorem setDie_groups (d : Nat) (x : Die) (s : State) : (setDie d x s).groups = s.groups := rfl
@[simp] theorem setDie_bn (d : Nat) (x : Die) (s : State) : (setDie d x s).bn = s.bn := rfl
@[simp] theorem setDie_blt (d : Nat) (x : Die) (s : State) : (setDie d x s).blt = s.blt := rfl
@[simp] theorem setDie_fab (d : Nat) (x : Die) (s : State) : (setDie d x s).fab = s.fab := rfl
@[simp] theorem setDie_ep (d : Nat) (x : Die) (s : State) : (setDie d x s).ep = s.ep := rfl
@[simp] theorem setDie_snap (d : Nat) (x : Die) (s : State) : (setDie d x s).snap = s.snap := rfl
@[simp] theorem setDie_gate (d : Nat) (x : Die) (s : State) : (setDie d x s).gate = s.gate := rfl
@[simp] theorem setDie_cox (d : Nat) (x : Die) (s : State) : (setDie d x s).cox = s.cox := rfl
@[simp] theorem setDie_rec_ (d : Nat) (x : Die) (s : State) : (setDie d x s).rec_ = s.rec_ := rfl
@[simp] theorem setDie_ports (d : Nat) (x : Die) (s : State) : (setDie d x s).ports = s.ports := rfl
@[simp] theorem setDie_passThrough (d : Nat) (x : Die) (s : State) : (setDie d x s).passThrough = s.passThrough := rfl
@[simp] theorem setDie_retired (d : Nat) (x : Die) (s : State) : (setDie d x s).retired = s.retired := rfl
@[simp] theorem setDie_flitErr (d : Nat) (x : Die) (s : State) : (setDie d x s).flitErr = s.flitErr := rfl
@[simp] theorem setDie_watch (d : Nat) (x : Die) (s : State) : (setDie d x s).watch = s.watch := rfl
@[simp] theorem setDie_fresh (d : Nat) (x : Die) (s : State) : (setDie d x s).fresh = s.fresh := rfl
@[simp] theorem rget_setDie (d : Nat) (x : Die) (s : State) (q : Reg) : rget (setDie d x s) q = rget s q := rfl
@[simp] theorem rbits_setDie (d : Nat) (x : Die) (s : State) (q : Reg) (hi lo : Nat) : rbits (setDie d x s) q hi lo = rbits s q hi lo := rfl
@[simp] theorem tileOf_setDie (d : Nat) (x : Die) (s : State) (u : Nat) : tileOf (setDie d x s) u = tileOf s u := rfl

/-! ### setLearn: changes `gov` only -/

@[simp] theorem setLearn_pending (d k : Nat) (x : Learn) (s : State) : (setLearn d k x s).pending = s.pending := rfl
@[simp] theorem setLearn_regs (d k : Nat) (x : Learn) (s : State) : (setLearn d k x s).regs = s.regs := rfl
@[simp] theorem setLearn_tiles (d k : Nat) (x : Learn) (s : State) : (setLearn d k x s).tiles = s.tiles := rfl
@[simp] theorem setLearn_stk (d k : Nat) (x : Learn) (s : State) : (setLearn d k x s).stk = s.stk := rfl
@[simp] theorem setLearn_shadow (d k : Nat) (x : Learn) (s : State) : (setLearn d k x s).shadow = s.shadow := rfl
@[simp] theorem setLearn_restores (d k : Nat) (x : Learn) (s : State) : (setLearn d k x s).restores = s.restores := rfl
@[simp] theorem setLearn_groups (d k : Nat) (x : Learn) (s : State) : (setLearn d k x s).groups = s.groups := rfl
@[simp] theorem setLearn_bn (d k : Nat) (x : Learn) (s : State) : (setLearn d k x s).bn = s.bn := rfl
@[simp] theorem setLearn_blt (d k : Nat) (x : Learn) (s : State) : (setLearn d k x s).blt = s.blt := rfl
@[simp] theorem setLearn_fab (d k : Nat) (x : Learn) (s : State) : (setLearn d k x s).fab = s.fab := rfl
@[simp] theorem setLearn_ep (d k : Nat) (x : Learn) (s : State) : (setLearn d k x s).ep = s.ep := rfl
@[simp] theorem setLearn_snap (d k : Nat) (x : Learn) (s : State) : (setLearn d k x s).snap = s.snap := rfl
@[simp] theorem setLearn_gate (d k : Nat) (x : Learn) (s : State) : (setLearn d k x s).gate = s.gate := rfl
@[simp] theorem setLearn_cox (d k : Nat) (x : Learn) (s : State) : (setLearn d k x s).cox = s.cox := rfl
@[simp] theorem setLearn_rec_ (d k : Nat) (x : Learn) (s : State) : (setLearn d k x s).rec_ = s.rec_ := rfl
@[simp] theorem setLearn_ports (d k : Nat) (x : Learn) (s : State) : (setLearn d k x s).ports = s.ports := rfl
@[simp] theorem setLearn_passThrough (d k : Nat) (x : Learn) (s : State) : (setLearn d k x s).passThrough = s.passThrough := rfl
@[simp] theorem setLearn_retired (d k : Nat) (x : Learn) (s : State) : (setLearn d k x s).retired = s.retired := rfl
@[simp] theorem setLearn_flitErr (d k : Nat) (x : Learn) (s : State) : (setLearn d k x s).flitErr = s.flitErr := rfl
@[simp] theorem setLearn_watch (d k : Nat) (x : Learn) (s : State) : (setLearn d k x s).watch = s.watch := rfl
@[simp] theorem setLearn_fresh (d k : Nat) (x : Learn) (s : State) : (setLearn d k x s).fresh = s.fresh := rfl
@[simp] theorem rget_setLearn (d k : Nat) (x : Learn) (s : State) (q : Reg) : rget (setLearn d k x s) q = rget s q := rfl
@[simp] theorem rbits_setLearn (d k : Nat) (x : Learn) (s : State) (q : Reg) (hi lo : Nat) : rbits (setLearn d k x s) q hi lo = rbits s q hi lo := rfl
@[simp] theorem tileOf_setLearn (d k : Nat) (x : Learn) (s : State) (u : Nat) : tileOf (setLearn d k x s) u = tileOf s u := rfl

/-! ### setBd: changes `bn` only -/

@[simp] theorem setBd_pending (n : Nat) (b : BaseDie) (s : State) : (setBd n b s).pending = s.pending := rfl
@[simp] theorem setBd_regs (n : Nat) (b : BaseDie) (s : State) : (setBd n b s).regs = s.regs := rfl
@[simp] theorem setBd_tiles (n : Nat) (b : BaseDie) (s : State) : (setBd n b s).tiles = s.tiles := rfl
@[simp] theorem setBd_stk (n : Nat) (b : BaseDie) (s : State) : (setBd n b s).stk = s.stk := rfl
@[simp] theorem setBd_shadow (n : Nat) (b : BaseDie) (s : State) : (setBd n b s).shadow = s.shadow := rfl
@[simp] theorem setBd_restores (n : Nat) (b : BaseDie) (s : State) : (setBd n b s).restores = s.restores := rfl
@[simp] theorem setBd_groups (n : Nat) (b : BaseDie) (s : State) : (setBd n b s).groups = s.groups := rfl
@[simp] theorem setBd_blt (n : Nat) (b : BaseDie) (s : State) : (setBd n b s).blt = s.blt := rfl
@[simp] theorem setBd_fab (n : Nat) (b : BaseDie) (s : State) : (setBd n b s).fab = s.fab := rfl
@[simp] theorem setBd_ep (n : Nat) (b : BaseDie) (s : State) : (setBd n b s).ep = s.ep := rfl
@[simp] theorem setBd_snap (n : Nat) (b : BaseDie) (s : State) : (setBd n b s).snap = s.snap := rfl
@[simp] theorem setBd_gov (n : Nat) (b : BaseDie) (s : State) : (setBd n b s).gov = s.gov := rfl
@[simp] theorem setBd_gate (n : Nat) (b : BaseDie) (s : State) : (setBd n b s).gate = s.gate := rfl
@[simp] theorem setBd_cox (n : Nat) (b : BaseDie) (s : State) : (setBd n b s).cox = s.cox := rfl
@[simp] theorem setBd_rec_ (n : Nat) (b : BaseDie) (s : State) : (setBd n b s).rec_ = s.rec_ := rfl
@[simp] theorem setBd_ports (n : Nat) (b : BaseDie) (s : State) : (setBd n b s).ports = s.ports := rfl
@[simp] theorem setBd_passThrough (n : Nat) (b : BaseDie) (s : State) : (setBd n b s).passThrough = s.passThrough := rfl
@[simp] theorem setBd_retired (n : Nat) (b : BaseDie) (s : State) : (setBd n b s).retired = s.retired := rfl
@[simp] theorem setBd_flitErr (n : Nat) (b : BaseDie) (s : State) : (setBd n b s).flitErr = s.flitErr := rfl
@[simp] theorem setBd_watch (n : Nat) (b : BaseDie) (s : State) : (setBd n b s).watch = s.watch := rfl
@[simp] theorem setBd_fresh (n : Nat) (b : BaseDie) (s : State) : (setBd n b s).fresh = s.fresh := rfl
@[simp] theorem rget_setBd (n : Nat) (b : BaseDie) (s : State) (q : Reg) : rget (setBd n b s) q = rget s q := rfl
@[simp] theorem rbits_setBd (n : Nat) (b : BaseDie) (s : State) (q : Reg) (hi lo : Nat) : rbits (setBd n b s) q hi lo = rbits s q hi lo := rfl
@[simp] theorem tileOf_setBd (n : Nat) (b : BaseDie) (s : State) (u : Nat) : tileOf (setBd n b s) u = tileOf s u := rfl

/-! ### stagingWrite: changes `cox` only -/

@[simp] theorem stagingWrite_pending (o : Nat) (bs : List Byte) (s : State) : (stagingWrite o bs s).pending = s.pending := rfl
@[simp] theorem stagingWrite_regs (o : Nat) (bs : List Byte) (s : State) : (stagingWrite o bs s).regs = s.regs := rfl
@[simp] theorem stagingWrite_tiles (o : Nat) (bs : List Byte) (s : State) : (stagingWrite o bs s).tiles = s.tiles := rfl
@[simp] theorem stagingWrite_stk (o : Nat) (bs : List Byte) (s : State) : (stagingWrite o bs s).stk = s.stk := rfl
@[simp] theorem stagingWrite_shadow (o : Nat) (bs : List Byte) (s : State) : (stagingWrite o bs s).shadow = s.shadow := rfl
@[simp] theorem stagingWrite_restores (o : Nat) (bs : List Byte) (s : State) : (stagingWrite o bs s).restores = s.restores := rfl
@[simp] theorem stagingWrite_groups (o : Nat) (bs : List Byte) (s : State) : (stagingWrite o bs s).groups = s.groups := rfl
@[simp] theorem stagingWrite_bn (o : Nat) (bs : List Byte) (s : State) : (stagingWrite o bs s).bn = s.bn := rfl
@[simp] theorem stagingWrite_blt (o : Nat) (bs : List Byte) (s : State) : (stagingWrite o bs s).blt = s.blt := rfl
@[simp] theorem stagingWrite_fab (o : Nat) (bs : List Byte) (s : State) : (stagingWrite o bs s).fab = s.fab := rfl
@[simp] theorem stagingWrite_ep (o : Nat) (bs : List Byte) (s : State) : (stagingWrite o bs s).ep = s.ep := rfl
@[simp] theorem stagingWrite_snap (o : Nat) (bs : List Byte) (s : State) : (stagingWrite o bs s).snap = s.snap := rfl
@[simp] theorem stagingWrite_gov (o : Nat) (bs : List Byte) (s : State) : (stagingWrite o bs s).gov = s.gov := rfl
@[simp] theorem stagingWrite_gate (o : Nat) (bs : List Byte) (s : State) : (stagingWrite o bs s).gate = s.gate := rfl
@[simp] theorem stagingWrite_rec_ (o : Nat) (bs : List Byte) (s : State) : (stagingWrite o bs s).rec_ = s.rec_ := rfl
@[simp] theorem stagingWrite_ports (o : Nat) (bs : List Byte) (s : State) : (stagingWrite o bs s).ports = s.ports := rfl
@[simp] theorem stagingWrite_passThrough (o : Nat) (bs : List Byte) (s : State) : (stagingWrite o bs s).passThrough = s.passThrough := rfl
@[simp] theorem stagingWrite_retired (o : Nat) (bs : List Byte) (s : State) : (stagingWrite o bs s).retired = s.retired := rfl
@[simp] theorem stagingWrite_flitErr (o : Nat) (bs : List Byte) (s : State) : (stagingWrite o bs s).flitErr = s.flitErr := rfl
@[simp] theorem stagingWrite_watch (o : Nat) (bs : List Byte) (s : State) : (stagingWrite o bs s).watch = s.watch := rfl
@[simp] theorem stagingWrite_fresh (o : Nat) (bs : List Byte) (s : State) : (stagingWrite o bs s).fresh = s.fresh := rfl
@[simp] theorem rget_stagingWrite (o : Nat) (bs : List Byte) (s : State) (q : Reg) : rget (stagingWrite o bs s) q = rget s q := rfl
@[simp] theorem rbits_stagingWrite (o : Nat) (bs : List Byte) (s : State) (q : Reg) (hi lo : Nat) : rbits (stagingWrite o bs s) q hi lo = rbits s q hi lo := rfl
@[simp] theorem tileOf_stagingWrite (o : Nat) (bs : List Byte) (s : State) (u : Nat) : tileOf (stagingWrite o bs s) u = tileOf s u := rfl

/-! ### reply: changes `ports` only -/

@[simp] theorem reply_pending (bs : List Byte) (s : State) : (reply bs s).pending = s.pending := rfl
@[simp] theorem reply_regs (bs : List Byte) (s : State) : (reply bs s).regs = s.regs := rfl
@[simp] theorem reply_tiles (bs : List Byte) (s : State) : (reply bs s).tiles = s.tiles := rfl
@[simp] theorem reply_stk (bs : List Byte) (s : State) : (reply bs s).stk = s.stk := rfl
@[simp] theorem reply_shadow (bs : List Byte) (s : State) : (reply bs s).shadow = s.shadow := rfl
@[simp] theorem reply_restores (bs : List Byte) (s : State) : (reply bs s).restores = s.restores := rfl
@[simp] theorem reply_groups (bs : List Byte) (s : State) : (reply bs s).groups = s.groups := rfl
@[simp] theorem reply_bn (bs : List Byte) (s : State) : (reply bs s).bn = s.bn := rfl
@[simp] theorem reply_blt (bs : List Byte) (s : State) : (reply bs s).blt = s.blt := rfl
@[simp] theorem reply_fab (bs : List Byte) (s : State) : (reply bs s).fab = s.fab := rfl
@[simp] theorem reply_ep (bs : List Byte) (s : State) : (reply bs s).ep = s.ep := rfl
@[simp] theorem reply_snap (bs : List Byte) (s : State) : (reply bs s).snap = s.snap := rfl
@[simp] theorem reply_gov (bs : List Byte) (s : State) : (reply bs s).gov = s.gov := rfl
@[simp] theorem reply_gate (bs : List Byte) (s : State) : (reply bs s).gate = s.gate := rfl
@[simp] theorem reply_cox (bs : List Byte) (s : State) : (reply bs s).cox = s.cox := rfl
@[simp] theorem reply_rec_ (bs : List Byte) (s : State) : (reply bs s).rec_ = s.rec_ := rfl
@[simp] theorem reply_passThrough (bs : List Byte) (s : State) : (reply bs s).passThrough = s.passThrough := rfl
@[simp] theorem reply_retired (bs : List Byte) (s : State) : (reply bs s).retired = s.retired := rfl
@[simp] theorem reply_flitErr (bs : List Byte) (s : State) : (reply bs s).flitErr = s.flitErr := rfl
@[simp] theorem reply_watch (bs : List Byte) (s : State) : (reply bs s).watch = s.watch := rfl
@[simp] theorem reply_fresh (bs : List Byte) (s : State) : (reply bs s).fresh = s.fresh := rfl
@[simp] theorem rget_reply (bs : List Byte) (s : State) (q : Reg) : rget (reply bs s) q = rget s q := rfl
@[simp] theorem rbits_reply (bs : List Byte) (s : State) (q : Reg) (hi lo : Nat) : rbits (reply bs s) q hi lo = rbits s q hi lo := rfl
@[simp] theorem tileOf_reply (bs : List Byte) (s : State) (u : Nat) : tileOf (reply bs s) u = tileOf s u := rfl

/-! ### deliver: changes `ports` only -/

@[simp] theorem deliver_pending (d : PBytes) (s : State) : (deliver d s).pending = s.pending := rfl
@[simp] theorem deliver_regs (d : PBytes) (s : State) : (deliver d s).regs = s.regs := rfl
@[simp] theorem deliver_tiles (d : PBytes) (s : State) : (deliver d s).tiles = s.tiles := rfl
@[simp] theorem deliver_stk (d : PBytes) (s : State) : (deliver d s).stk = s.stk := rfl
@[simp] theorem deliver_shadow (d : PBytes) (s : State) : (deliver d s).shadow = s.shadow := rfl
@[simp] theorem deliver_restores (d : PBytes) (s : State) : (deliver d s).restores = s.restores := rfl
@[simp] theorem deliver_groups (d : PBytes) (s : State) : (deliver d s).groups = s.groups := rfl
@[simp] theorem deliver_bn (d : PBytes) (s : State) : (deliver d s).bn = s.bn := rfl
@[simp] theorem deliver_blt (d : PBytes) (s : State) : (deliver d s).blt = s.blt := rfl
@[simp] theorem deliver_fab (d : PBytes) (s : State) : (deliver d s).fab = s.fab := rfl
@[simp] theorem deliver_ep (d : PBytes) (s : State) : (deliver d s).ep = s.ep := rfl
@[simp] theorem deliver_snap (d : PBytes) (s : State) : (deliver d s).snap = s.snap := rfl
@[simp] theorem deliver_gov (d : PBytes) (s : State) : (deliver d s).gov = s.gov := rfl
@[simp] theorem deliver_gate (d : PBytes) (s : State) : (deliver d s).gate = s.gate := rfl
@[simp] theorem deliver_cox (d : PBytes) (s : State) : (deliver d s).cox = s.cox := rfl
@[simp] theorem deliver_rec_ (d : PBytes) (s : State) : (deliver d s).rec_ = s.rec_ := rfl
@[simp] theorem deliver_passThrough (d : PBytes) (s : State) : (deliver d s).passThrough = s.passThrough := rfl
@[simp] theorem deliver_retired (d : PBytes) (s : State) : (deliver d s).retired = s.retired := rfl
@[simp] theorem deliver_flitErr (d : PBytes) (s : State) : (deliver d s).flitErr = s.flitErr := rfl
@[simp] theorem deliver_watch (d : PBytes) (s : State) : (deliver d s).watch = s.watch := rfl
@[simp] theorem deliver_fresh (d : PBytes) (s : State) : (deliver d s).fresh = s.fresh := rfl
@[simp] theorem rget_deliver (d : PBytes) (s : State) (q : Reg) : rget (deliver d s) q = rget s q := rfl
@[simp] theorem rbits_deliver (d : PBytes) (s : State) (q : Reg) (hi lo : Nat) : rbits (deliver d s) q hi lo = rbits s q hi lo := rfl
@[simp] theorem tileOf_deliver (d : PBytes) (s : State) (u : Nat) : tileOf (deliver d s) u = tileOf s u := rfl

/-! ### jtagLoad: changes `ports` only -/

@[simp] theorem jtagLoad_pending (v : BitVec 32) (s : State) : (jtagLoad v s).pending = s.pending := rfl
@[simp] theorem jtagLoad_regs (v : BitVec 32) (s : State) : (jtagLoad v s).regs = s.regs := rfl
@[simp] theorem jtagLoad_tiles (v : BitVec 32) (s : State) : (jtagLoad v s).tiles = s.tiles := rfl
@[simp] theorem jtagLoad_stk (v : BitVec 32) (s : State) : (jtagLoad v s).stk = s.stk := rfl
@[simp] theorem jtagLoad_shadow (v : BitVec 32) (s : State) : (jtagLoad v s).shadow = s.shadow := rfl
@[simp] theorem jtagLoad_restores (v : BitVec 32) (s : State) : (jtagLoad v s).restores = s.restores := rfl
@[simp] theorem jtagLoad_groups (v : BitVec 32) (s : State) : (jtagLoad v s).groups = s.groups := rfl
@[simp] theorem jtagLoad_bn (v : BitVec 32) (s : State) : (jtagLoad v s).bn = s.bn := rfl
@[simp] theorem jtagLoad_blt (v : BitVec 32) (s : State) : (jtagLoad v s).blt = s.blt := rfl
@[simp] theorem jtagLoad_fab (v : BitVec 32) (s : State) : (jtagLoad v s).fab = s.fab := rfl
@[simp] theorem jtagLoad_ep (v : BitVec 32) (s : State) : (jtagLoad v s).ep = s.ep := rfl
@[simp] theorem jtagLoad_snap (v : BitVec 32) (s : State) : (jtagLoad v s).snap = s.snap := rfl
@[simp] theorem jtagLoad_gov (v : BitVec 32) (s : State) : (jtagLoad v s).gov = s.gov := rfl
@[simp] theorem jtagLoad_gate (v : BitVec 32) (s : State) : (jtagLoad v s).gate = s.gate := rfl
@[simp] theorem jtagLoad_cox (v : BitVec 32) (s : State) : (jtagLoad v s).cox = s.cox := rfl
@[simp] theorem jtagLoad_rec_ (v : BitVec 32) (s : State) : (jtagLoad v s).rec_ = s.rec_ := rfl
@[simp] theorem jtagLoad_passThrough (v : BitVec 32) (s : State) : (jtagLoad v s).passThrough = s.passThrough := rfl
@[simp] theorem jtagLoad_retired (v : BitVec 32) (s : State) : (jtagLoad v s).retired = s.retired := rfl
@[simp] theorem jtagLoad_flitErr (v : BitVec 32) (s : State) : (jtagLoad v s).flitErr = s.flitErr := rfl
@[simp] theorem jtagLoad_watch (v : BitVec 32) (s : State) : (jtagLoad v s).watch = s.watch := rfl
@[simp] theorem jtagLoad_fresh (v : BitVec 32) (s : State) : (jtagLoad v s).fresh = s.fresh := rfl
@[simp] theorem rget_jtagLoad (v : BitVec 32) (s : State) (q : Reg) : rget (jtagLoad v s) q = rget s q := rfl
@[simp] theorem rbits_jtagLoad (v : BitVec 32) (s : State) (q : Reg) (hi lo : Nat) : rbits (jtagLoad v s) q hi lo = rbits s q hi lo := rfl
@[simp] theorem tileOf_jtagLoad (v : BitVec 32) (s : State) (u : Nat) : tileOf (jtagLoad v s) u = tileOf s u := rfl

/-! ### clearRows: changes `stk` only -/

@[simp] theorem clearRows_pending (f : Nat → Bool) (s : State) : (clearRows f s).pending = s.pending := rfl
@[simp] theorem clearRows_regs (f : Nat → Bool) (s : State) : (clearRows f s).regs = s.regs := rfl
@[simp] theorem clearRows_tiles (f : Nat → Bool) (s : State) : (clearRows f s).tiles = s.tiles := rfl
@[simp] theorem clearRows_shadow (f : Nat → Bool) (s : State) : (clearRows f s).shadow = s.shadow := rfl
@[simp] theorem clearRows_restores (f : Nat → Bool) (s : State) : (clearRows f s).restores = s.restores := rfl
@[simp] theorem clearRows_groups (f : Nat → Bool) (s : State) : (clearRows f s).groups = s.groups := rfl
@[simp] theorem clearRows_bn (f : Nat → Bool) (s : State) : (clearRows f s).bn = s.bn := rfl
@[simp] theorem clearRows_blt (f : Nat → Bool) (s : State) : (clearRows f s).blt = s.blt := rfl
@[simp] theorem clearRows_fab (f : Nat → Bool) (s : State) : (clearRows f s).fab = s.fab := rfl
@[simp] theorem clearRows_ep (f : Nat → Bool) (s : State) : (clearRows f s).ep = s.ep := rfl
@[simp] theorem clearRows_snap (f : Nat → Bool) (s : State) : (clearRows f s).snap = s.snap := rfl
@[simp] theorem clearRows_gov (f : Nat → Bool) (s : State) : (clearRows f s).gov = s.gov := rfl
@[simp] theorem clearRows_gate (f : Nat → Bool) (s : State) : (clearRows f s).gate = s.gate := rfl
@[simp] theorem clearRows_cox (f : Nat → Bool) (s : State) : (clearRows f s).cox = s.cox := rfl
@[simp] theorem clearRows_rec_ (f : Nat → Bool) (s : State) : (clearRows f s).rec_ = s.rec_ := rfl
@[simp] theorem clearRows_ports (f : Nat → Bool) (s : State) : (clearRows f s).ports = s.ports := rfl
@[simp] theorem clearRows_passThrough (f : Nat → Bool) (s : State) : (clearRows f s).passThrough = s.passThrough := rfl
@[simp] theorem clearRows_retired (f : Nat → Bool) (s : State) : (clearRows f s).retired = s.retired := rfl
@[simp] theorem clearRows_flitErr (f : Nat → Bool) (s : State) : (clearRows f s).flitErr = s.flitErr := rfl
@[simp] theorem clearRows_watch (f : Nat → Bool) (s : State) : (clearRows f s).watch = s.watch := rfl
@[simp] theorem clearRows_fresh (f : Nat → Bool) (s : State) : (clearRows f s).fresh = s.fresh := rfl
@[simp] theorem rget_clearRows (f : Nat → Bool) (s : State) (q : Reg) : rget (clearRows f s) q = rget s q := rfl
@[simp] theorem rbits_clearRows (f : Nat → Bool) (s : State) (q : Reg) (hi lo : Nat) : rbits (clearRows f s) q hi lo = rbits s q hi lo := rfl
@[simp] theorem tileOf_clearRows (f : Nat → Bool) (s : State) (u : Nat) : tileOf (clearRows f s) u = tileOf s u := rfl

/-! ### Taking the front command off the queue -/

@[simp] theorem rget_pending (s : State) (q : List Instr) (r : Reg) : rget { s with pending := q } r = rget s r := rfl
@[simp] theorem tileOf_pending (s : State) (q : List Instr) (t : Nat) : tileOf { s with pending := q } t = tileOf s t := rfl

end Sys2Proof.Machine
end

