-- ==== Sys2Proof/Laws/Regs.lean ====
section
/-! SUPPORT. Laws of bit fields and of the register file: a field reads as what was written to it, and a write leaves every other field and every other
register. -/

namespace Sys2Proof

/-! ### Bit fields -/

theorem testBit_bits {n : Nat} (w : BitVec n) (hi lo i : Nat) : (bits w hi lo).testBit i = (decide (i < hi + 1 - lo) && w.getLsbD (lo + i)) := by
  simp [bits, Nat.testBit_mod_two_pow, Nat.testBit_shiftRight, BitVec.getLsbD]

theorem getLsbD_setBits {n : Nat} (w : BitVec n) (hi lo v i : Nat) :
    (setBits w hi lo v).getLsbD i = (decide (i < n) && if lo ≤ i ∧ i < hi + 1 then v.testBit (i - lo) else w.getLsbD i) := by
  by_cases hn : i < n
  · simp only [setBits, BitVec.getLsbD_or, BitVec.getLsbD_and, BitVec.getLsbD_not, BitVec.getLsbD_ofNat, Nat.testBit_shiftLeft, Nat.testBit_two_pow_sub_one,
      Nat.testBit_mod_two_pow, hn, decide_true, Bool.true_and, ge_iff_le]
    by_cases h1 : lo ≤ i
    · by_cases h2 : i < hi + 1
      · have h3 : i - lo < hi + 1 - lo := by omega
        simp [h1, h2, h3]
      · have h3 : ¬ i - lo < hi + 1 - lo := by omega
        simp [h1, h2, h3]
    · simp [h1]
  · have h := BitVec.getLsbD_of_ge (setBits w hi lo v) i (by omega)
    simp [h, hn]

/-- A field reads as the low bits of what was written to it. -/
theorem bits_setBits_same {n : Nat} (w : BitVec n) (hi lo v : Nat) (h : hi < n) : bits (setBits w hi lo v) hi lo = v % 2 ^ (hi + 1 - lo) := by
  apply Nat.eq_of_testBit_eq
  intro i
  rw [testBit_bits, getLsbD_setBits, Nat.testBit_mod_two_pow]
  by_cases hi' : i < hi + 1 - lo
  · have h1 : lo + i < n := by omega
    have h2 : lo + i < hi + 1 := by omega
    simp [hi', h1, h2]
  · simp [hi']

/-- A write of one field leaves a field above it or below it. -/
theorem bits_setBits_other {n : Nat} (w : BitVec n) (hi lo v hi' lo' : Nat) (h : hi < lo' ∨ hi' < lo) :
    bits (setBits w hi lo v) hi' lo' = bits w hi' lo' := by
  apply Nat.eq_of_testBit_eq
  intro i
  rw [testBit_bits, testBit_bits, getLsbD_setBits]
  by_cases hi'' : i < hi' + 1 - lo'
  · have h1 : ¬ (lo ≤ lo' + i ∧ lo' + i < hi + 1) := by omega
    rw [if_neg h1]
    by_cases hn : lo' + i < n
    · simp [hn]
    · have := BitVec.getLsbD_of_ge w (lo' + i) (by omega)
      simp [hn, this]
  · simp [hi'']

theorem bits_lt {n : Nat} (w : BitVec n) (hi lo : Nat) : bits w hi lo < 2 ^ (hi + 1 - lo) := Nat.mod_lt _ (Nat.two_pow_pos _)

theorem bit_setBit_same {n : Nat} (w : BitVec n) (i : Nat) (b : Bool) (h : i < n) : bit (setBit w i b) i = b := by
  simp only [bit, setBit, getLsbD_setBits, h, decide_true, Bool.true_and, Nat.le_refl, Nat.lt_succ_self, and_self, if_true, Nat.sub_self]
  cases b <;> rfl

theorem bit_setBit_other {n : Nat} (w : BitVec n) (i j : Nat) (b : Bool) (h : j ≠ i) : bit (setBit w i b) j = bit w j := by
  have h1 : ¬ (i ≤ j ∧ j < i + 1) := by omega
  simp only [bit, setBit, getLsbD_setBits, if_neg h1]
  by_cases hn : j < n
  · simp [hn]
  · simp [BitVec.getLsbD_of_ge w j (by omega)]

namespace Machine

/-! ### Registers -/

@[simp] theorem rget_rset_same (r : Reg) (v : Word) (s : State) : rget (rset r v s) r = v := SMap.get_put_same _ _ _ _

theorem rget_rset_other (r q : Reg) (v : Word) (s : State) (h : q.off ≠ r.off) : rget (rset r v s) q = rget s q := by
  unfold rget rset SMap.put
  split
  · exact SMap.get_erase_other _ _ _ _ h
  · rw [SMap.get_insert_other _ _ _ _ _ h, SMap.get_erase_other _ _ _ _ h]

@[simp] theorem rget_rsetBits_same (r : Reg) (hi lo v : Nat) (s : State) : rget (rsetBits r hi lo v s) r = setBits (rget s r) hi lo v := rget_rset_same _ _ _
theorem rget_rsetBits_other (r q : Reg) (hi lo v : Nat) (s : State) (h : q.off ≠ r.off) : rget (rsetBits r hi lo v s) q = rget s q := rget_rset_other r q _ s h
@[simp] theorem rget_rsetBit_same (r : Reg) (i : Nat) (b : Bool) (s : State) : rget (rsetBit r i b s) r = setBit (rget s r) i b := rget_rset_same _ _ _
theorem rget_rsetBit_other (r q : Reg) (i : Nat) (b : Bool) (s : State) (h : q.off ≠ r.off) : rget (rsetBit r i b s) q = rget s q := rget_rset_other r q _ s h
theorem rget_rcount_other (r q : Reg) (w n : Nat) (s : State) (h : q.off ≠ r.off) : rget (rcount r w n s) q = rget s q := rget_rset_other r q _ s h

theorem rbits_rset_other (r q : Reg) (v : Word) (s : State) (hi lo : Nat) (h : q.off ≠ r.off) : rbits (rset r v s) q hi lo = rbits s q hi lo := by
  unfold rbits; rw [rget_rset_other r q v s h]

/-- A written field reads as the low bits of what was written. -/
theorem rbits_rsetBits_same (r : Reg) (hi lo v : Nat) (s : State) (h : hi < 64) : rbits (rsetBits r hi lo v s) r hi lo = v % 2 ^ (hi + 1 - lo) := by
  unfold rbits; rw [rget_rsetBits_same, bits_setBits_same _ _ _ _ h]

/-- A write of one field leaves the register's other fields. -/
theorem rbits_rsetBits_field (r : Reg) (hi lo v hi' lo' : Nat) (s : State) (h : hi < lo' ∨ hi' < lo) : rbits (rsetBits r hi lo v s) r hi' lo' = rbits s r hi' lo' := by
  unfold rbits; rw [rget_rsetBits_same, bits_setBits_other _ _ _ _ _ _ h]

theorem rbits_rsetBits_other (r q : Reg) (hi lo v hi' lo' : Nat) (s : State) (h : q.off ≠ r.off) : rbits (rsetBits r hi lo v s) q hi' lo' = rbits s q hi' lo' := by
  unfold rbits; rw [rget_rsetBits_other r q hi lo v s h]

/-- A counter wraps at its width (R10). -/
theorem rbits_rcount_same (r : Reg) (w n : Nat) (s : State) (h : 0 < w) (h' : w ≤ 64) : rbits (rcount r w n s) r (w - 1) 0 = (rbits s r (w - 1) 0 + n) % 2 ^ w := by
  have e : w - 1 + 1 - 0 = w := by omega
  unfold rcount
  rw [rbits_rsetBits_same _ _ _ _ _ (by omega), e]

/-! ### Tiles -/

@[simp] theorem tileOf_setTile_same (t : Nat) (x : Tile) (s : State) : tileOf (setTile t x s) t = x := SMap.get_put_same _ _ _ _
theorem tileOf_setTile_other (t u : Nat) (x : Tile) (s : State) (h : u ≠ t) : tileOf (setTile t x s) u = tileOf s u := SMap.get_put_other _ _ _ _ _ h
@[simp] theorem tileOf_modTile_same (t : Nat) (f : Tile → Tile) (s : State) : tileOf (modTile t f s) t = f (tileOf s t) := tileOf_setTile_same _ _ _
theorem tileOf_modTile_other (t u : Nat) (f : Tile → Tile) (s : State) (h : u ≠ t) : tileOf (modTile t f s) u = tileOf s u := tileOf_setTile_other _ _ _ _ h

/-- s0 reads 0 whatever is written (R46). -/
@[simp] theorem sr_zero (x : Tile) : x.sr 0 = 0#64 := rfl
theorem sr_setS_same (x : Tile) (n : Nat) (v : Word) : (x.setS n v).sr n = if n = 0 then 0#64 else v := by
  by_cases h : n = 0
  · simp [h, Tile.sr]
  · simp [h, Tile.sr, Tile.setS]
theorem sr_setS_other (x : Tile) (n m : Nat) (v : Word) (h : m ≠ n) : (x.setS n v).sr m = x.sr m := by
  by_cases hn : n = 0
  · simp [hn, Tile.setS]
  · by_cases hm : m = 0
    · simp [hm, Tile.sr]
    · simp [hn, hm, Tile.sr, Tile.setS, SMap.get_put_other _ _ _ _ _ h]

/-- p0 reads true whatever is written (R46). -/
@[simp] theorem pr_zero (x : Tile) : x.pr 0 = true := rfl
theorem pr_setP_same (x : Tile) (n : Nat) (v : Bool) : (x.setP n v).pr n = if n = 0 then true else v := by
  by_cases h : n = 0
  · simp [h, Tile.pr]
  · simp [h, Tile.pr, Tile.setP]
theorem pr_setP_other (x : Tile) (n m : Nat) (v : Bool) (h : m ≠ n) : (x.setP n v).pr m = x.pr m := by
  by_cases hn : n = 0
  · simp [hn, Tile.setP]
  · by_cases hm : m = 0
    · simp [hm, Tile.pr]
    · simp [hn, hm, Tile.pr, Tile.setP, SMap.get_put_other _ _ _ _ _ h]

@[simp] theorem ar_setA_same (x : Tile) (n : Nat) (v : Word) : (x.setA n v).ar n = v := SMap.get_put_same _ _ _ _
theorem ar_setA_other (x : Tile) (n m : Nat) (v : Word) (h : m ≠ n) : (x.setA n v).ar m = x.ar m := SMap.get_put_other _ _ _ _ _ h
@[simp] theorem kr_setK_same (x : Tile) (n v : Nat) : (x.setK n v).kr n = v := SMap.get_put_same _ _ _ _
theorem kr_setK_other (x : Tile) (n m v : Nat) (h : m ≠ n) : (x.setK n v).kr m = x.kr m := SMap.get_put_other _ _ _ _ _ h

end Machine

end Sys2Proof
end

