-- ==== Sys2Proof/Laws/Ops.lean ====
section
/-! SUPPORT. What the shared operations can do: event records (R410), messages (R428) and completion frames (R375 to R378) each change the few parts of the
state that they are about, and nothing else. -/

namespace Sys2Proof.Machine
open Sys2Proof

/-! ### Event records -/

/-- An ERRLOG entry changes the log and the two registers that count it. -/
theorem errWrite_eq (ws : List Word) (s : State) :
    ∃ rg, errWrite ws s = { s with regs := rg, rec_ := { s.rec_ with log := SMap.set s.rec_.log (rbits s (reg .ERR_HEAD) 17 0) ws } } := ⟨_, rfl⟩

/-- The management port's copy of a record changes the port's lists and the count of lost ones. -/
theorem portPush_eq (ws : List Word) (s : State) : ∃ rg rc, portPush ws s = { s with regs := rg, rec_ := rc } := by
  unfold portPush
  split
  · exact ⟨s.regs, _, rfl⟩
  · split
    · exact ⟨s.regs, _, rfl⟩
    · exact ⟨_, _, rfl⟩

/-- The frames of an asynchronous record are queued, or counted as lost. -/
theorem asyncQueue_eq (ring : Nat) (ws : List Word) (s : State) : ∃ rg q, asyncQueue ring ws s = { s with regs := rg, cox := { s.cox with async := q } } := by
  unfold asyncQueue
  split
  · exact ⟨s.regs, _, rfl⟩
  · exact ⟨_, s.cox.async, rfl⟩

/-- An event changes registers, the records and the queue of asynchronous frames, and nothing else (R410, R411). -/
theorem eventX_eq (code die src : Nat) (a b : Word) (ext : List Word) (s : State) :
    ∃ rg rc q, eventX code die src a b ext s = { s with regs := rg, rec_ := rc, cox := { s.cox with async := q } } := by
  have h : ∃ rg rc, (if code / 256 = 0x0F then errWrite (recordWords s code die src a b ++ ext) s
      else portPush (recordWords s code die src a b) (errWrite (recordWords s code die src a b ++ ext) s)) = { s with regs := rg, rec_ := rc } := by
    obtain ⟨rg, e⟩ := errWrite_eq (recordWords s code die src a b ++ ext) s
    split
    · exact ⟨rg, _, e⟩
    · obtain ⟨rg', rc', e'⟩ := portPush_eq (recordWords s code die src a b) (errWrite (recordWords s code die src a b ++ ext) s)
      exact ⟨rg', rc', by rw [e', e]⟩
  obtain ⟨rg, rc, e⟩ := h
  unfold eventX
  simp only [e]
  split
  · obtain ⟨rg', q, e'⟩ := asyncQueue_eq (bits (rget s (reg .MBX_EVT_CFG)) 2 0)
      [BitVec.ofNat 64 (0x21 * 2 ^ 16 + 2 ^ 25 + 2 ^ 27), BitVec.ofNat 64 ((code % 65536 + severity code a.toNat * 2 ^ 16 + (die % 256) * 2 ^ 24) * 2 ^ 32), a, coxEpoch s,
       BitVec.ofNat 64 (0x21 * 2 ^ 16 + 2 ^ 25), BitVec.ofNat 64 ((src % 2 ^ 32) * 2 ^ 32), b, BitVec.ofNat 64 (rbits s (reg .ERR_HEAD) 17 0)] { s with regs := rg, rec_ := rc }
    exact ⟨rg', rc, q, e'⟩
  · exact ⟨rg, rc, s.cox.async, rfl⟩

theorem event_eq (code die src : Nat) (a b : Word) (s : State) :
    ∃ rg rc q, event code die src a b s = { s with regs := rg, rec_ := rc, cox := { s.cox with async := q } } := eventX_eq code die src a b _ s

@[simp] theorem event_pending (code die src : Nat) (a b : Word) (s : State) : (event code die src a b s).pending = s.pending := by
  obtain ⟨_, _, _, e⟩ := event_eq code die src a b s; rw [e]
@[simp] theorem event_tiles (code die src : Nat) (a b : Word) (s : State) : (event code die src a b s).tiles = s.tiles := by
  obtain ⟨_, _, _, e⟩ := event_eq code die src a b s; rw [e]
@[simp] theorem event_stk (code die src : Nat) (a b : Word) (s : State) : (event code die src a b s).stk = s.stk := by
  obtain ⟨_, _, _, e⟩ := event_eq code die src a b s; rw [e]
@[simp] theorem event_shadow (code die src : Nat) (a b : Word) (s : State) : (event code die src a b s).shadow = s.shadow := by
  obtain ⟨_, _, _, e⟩ := event_eq code die src a b s; rw [e]
@[simp] theorem event_restores (code die src : Nat) (a b : Word) (s : State) : (event code die src a b s).restores = s.restores := by
  obtain ⟨_, _, _, e⟩ := event_eq code die src a b s; rw [e]
@[simp] theorem event_groups (code die src : Nat) (a b : Word) (s : State) : (event code die src a b s).groups = s.groups := by
  obtain ⟨_, _, _, e⟩ := event_eq code die src a b s; rw [e]
@[simp] theorem event_bn (code die src : Nat) (a b : Word) (s : State) : (event code die src a b s).bn = s.bn := by
  obtain ⟨_, _, _, e⟩ := event_eq code die src a b s; rw [e]
@[simp] theorem event_blt (code die src : Nat) (a b : Word) (s : State) : (event code die src a b s).blt = s.blt := by
  obtain ⟨_, _, _, e⟩ := event_eq code die src a b s; rw [e]
@[simp] theorem event_fab (code die src : Nat) (a b : Word) (s : State) : (event code die src a b s).fab = s.fab := by
  obtain ⟨_, _, _, e⟩ := event_eq code die src a b s; rw [e]
@[simp] theorem event_ep (code die src : Nat) (a b : Word) (s : State) : (event code die src a b s).ep = s.ep := by
  obtain ⟨_, _, _, e⟩ := event_eq code die src a b s; rw [e]
@[simp] theorem event_snap (code die src : Nat) (a b : Word) (s : State) : (event code die src a b s).snap = s.snap := by
  obtain ⟨_, _, _, e⟩ := event_eq code die src a b s; rw [e]
@[simp] theorem event_gov (code die src : Nat) (a b : Word) (s : State) : (event code die src a b s).gov = s.gov := by
  obtain ⟨_, _, _, e⟩ := event_eq code die src a b s; rw [e]
@[simp] theorem event_gate (code die src : Nat) (a b : Word) (s : State) : (event code die src a b s).gate = s.gate := by
  obtain ⟨_, _, _, e⟩ := event_eq code die src a b s; rw [e]
@[simp] theorem event_ports (code die src : Nat) (a b : Word) (s : State) : (event code die src a b s).ports = s.ports := by
  obtain ⟨_, _, _, e⟩ := event_eq code die src a b s; rw [e]
@[simp] theorem event_passThrough (code die src : Nat) (a b : Word) (s : State) : (event code die src a b s).passThrough = s.passThrough := by
  obtain ⟨_, _, _, e⟩ := event_eq code die src a b s; rw [e]
@[simp] theorem event_retired (code die src : Nat) (a b : Word) (s : State) : (event code die src a b s).retired = s.retired := by
  obtain ⟨_, _, _, e⟩ := event_eq code die src a b s; rw [e]
@[simp] theorem event_flitErr (code die src : Nat) (a b : Word) (s : State) : (event code die src a b s).flitErr = s.flitErr := by
  obtain ⟨_, _, _, e⟩ := event_eq code die src a b s; rw [e]
@[simp] theorem event_watch (code die src : Nat) (a b : Word) (s : State) : (event code die src a b s).watch = s.watch := by
  obtain ⟨_, _, _, e⟩ := event_eq code die src a b s; rw [e]
@[simp] theorem event_fresh (code die src : Nat) (a b : Word) (s : State) : (event code die src a b s).fresh = s.fresh := by
  obtain ⟨_, _, _, e⟩ := event_eq code die src a b s; rw [e]
@[simp] theorem tileOf_event (code die src : Nat) (a b : Word) (s : State) (t : Nat) : tileOf (event code die src a b s) t = tileOf s t := by
  unfold tileOf; rw [event_tiles]

/-- The registers that an event writes (R411, R434, R383). -/
theorem rget_eventX_other (code die src : Nat) (a b : Word) (ext : List Word) (s : State) (q : Reg) (h1 : q.off ≠ (reg .ERR_HEAD).off) (h2 : q.off ≠ (reg .ERR_COUNT).off)
    (h3 : q.off ≠ (reg .ERR_PORT_LOST).off) (h4 : ∀ k, k < 8 → q.off ≠ (reg .MBX_CPL_OVF k).off) : rget (eventX code die src a b ext s) q = rget s q := by
  have he : ∀ ws, rget (errWrite ws s) q = rget s q := by
    intro ws
    unfold errWrite
    rw [rget_rcount_other _ _ _ _ _ h2, rget_rset_other _ _ _ _ h1]; rfl
  have hp : ∀ ws s', rget (portPush ws s') q = rget s' q := by
    intro ws s'
    unfold portPush
    split
    · rfl
    · split
      · rfl
      · rw [rget_rcount_other _ _ _ _ _ h3]; rfl
  have ha : ∀ r ws s', r < 8 → rget (asyncQueue r ws s') q = rget s' q := by
    intro r ws s' hr
    unfold asyncQueue
    split
    · rfl
    · unfold lostAsync; rw [rget_rsetBits_other _ _ _ _ _ _ (h4 r hr)]
  have hb : bits (rget s (reg .MBX_EVT_CFG)) 2 0 < 8 := bits_lt _ 2 0
  have hc : rget (if code / 256 = 0x0F then errWrite (recordWords s code die src a b ++ ext) s
      else portPush (recordWords s code die src a b) (errWrite (recordWords s code die src a b ++ ext) s)) q = rget s q := by
    split
    · exact he _
    · rw [hp, he]
  unfold eventX
  simp only []
  split
  · rw [ha _ _ _ hb]; exact hc
  · exact hc

theorem rget_event_other (code die src : Nat) (a b : Word) (s : State) (q : Reg) (h1 : q.off ≠ (reg .ERR_HEAD).off) (h2 : q.off ≠ (reg .ERR_COUNT).off)
    (h3 : q.off ≠ (reg .ERR_PORT_LOST).off) (h4 : ∀ k, k < 8 → q.off ≠ (reg .MBX_CPL_OVF k).off) : rget (event code die src a b s) q = rget s q :=
  rget_eventX_other code die src a b _ s q h1 h2 h3 h4

/-! ### Messages and completion frames -/

/-- A message changes the vectors' bookkeeping only (R428). -/
theorem msixRaise_eq (v : Nat) (s : State) : ∃ p, msixRaise v s = { s with ports := p } := by
  unfold msixRaise
  split
  · exact ⟨_, rfl⟩
  · split <;> exact ⟨_, rfl⟩

/-- A frame written changes the ring's tail, the cox's account of the ring and the message of its vector (R375). -/
theorem cplWrite_eq (c : Nat) (f : CplFrame) (s : State) : ∃ rg x p, cplWrite c f s = { s with regs := rg, cox := x, ports := p } := by
  unfold cplWrite
  simp only []
  split
  · obtain ⟨p, e⟩ := msixRaise_eq (rbits s (reg .MBX_CPL_CFG c) 13 8) (rset (reg .MBX_CPL_TAIL c) (w64 ((rbits s (reg .MBX_CPL_TAIL c) 11 0 + 1) % cplFrames s c))
      { s with cox := { s.cox with slots := SMap.set s.cox.slots (c * 4096 + rbits s (reg .MBX_CPL_TAIL c) 11 0) (setBit (nth 0#64 f.words 0) 24 (!(SMap.get false s.cox.phase c)) :: f.words.drop 1), phase := (if (rbits s (reg .MBX_CPL_TAIL c) 11 0 + 1) % cplFrames s c = 0 then SMap.put false s.cox.phase c (!(SMap.get false s.cox.phase c)) else s.cox.phase), cplUsed := SMap.put 0 s.cox.cplUsed c (SMap.get 0 s.cox.cplUsed c + 1) } })
    exact ⟨_, _, p, e⟩
  · exact ⟨_, _, _, rfl⟩

theorem cplPost_eq (c : Nat) (f : CplFrame) (s : State) : ∃ rg x p, cplPost c f s = { s with regs := rg, cox := x, ports := p } := by
  unfold cplPost
  simp only []
  split
  · split
    · exact ⟨_, _, _, rfl⟩
    · split <;> exact ⟨_, s.cox, s.ports, rfl⟩
  · split
    · exact cplWrite_eq c f s
    · exact ⟨_, _, _, rfl⟩

/-- A frame of a command changes registers, the cox's rings and the message of a vector, and nothing else (R376 to R378). -/
theorem postFrame_eq (r : CmdRef) (status detail : Nat) (result : Word) (s : State) : ∃ rg x p, postFrame r status detail result s = { s with regs := rg, cox := x, ports := p } := by
  unfold postFrame
  split
  · exact ⟨_, _, _, rfl⟩
  · split
    · exact cplPost_eq _ _ s
    · exact ⟨_, _, _, rfl⟩

theorem acceptCmd_eq (r : CmdRef) (result : Word) (s : State) : ∃ rg x p, acceptCmd r result s = { s with regs := rg, cox := x, ports := p } :=
  postFrame_eq r stACCEPTED 0 result _

/-- Posting a list of frames changes the same parts (R375). -/
theorem cplPosts_eq (l : List OrdFrame) (s : State) : ∃ rg x p, l.foldl (fun s o => cplPost (cplOf s o.ref.ring) o.frame s) s = { s with regs := rg, cox := x, ports := p } := by
  induction l generalizing s with
  | nil => exact ⟨s.regs, s.cox, s.ports, rfl⟩
  | cons o l ih =>
    obtain ⟨_, _, _, e⟩ := cplPost_eq (cplOf s o.ref.ring) o.frame s
    obtain ⟨rg, x, p, e'⟩ := ih (cplPost (cplOf s o.ref.ring) o.frame s)
    exact ⟨rg, x, p, by rw [List.foldl_cons, e', e]⟩

theorem releaseOrder_eq (ring : Nat) (s : State) : ∃ rg x p, releaseOrder ring s = { s with regs := rg, cox := x, ports := p } := by
  unfold releaseOrder
  extract_lets l
  obtain ⟨rg, x, p, e⟩ := cplPosts_eq (l.filter (fun o => o.behind == 0)) { s with cox := { s.cox with order := l.filter (fun o => o.behind != 0) } }
  exact ⟨rg, x, p, e⟩

theorem postFinal_eq (r : CmdRef) (f : CplFrame) (s : State) : ∃ rg x p, postFinal r f s = { s with regs := rg, cox := x, ports := p } := by
  unfold postFinal
  split
  · exact ⟨_, _, _, rfl⟩
  · exact cplPost_eq _ _ s

theorem finishCmd_eq (r : CmdRef) (status detail : Nat) (result : Word) (s : State) : ∃ rg x p, finishCmd r status detail result s = { s with regs := rg, cox := x, ports := p } := by
  unfold finishCmd
  extract_lets s1
  have h1 : ∃ rg x p, s1 = { s with regs := rg, cox := x, ports := p } := by
    by_cases hq : (status = stOK && bit r.w0 18) = true
    · exact ⟨_, _, _, if_pos hq⟩
    · obtain ⟨rg, x, p, e⟩ := postFinal_eq r (cmdFrame s r status detail result) (dropRunning r s)
      exact ⟨rg, x, p, (if_neg hq).trans e⟩
  obtain ⟨_, _, _, e1⟩ := h1
  split
  · obtain ⟨rg, x, p, e⟩ := releaseOrder_eq r.ring s1
    exact ⟨rg, x, p, by rw [e, e1]⟩
  · exact ⟨_, _, _, e1⟩

theorem finishOpt_eq (r : Option CmdRef) (status detail : Nat) (result : Word) (s : State) : ∃ rg x p, finishOpt r status detail result s = { s with regs := rg, cox := x, ports := p } := by
  cases r with
  | none => exact ⟨_, _, _, rfl⟩
  | some r => exact finishCmd_eq r status detail result s

theorem cplFlush_eq (c n : Nat) (s : State) : ∃ rg x p, cplFlush c n s = { s with regs := rg, cox := x, ports := p } := by
  induction n generalizing s with
  | zero => exact ⟨_, _, _, rfl⟩
  | succ n ih =>
    unfold cplFlush
    split
    · exact ⟨_, _, _, rfl⟩
    · split
      · exact ⟨_, _, _, rfl⟩
      · next f fs _ =>
        split
        · obtain ⟨_, _, _, e⟩ := cplWrite_eq c f { s with cox := { s.cox with held := SMap.put [] s.cox.held c fs } }
          obtain ⟨rg, x, p, e'⟩ := ih (cplWrite c f { s with cox := { s.cox with held := SMap.put [] s.cox.held c fs } })
          exact ⟨rg, x, p, by rw [e', e]⟩
        · exact ⟨_, _, _, rfl⟩

@[simp] theorem postFrame_pending (r : CmdRef) (status detail : Nat) (result : Word) (s : State) : (postFrame r status detail result s).pending = s.pending := by
  obtain ⟨_, _, _, e⟩ := postFrame_eq r status detail result s; rw [e]
@[simp] theorem postFrame_tiles (r : CmdRef) (status detail : Nat) (result : Word) (s : State) : (postFrame r status detail result s).tiles = s.tiles := by
  obtain ⟨_, _, _, e⟩ := postFrame_eq r status detail result s; rw [e]
@[simp] theorem postFrame_stk (r : CmdRef) (status detail : Nat) (result : Word) (s : State) : (postFrame r status detail result s).stk = s.stk := by
  obtain ⟨_, _, _, e⟩ := postFrame_eq r status detail result s; rw [e]
@[simp] theorem postFrame_shadow (r : CmdRef) (status detail : Nat) (result : Word) (s : State) : (postFrame r status detail result s).shadow = s.shadow := by
  obtain ⟨_, _, _, e⟩ := postFrame_eq r status detail result s; rw [e]
@[simp] theorem postFrame_restores (r : CmdRef) (status detail : Nat) (result : Word) (s : State) : (postFrame r status detail result s).restores = s.restores := by
  obtain ⟨_, _, _, e⟩ := postFrame_eq r status detail result s; rw [e]
@[simp] theorem postFrame_groups (r : CmdRef) (status detail : Nat) (result : Word) (s : State) : (postFrame r status detail result s).groups = s.groups := by
  obtain ⟨_, _, _, e⟩ := postFrame_eq r status detail result s; rw [e]
@[simp] theorem postFrame_bn (r : CmdRef) (status detail : Nat) (result : Word) (s : State) : (postFrame r status detail result s).bn = s.bn := by
  obtain ⟨_, _, _, e⟩ := postFrame_eq r status detail result s; rw [e]
@[simp] theorem postFrame_blt (r : CmdRef) (status detail : Nat) (result : Word) (s : State) : (postFrame r status detail result s).blt = s.blt := by
  obtain ⟨_, _, _, e⟩ := postFrame_eq r status detail result s; rw [e]
@[simp] theorem postFrame_fab (r : CmdRef) (status detail : Nat) (result : Word) (s : State) : (postFrame r status detail result s).fab = s.fab := by
  obtain ⟨_, _, _, e⟩ := postFrame_eq r status detail result s; rw [e]
@[simp] theorem postFrame_ep (r : CmdRef) (status detail : Nat) (result : Word) (s : State) : (postFrame r status detail result s).ep = s.ep := by
  obtain ⟨_, _, _, e⟩ := postFrame_eq r status detail result s; rw [e]
@[simp] theorem postFrame_snap (r : CmdRef) (status detail : Nat) (result : Word) (s : State) : (postFrame r status detail result s).snap = s.snap := by
  obtain ⟨_, _, _, e⟩ := postFrame_eq r status detail result s; rw [e]
@[simp] theorem postFrame_gov (r : CmdRef) (status detail : Nat) (result : Word) (s : State) : (postFrame r status detail result s).gov = s.gov := by
  obtain ⟨_, _, _, e⟩ := postFrame_eq r status detail result s; rw [e]
@[simp] theorem postFrame_gate (r : CmdRef) (status detail : Nat) (result : Word) (s : State) : (postFrame r status detail result s).gate = s.gate := by
  obtain ⟨_, _, _, e⟩ := postFrame_eq r status detail result s; rw [e]
@[simp] theorem postFrame_rec_ (r : CmdRef) (status detail : Nat) (result : Word) (s : State) : (postFrame r status detail result s).rec_ = s.rec_ := by
  obtain ⟨_, _, _, e⟩ := postFrame_eq r status detail result s; rw [e]
@[simp] theorem postFrame_passThrough (r : CmdRef) (status detail : Nat) (result : Word) (s : State) : (postFrame r status detail result s).passThrough = s.passThrough := by
  obtain ⟨_, _, _, e⟩ := postFrame_eq r status detail result s; rw [e]
@[simp] theorem postFrame_retired (r : CmdRef) (status detail : Nat) (result : Word) (s : State) : (postFrame r status detail result s).retired = s.retired := by
  obtain ⟨_, _, _, e⟩ := postFrame_eq r status detail result s; rw [e]
@[simp] theorem postFrame_flitErr (r : CmdRef) (status detail : Nat) (result : Word) (s : State) : (postFrame r status detail result s).flitErr = s.flitErr := by
  obtain ⟨_, _, _, e⟩ := postFrame_eq r status detail result s; rw [e]
@[simp] theorem postFrame_watch (r : CmdRef) (status detail : Nat) (result : Word) (s : State) : (postFrame r status detail result s).watch = s.watch := by
  obtain ⟨_, _, _, e⟩ := postFrame_eq r status detail result s; rw [e]
@[simp] theorem postFrame_fresh (r : CmdRef) (status detail : Nat) (result : Word) (s : State) : (postFrame r status detail result s).fresh = s.fresh := by
  obtain ⟨_, _, _, e⟩ := postFrame_eq r status detail result s; rw [e]
@[simp] theorem tileOf_postFrame (r : CmdRef) (status detail : Nat) (result : Word) (s : State) (t : Nat) : tileOf (postFrame r status detail result s) t = tileOf s t := by
  unfold tileOf; rw [postFrame_tiles]

@[simp] theorem acceptCmd_pending (r : CmdRef) (result : Word) (s : State) : (acceptCmd r result s).pending = s.pending := by
  obtain ⟨_, _, _, e⟩ := acceptCmd_eq r result s; rw [e]
@[simp] theorem acceptCmd_tiles (r : CmdRef) (result : Word) (s : State) : (acceptCmd r result s).tiles = s.tiles := by
  obtain ⟨_, _, _, e⟩ := acceptCmd_eq r result s; rw [e]
@[simp] theorem acceptCmd_stk (r : CmdRef) (result : Word) (s : State) : (acceptCmd r result s).stk = s.stk := by
  obtain ⟨_, _, _, e⟩ := acceptCmd_eq r result s; rw [e]
@[simp] theorem acceptCmd_shadow (r : CmdRef) (result : Word) (s : State) : (acceptCmd r result s).shadow = s.shadow := by
  obtain ⟨_, _, _, e⟩ := acceptCmd_eq r result s; rw [e]
@[simp] theorem acceptCmd_restores (r : CmdRef) (result : Word) (s : State) : (acceptCmd r result s).restores = s.restores := by
  obtain ⟨_, _, _, e⟩ := acceptCmd_eq r result s; rw [e]
@[simp] theorem acceptCmd_groups (r : CmdRef) (result : Word) (s : State) : (acceptCmd r result s).groups = s.groups := by
  obtain ⟨_, _, _, e⟩ := acceptCmd_eq r result s; rw [e]
@[simp] theorem acceptCmd_bn (r : CmdRef) (result : Word) (s : State) : (acceptCmd r result s).bn = s.bn := by
  obtain ⟨_, _, _, e⟩ := acceptCmd_eq r result s; rw [e]
@[simp] theorem acceptCmd_blt (r : CmdRef) (result : Word) (s : State) : (acceptCmd r result s).blt = s.blt := by
  obtain ⟨_, _, _, e⟩ := acceptCmd_eq r result s; rw [e]
@[simp] theorem acceptCmd_fab (r : CmdRef) (result : Word) (s : State) : (acceptCmd r result s).fab = s.fab := by
  obtain ⟨_, _, _, e⟩ := acceptCmd_eq r result s; rw [e]
@[simp] theorem acceptCmd_ep (r : CmdRef) (result : Word) (s : State) : (acceptCmd r result s).ep = s.ep := by
  obtain ⟨_, _, _, e⟩ := acceptCmd_eq r result s; rw [e]
@[simp] theorem acceptCmd_snap (r : CmdRef) (result : Word) (s : State) : (acceptCmd r result s).snap = s.snap := by
  obtain ⟨_, _, _, e⟩ := acceptCmd_eq r result s; rw [e]
@[simp] theorem acceptCmd_gov (r : CmdRef) (result : Word) (s : State) : (acceptCmd r result s).gov = s.gov := by
  obtain ⟨_, _, _, e⟩ := acceptCmd_eq r result s; rw [e]
@[simp] theorem acceptCmd_gate (r : CmdRef) (result : Word) (s : State) : (acceptCmd r result s).gate = s.gate := by
  obtain ⟨_, _, _, e⟩ := acceptCmd_eq r result s; rw [e]
@[simp] theorem acceptCmd_rec_ (r : CmdRef) (result : Word) (s : State) : (acceptCmd r result s).rec_ = s.rec_ := by
  obtain ⟨_, _, _, e⟩ := acceptCmd_eq r result s; rw [e]
@[simp] theorem acceptCmd_passThrough (r : CmdRef) (result : Word) (s : State) : (acceptCmd r result s).passThrough = s.passThrough := by
  obtain ⟨_, _, _, e⟩ := acceptCmd_eq r result s; rw [e]
@[simp] theorem acceptCmd_retired (r : CmdRef) (result : Word) (s : State) : (acceptCmd r result s).retired = s.retired := by
  obtain ⟨_, _, _, e⟩ := acceptCmd_eq r result s; rw [e]
@[simp] theorem acceptCmd_flitErr (r : CmdRef) (result : Word) (s : State) : (acceptCmd r result s).flitErr = s.flitErr := by
  obtain ⟨_, _, _, e⟩ := acceptCmd_eq r result s; rw [e]
@[simp] theorem acceptCmd_watch (r : CmdRef) (result : Word) (s : State) : (acceptCmd r result s).watch = s.watch := by
  obtain ⟨_, _, _, e⟩ := acceptCmd_eq r result s; rw [e]
@[simp] theorem acceptCmd_fresh (r : CmdRef) (result : Word) (s : State) : (acceptCmd r result s).fresh = s.fresh := by
  obtain ⟨_, _, _, e⟩ := acceptCmd_eq r result s; rw [e]
@[simp] theorem tileOf_acceptCmd (r : CmdRef) (result : Word) (s : State) (t : Nat) : tileOf (acceptCmd r result s) t = tileOf s t := by
  unfold tileOf; rw [acceptCmd_tiles]

@[simp] theorem finishCmd_pending (r : CmdRef) (status detail : Nat) (result : Word) (s : State) : (finishCmd r status detail result s).pending = s.pending := by
  obtain ⟨_, _, _, e⟩ := finishCmd_eq r status detail result s; rw [e]
@[simp] theorem finishCmd_tiles (r : CmdRef) (status detail : Nat) (result : Word) (s : State) : (finishCmd r status detail result s).tiles = s.tiles := by
  obtain ⟨_, _, _, e⟩ := finishCmd_eq r status detail result s; rw [e]
@[simp] theorem finishCmd_stk (r : CmdRef) (status detail : Nat) (result : Word) (s : State) : (finishCmd r status detail result s).stk = s.stk := by
  obtain ⟨_, _, _, e⟩ := finishCmd_eq r status detail result s; rw [e]
@[simp] theorem finishCmd_shadow (r : CmdRef) (status detail : Nat) (result : Word) (s : State) : (finishCmd r status detail result s).shadow = s.shadow := by
  obtain ⟨_, _, _, e⟩ := finishCmd_eq r status detail result s; rw [e]
@[simp] theorem finishCmd_restores (r : CmdRef) (status detail : Nat) (result : Word) (s : State) : (finishCmd r status detail result s).restores = s.restores := by
  obtain ⟨_, _, _, e⟩ := finishCmd_eq r status detail result s; rw [e]
@[simp] theorem finishCmd_groups (r : CmdRef) (status detail : Nat) (result : Word) (s : State) : (finishCmd r status detail result s).groups = s.groups := by
  obtain ⟨_, _, _, e⟩ := finishCmd_eq r status detail result s; rw [e]
@[simp] theorem finishCmd_bn (r : CmdRef) (status detail : Nat) (result : Word) (s : State) : (finishCmd r status detail result s).bn = s.bn := by
  obtain ⟨_, _, _, e⟩ := finishCmd_eq r status detail result s; rw [e]
@[simp] theorem finishCmd_blt (r : CmdRef) (status detail : Nat) (result : Word) (s : State) : (finishCmd r status detail result s).blt = s.blt := by
  obtain ⟨_, _, _, e⟩ := finishCmd_eq r status detail result s; rw [e]
@[simp] theorem finishCmd_fab (r : CmdRef) (status detail : Nat) (result : Word) (s : State) : (finishCmd r status detail result s).fab = s.fab := by
  obtain ⟨_, _, _, e⟩ := finishCmd_eq r status detail result s; rw [e]
@[simp] theorem finishCmd_ep (r : CmdRef) (status detail : Nat) (result : Word) (s : State) : (finishCmd r status detail result s).ep = s.ep := by
  obtain ⟨_, _, _, e⟩ := finishCmd_eq r status detail result s; rw [e]
@[simp] theorem finishCmd_snap (r : CmdRef) (status detail : Nat) (result : Word) (s : State) : (finishCmd r status detail result s).snap = s.snap := by
  obtain ⟨_, _, _, e⟩ := finishCmd_eq r status detail result s; rw [e]
@[simp] theorem finishCmd_gov (r : CmdRef) (status detail : Nat) (result : Word) (s : State) : (finishCmd r status detail result s).gov = s.gov := by
  obtain ⟨_, _, _, e⟩ := finishCmd_eq r status detail result s; rw [e]
@[simp] theorem finishCmd_gate (r : CmdRef) (status detail : Nat) (result : Word) (s : State) : (finishCmd r status detail result s).gate = s.gate := by
  obtain ⟨_, _, _, e⟩ := finishCmd_eq r status detail result s; rw [e]
@[simp] theorem finishCmd_rec_ (r : CmdRef) (status detail : Nat) (result : Word) (s : State) : (finishCmd r status detail result s).rec_ = s.rec_ := by
  obtain ⟨_, _, _, e⟩ := finishCmd_eq r status detail result s; rw [e]
@[simp] theorem finishCmd_passThrough (r : CmdRef) (status detail : Nat) (result : Word) (s : State) : (finishCmd r status detail result s).passThrough = s.passThrough := by
  obtain ⟨_, _, _, e⟩ := finishCmd_eq r status detail result s; rw [e]
@[simp] theorem finishCmd_retired (r : CmdRef) (status detail : Nat) (result : Word) (s : State) : (finishCmd r status detail result s).retired = s.retired := by
  obtain ⟨_, _, _, e⟩ := finishCmd_eq r status detail result s; rw [e]
@[simp] theorem finishCmd_flitErr (r : CmdRef) (status detail : Nat) (result : Word) (s : State) : (finishCmd r status detail result s).flitErr = s.flitErr := by
  obtain ⟨_, _, _, e⟩ := finishCmd_eq r status detail result s; rw [e]
@[simp] theorem finishCmd_watch (r : CmdRef) (status detail : Nat) (result : Word) (s : State) : (finishCmd r status detail result s).watch = s.watch := by
  obtain ⟨_, _, _, e⟩ := finishCmd_eq r status detail result s; rw [e]
@[simp] theorem finishCmd_fresh (r : CmdRef) (status detail : Nat) (result : Word) (s : State) : (finishCmd r status detail result s).fresh = s.fresh := by
  obtain ⟨_, _, _, e⟩ := finishCmd_eq r status detail result s; rw [e]
@[simp] theorem tileOf_finishCmd (r : CmdRef) (status detail : Nat) (result : Word) (s : State) (t : Nat) : tileOf (finishCmd r status detail result s) t = tileOf s t := by
  unfold tileOf; rw [finishCmd_tiles]

/-! ### Device states -/

/-- A transition changes the device state and records itself (R368). -/
theorem setDev_eq (new : DevState) (cause : Nat) (s : State) :
    ∃ rg rc q, setDev new cause s = { s with gate := { s.gate with st := new }, regs := rg, rec_ := rc, cox := { s.cox with async := q } } := by
  obtain ⟨rg, rc, q, e⟩ := event_eq 0x0101 0xFF 0 (w64 (s.gate.st.code + new.code * 256 + cause * 65536)) 0#64 { s with gate := { s.gate with st := new } }
  exact ⟨rg, rc, q, e⟩

/-- Work accepted moves RIGGED to UNDERWAY and nothing else of the Gate (R368, R369). -/
theorem workAccepted_eq (s : State) : ∃ st rg rc q, workAccepted s = { s with gate := { s.gate with st := st }, regs := rg, rec_ := rc, cox := { s.cox with async := q } } := by
  unfold workAccepted
  split
  · obtain ⟨rg, rc, q, e⟩ := setDev_eq .underway 19 s
    exact ⟨_, rg, rc, q, e⟩
  · exact ⟨s.gate.st, s.regs, s.rec_, s.cox.async, rfl⟩

/-- Entering HOLD changes the device state, its cause and the freeze (R368, R369). -/
theorem enterHold_eq (cause : Nat) (s : State) :
    ∃ fr rg rc q, enterHold cause s = { s with gate := { s.gate with st := .hold, cause := cause, frozen := fr }, regs := rg, rec_ := rc, cox := { s.cox with async := q } } := by
  obtain ⟨rg, rc, q, e⟩ := setDev_eq .hold cause s
  exact ⟨s.gate.frozen || s.gate.st = .underway || s.gate.st = .easy, rg, rc, q, by unfold enterHold; rw [e]⟩

/-! ### Tile counters -/

/-- The counters of a tile change its counter and overflow registers only (R414). -/
theorem pmcAdd_eq (t k n : Nat) (s : State) : ∃ rg, pmcAdd t k n s = { s with regs := rg } := by
  unfold pmcAdd
  simp only []
  split <;> exact ⟨_, rfl⟩

theorem pmcCount_eq (t ev n : Nat) (s : State) : ∃ rg, pmcCount t ev n s = { s with regs := rg } := by
  have h : ∀ (ks : List Nat) (s : State), ∃ rg, ks.foldl (fun s k => if pmcSelects s t ev k then pmcAdd t k n s else s) s = { s with regs := rg } := by
    intro ks
    induction ks with
    | nil => intro s; exact ⟨s.regs, rfl⟩
    | cons k ks ih =>
      intro s
      rw [List.foldl_cons]
      split
      · obtain ⟨rg, e⟩ := pmcAdd_eq t k n s
        obtain ⟨rg', e'⟩ := ih (pmcAdd t k n s)
        exact ⟨rg', by rw [e', e]⟩
      · exact ih s
  unfold pmcCount
  split
  · exact ⟨s.regs, rfl⟩
  · exact h _ s

@[simp] theorem tileOf_pmcCount (t ev n : Nat) (s : State) (u : Nat) : tileOf (pmcCount t ev n s) u = tileOf s u := by
  obtain ⟨_, e⟩ := pmcCount_eq t ev n s; rw [e]; rfl

theorem rget_pmcCount_other (t ev n : Nat) (s : State) (q : Reg) (h : q.off ≠ (reg .TILE_PMC_OVF t).off) (h' : ∀ k, k < 8 → q.off ≠ (reg .TILE_PMC_CTR t k).off) :
    rget (pmcCount t ev n s) q = rget s q := by
  have ha : ∀ k s, k < 8 → rget (pmcAdd t k n s) q = rget s q := by
    intro k s hk
    unfold pmcAdd
    simp only []
    split
    · rw [rget_rsetBit_other _ _ _ _ _ h, rget_rset_other _ _ _ _ (h' k hk)]
    · rw [rget_rset_other _ _ _ _ (h' k hk)]
  have hf : ∀ (ks : List Nat) (s : State), (∀ k ∈ ks, k < 8) → rget (ks.foldl (fun s k => if pmcSelects s t ev k then pmcAdd t k n s else s) s) q = rget s q := by
    intro ks
    induction ks with
    | nil => intro s _; rfl
    | cons k ks ih =>
      intro s hk
      rw [List.foldl_cons, ih _ (fun j hj => hk j (List.mem_cons_of_mem _ hj))]
      split
      · exact ha k s (hk k (List.mem_cons_self ..))
      · rfl
  unfold pmcCount
  split
  · rfl
  · exact hf _ s (fun k hk => List.mem_range.mp hk)

end Sys2Proof.Machine
end

