-- ==== Sys2Proof/Laws/Memory.lean ====
section
/-! SUPPORT. Laws of the memories: every write keeps the canonical form, reads what it wrote and leaves the rest. -/

namespace Sys2Proof.Machine
open Sys2Proof

/-- Writing a byte at every place of a list of places keeps the canonical form. -/
theorem fold_put_wf {β : Type} (is : List β) (at_ : β → Nat) (v : β → Byte) (m : List Host.Cell) (w : Memory.wf m = true) :
    Memory.wf (is.foldl (fun m i => SMap.put 0#8 m (at_ i) (v i)) m) = true := by
  induction is generalizing m with
  | nil => exact w
  | cons i is ih => exact ih _ (SMap.put_wf 0#8 m (at_ i) (v i) w)

/-- A byte outside the places written keeps its value. -/
theorem fold_put_other {β : Type} (is : List β) (at_ : β → Nat) (v : β → Byte) (m : List Host.Cell) (a : Nat) (h : ∀ i ∈ is, at_ i ≠ a) :
    SMap.get 0#8 (is.foldl (fun m i => SMap.put 0#8 m (at_ i) (v i)) m) a = SMap.get 0#8 m a := by
  induction is generalizing m with
  | nil => rfl
  | cons i is ih =>
    rw [List.foldl_cons, ih _ (fun j hj => h j (List.mem_cons_of_mem _ hj)), SMap.get_put_other _ _ _ _ _ (fun c => h i (List.mem_cons_self ..) c.symm)]

/-- An uncorrectable line leaves every byte of the stacks. -/
theorem stkUe_stk (a l : Nat) (s : State) : (stkUe a l s).stk = s.stk := by
  unfold stkUe
  extract_lets q n s1 s2 s3
  have h1 : s1.stk = s.stk := rcount_stk _ _ _ _
  have h2 : s2.stk = s1.stk := rset_stk _ _ _
  have h3 : s3.stk = s2.stk := rsetBit_stk _ _ _ _
  exact (event_stk _ _ _ _ _ _).trans (h3.trans (h2.trans h1))

/-- What the code makes of a line of more than four symbols in error keeps the canonical form (R231). -/
theorem freeLine_wf (l n : Nat) (s : State) (w : Memory.wf s.stk.mem = true) : Memory.wf (freeLine l n s).stk.mem = true := by
  have h : ∀ (mask : Word) (is : List Nat) (m : List Host.Cell), Memory.wf m = true →
      Memory.wf (is.foldl (fun m i => if bit mask i then m else SMap.put 0#8 m (l * 64 + i) (Config.freeByte n i)) m) = true := by
    intro mask is
    induction is with
    | nil => exact fun m w => w
    | cons i is ih =>
      intro m w
      rw [List.foldl_cons]
      split
      · exact ih m w
      · exact ih _ (SMap.put_wf 0#8 m _ _ w)
  exact h _ _ _ w

/-- The row table and the proposals of a line read leave every byte (R234, R240). -/
theorem noteRow_mem (q errs : Nat) (s : State) : (noteRow q errs s).stk.mem = s.stk.mem := by
  have hp : ∀ (k : Nat) (s : State), (proposeRepair k s).stk = s.stk := by
    intro k s
    unfold proposeRepair
    extract_lets kind n st p
    split
    · rfl
    · rw [event_stk]
  unfold noteRow
  extract_lets k hit src old r propose rest full rest2 s1 s2
  split
  · split <;> rfl
  · have h2 : s2.stk.mem = s.stk.mem := by
      show (if propose = true then proposeRepair k s1 else s1).stk.mem = _
      split
      · rw [hp]
      · rfl
    split
    · rw [event_stk]; exact h2
    · exact h2

/-- A decode keeps the canonical form (R231). -/
theorem lineDecode_wf (l : Nat) (s : State) (w : Memory.wf s.stk.mem = true) : Memory.wf (lineDecode l s).2.stk.mem = true := by
  have hf : ∀ (q k : Nat) (s : State), (noteRow q k (rcount (reg .STK_CE (physStack q)) 48 1 (clearFlips l s))).stk.mem = s.stk.mem := by
    intro q k s
    rw [noteRow_mem, rcount_stk]
    rfl
  unfold lineDecode
  extract_lets q k fixed
  split
  · rw [noteRow_mem]; exact w
  · split
    · rw [hf]; exact w
    · split
      · rw [noteRow_mem]; exact w
      · split
        next w' s' he =>
        have hm : s'.stk = s.stk := by
          have : s' = (takeFresh s).2 := (congrArg Prod.snd he).symm
          rw [this]; rfl
        split
        · exact freeLine_wf _ _ _ (by rw [hm]; exact w)
        · split
          · rw [hf]; exact freeLine_wf _ _ _ (by rw [hm]; exact w)
          · rw [noteRow_mem, hm]; exact w

/-- A line written back whole leaves every byte (R229). -/
theorem lineFilled_mem (l use : Nat) (pois : Bool) (s : State) : (lineFilled l use pois s).stk.mem = s.stk.mem := by
  unfold lineFilled
  simp only [slotCount_stk, rcount_stk]
  rfl

/-- A line met by a reader keeps the canonical form (R229, R231). -/
theorem lineMeet_wf (a l : Nat) (s : State) (w : Memory.wf s.stk.mem = true) : Memory.wf (lineMeet a l s).stk.mem = true := by
  unfold lineMeet
  extract_lets bad r s1
  have hr : Memory.wf r.2.stk.mem = true := lineDecode_wf l s w
  have h1 : Memory.wf s1.stk.mem = true := by
    show Memory.wf (match combOf r.2 l with | some e => lineFilled l e.use (bad || r.1) r.2 | none => r.2 : State).stk.mem = true
    split
    · rw [lineFilled_mem]; exact hr
    · exact hr
  split
  · rw [stkUe_stk]; exact h1
  · exact h1

/-- A line read keeps the canonical form. -/
theorem lineRead_wf (cls a : Nat) (s : State) (w : Memory.wf s.stk.mem = true) : Memory.wf (lineRead cls a s).stk.mem = true := by
  unfold lineRead
  extract_lets l n
  split
  · exact w
  · exact lineMeet_wf _ _ _ (by rw [slotCount_stk, rcount_stk]; exact w)

/-- A read of stack memory keeps its canonical form. -/
theorem stkRead_wf (cls a n : Nat) (s : State) (w : Memory.wf s.stk.mem = true) : Memory.wf (stkRead cls a n s).2.stk.mem = true := by
  have h : ∀ (ls : List Nat) (s : State), Memory.wf s.stk.mem = true → Memory.wf (ls.foldl (fun s l => lineRead cls l s) s).stk.mem = true := by
    intro ls
    induction ls with
    | nil => exact fun s w => w
    | cons l ls ih => intro s w; rw [List.foldl_cons]; exact ih _ (lineRead_wf cls l s w)
  exact h _ s w

/-- The read-modify-write of a combining entry keeps the canonical form (R229). -/
theorem wcbRmw_wf (n : Nat) (s : State) (w : Memory.wf s.stk.mem = true) : Memory.wf (wcbRmw n s).stk.mem = true := by
  unfold wcbRmw
  split
  · exact w
  · next e _ =>
    extract_lets r bad s1 s2
    have hr : Memory.wf r.2.stk.mem = true := lineDecode_wf _ s w
    have h1 : s1.stk = r.2.stk := by simp only [s1, slotCount_stk, rcount_stk]
    have h2 : s2.stk = s1.stk := by
      show (if _ then _ else _ : State).stk = _
      split
      · rw [stkUe_stk]
      · rfl
    rw [lineFilled_mem, h2, h1]
    exact hr

/-- The account of a line of stack memory keeps the canonical form. -/
theorem lineWritten_wf (use l : Nat) (mask pois : Word) (s : State) (w : Memory.wf s.stk.mem = true) : Memory.wf (lineWritten use l mask pois s).stk.mem = true := by
  unfold lineWritten
  extract_lets n old e wcb s1
  split
  · rw [lineFilled_mem]; exact w
  · split
    · exact wcbRmw_wf _ _ w
    · exact w

/-- Noting start words leaves the stacks (R252). -/
@[simp] theorem noteStarts_stk (hit : Nat → Bool) (s : State) : (noteStarts hit s).stk = s.stk := by
  unfold noteStarts
  extract_lets new seen now
  split <;> rfl

/-- A write to stack memory keeps its canonical form. -/
theorem stkPoke_wf (use a : Nat) (d : PBytes) (s : State) (w : Memory.wf s.stk.mem = true) : Memory.wf (stkPoke use a d s).stk.mem = true := by
  have h : ∀ (ls : List (Nat × Word × Word)) (s : State), Memory.wf s.stk.mem = true →
      Memory.wf (ls.foldl (fun s l => lineWritten use l.1 l.2.1 l.2.2 s) s).stk.mem = true := by
    intro ls
    induction ls with
    | nil => exact fun s w => w
    | cons l ls ih => intro s w; rw [List.foldl_cons]; exact ih _ (lineWritten_wf _ _ _ _ s w)
  unfold stkPoke
  extract_lets ls mem s1
  rw [noteStarts_stk]
  exact h _ _ (fold_put_wf _ (fun i => physOf s (a + i)) (fun i => (nth (0#8, false) d i).1) _ w)

/-- A line with no symbol in error is decoded without a change of any byte (R231). -/
theorem lineDecode_clean (l : Nat) (s : State) (h : lineErrs s l = 0) : (lineDecode l s).2.stk.mem = s.stk.mem ∧ (lineDecode l s).1 = false := by
  unfold lineDecode
  extract_lets q k fixed
  have hk : k = 0 := h
  rw [if_pos hk]
  exact ⟨noteRow_mem _ _ _, rfl⟩

/-- A re-evaluation leaves every byte (R201). -/
@[simp] theorem reevaluate_mem (x : Tile) (o n : Nat) : (x.reevaluate o n).mem = x.mem := by
  unfold Tile.reevaluate
  split <;> rfl

/-- The bytes of a tile after a store. -/
theorem tileWrite_mem (x : Tile) (o : Nat) (d : PBytes) :
    (x.write o d).mem = (List.range d.length).foldl (fun m i => SMap.put 0#8 m (o + i) (nth (0#8, false) d i).1) x.mem := by
  unfold Tile.write
  rw [reevaluate_mem]

/-- A store to a tile keeps the canonical form of its SRAM. -/
theorem tileWrite_wf (x : Tile) (o : Nat) (d : PBytes) (w : Memory.wf x.mem = true) : Memory.wf (x.write o d).mem = true := by
  rw [tileWrite_mem]
  exact fold_put_wf _ (fun i => o + i) (fun i => (nth (0#8, false) d i).1) _ w

/-- A store to a tile changes its bytes, their poison and errors, and the steal summary that they decide; nothing else of the tile. -/
theorem tileWrite_eq (x : Tile) (o : Nat) (d : PBytes) :
    x.write o d = { x with mem := (x.write o d).mem, poison := (x.write o d).poison, soft := (x.write o d).soft, summary := (x.write o d).summary } := by
  unfold Tile.write Tile.reevaluate
  extract_lets _ _
  split <;> rfl

/-- A store to a tile leaves every byte outside it. -/
theorem tileWrite_other (x : Tile) (o : Nat) (d : PBytes) (b : Nat) (h : b < o ∨ o + d.length ≤ b) : SMap.get 0#8 (x.write o d).mem b = SMap.get 0#8 x.mem b := by
  rw [tileWrite_mem]
  exact fold_put_other _ (fun i => o + i) (fun i => (nth (0#8, false) d i).1) _ b (fun i hi => by have := List.mem_range.mp hi; omega)

/-- Every byte stored reads as stored. -/
theorem tileWrite_same (x : Tile) (o : Nat) (d : PBytes) (i : Nat) (h : i < d.length) : SMap.get 0#8 (x.write o d).mem (o + i) = (nth (0#8, false) d i).1 := by
  have key : ∀ (n : Nat) (m : List Host.Cell), i < n →
      SMap.get 0#8 ((List.range n).foldl (fun m i => SMap.put 0#8 m (o + i) (nth (0#8, false) d i).1) m) (o + i) = (nth (0#8, false) d i).1 := by
    intro n
    induction n with
    | zero => intro m hn; omega
    | succ n ih =>
      intro m hn
      rw [List.range_succ, List.foldl_append, List.foldl_cons, List.foldl_nil, SMap.get_put]
      by_cases e : i = n
      · subst e; rw [if_pos rfl]
      · rw [if_neg (by omega)]; exact ih m (by omega)
  rw [tileWrite_mem]
  exact key d.length x.mem h

/-- At reset every memory is in canonical form. -/
theorem reset_memory_wf : Memory.wf State.reset.stk.mem = true ∧ ∀ t, Memory.wf (tileOf State.reset t).mem = true := ⟨rfl, fun _ => rfl⟩

end Sys2Proof.Machine
end

