-- ==== Sys2Proof/Laws/Gate.lean ====
section
/-! SUPPORT. Which shared operations leave the Gate's window, its words and the queue of waiting commands alone: all that write registers above the Gate's
block (R358, R361). -/

namespace Sys2Proof.Machine
open Sys2Proof

/-- The Gate's window, its words and the waiting commands are as before. -/
def KeepsGate (s s' : State) : Prop := s'.gate.open_ = s.gate.open_ ∧ Safety.glWords s' = Safety.glWords s ∧ s'.pending = s.pending

theorem KeepsGate.refl (s : State) : KeepsGate s s := ⟨rfl, rfl, rfl⟩

theorem KeepsGate.trans {a b c : State} (h : KeepsGate a b) (k : KeepsGate b c) : KeepsGate a c :=
  ⟨k.1.trans h.1, k.2.1.trans h.2.1, k.2.2.trans h.2.2⟩

/-- A state with the same window, registers and queue. -/
theorem KeepsGate.of_same {s s' : State} (h1 : s'.gate.open_ = s.gate.open_) (h2 : s'.regs = s.regs) (h3 : s'.pending = s.pending) : KeepsGate s s' :=
  ⟨h1, by unfold Safety.glWords; rw [h2], h3⟩

/-- The Gate's words decide every register of its block. -/
theorem KeepsGate.rget_eq {s s' : State} (h : KeepsGate s s') (r : Reg) (hr : r.off < 0x100) : rget s' r = rget s r := by
  have key : ∀ m : SMap Word, SMap.get r.rst (m.filter (fun e => decide (e.1 < 0x100))) r.off = SMap.get r.rst m r.off := by
    intro m
    induction m with
    | nil => rfl
    | cons e m ih =>
      obtain ⟨k, v⟩ := e
      by_cases hk : k < 0x100
      · simp only [List.filter_cons, hk, decide_true, if_true, SMap.get_cons, ih]
      · have hn : k ≠ r.off := by omega
        simp only [List.filter_cons, hk, decide_false, Bool.false_eq_true, if_false, SMap.get_cons, if_neg hn, ih]
  have e := h.2.1
  unfold Safety.glWords at e
  unfold rget
  rw [← key s'.regs, ← key s.regs, e]

theorem keepsGate_rset (r : Reg) (v : Word) (s : State) (h : 0x100 ≤ r.off) : KeepsGate s (rset r v s) :=
  ⟨rfl, SMap.filter_put _ _ _ _ _ (fun _ => by simp; omega), rfl⟩

theorem keepsGate_rsetBits (r : Reg) (hi lo v : Nat) (s : State) (h : 0x100 ≤ r.off) : KeepsGate s (rsetBits r hi lo v s) := keepsGate_rset r _ s h
theorem keepsGate_rsetBit (r : Reg) (i : Nat) (b : Bool) (s : State) (h : 0x100 ≤ r.off) : KeepsGate s (rsetBit r i b s) := keepsGate_rset r _ s h
theorem keepsGate_rcount (r : Reg) (w n : Nat) (s : State) (h : 0x100 ≤ r.off) : KeepsGate s (rcount r w n s) := keepsGate_rset r _ s h

/-- A register of a table whose base lies above the Gate's block does too; `by decide` closes the premise for a name. -/
theorem le_reg_off (n : RegName) (i j : Nat) (h : 0x100 ≤ (regInfo n).base) : 0x100 ≤ (reg n i j).off := by
  show 0x100 ≤ (regInfo n).base + i * (regInfo n).s1 + j * (regInfo n).s2
  omega

theorem keepsGate_setTile (t : Nat) (x : Tile) (s : State) : KeepsGate s (setTile t x s) := .of_same rfl rfl rfl
theorem keepsGate_modTile (t : Nat) (f : Tile → Tile) (s : State) : KeepsGate s (modTile t f s) := .of_same rfl rfl rfl

/-- A repeated operation keeps what each turn keeps. -/
theorem keepsGate_foldl {β : Type} (f : State → β → State) (h : ∀ s b, KeepsGate s (f s b)) (bs : List β) (s : State) : KeepsGate s (bs.foldl f s) := by
  induction bs generalizing s with
  | nil => exact .refl s
  | cons b bs ih => exact (h s b).trans (ih (f s b))

theorem keepsGate_ite {c : Prop} [Decidable c] {s a b : State} (h1 : KeepsGate s a) (h2 : KeepsGate s b) : KeepsGate s (if c then a else b) := by
  split
  · exact h1
  · exact h2

theorem keepsGate_errWrite (ws : List Word) (s : State) : KeepsGate s (errWrite ws s) := by
  unfold errWrite
  extract_lets h z s1
  have h1 : KeepsGate s s1 := .of_same rfl rfl rfl
  exact (h1.trans (keepsGate_rset _ _ _ (le_reg_off _ _ _ (by decide)))).trans (keepsGate_rcount _ _ _ _ (le_reg_off _ _ _ (by decide)))

theorem keepsGate_portPush (ws : List Word) (s : State) : KeepsGate s (portPush ws s) := by
  unfold portPush
  refine keepsGate_ite (.of_same rfl rfl rfl) (keepsGate_ite (.of_same rfl rfl rfl) ?_)
  exact (KeepsGate.of_same (s' := { s with rec_ := { s.rec_ with port := s.rec_.port.drop 1 ++ [ws] } }) rfl rfl rfl).trans
    (keepsGate_rcount _ _ _ _ (le_reg_off _ _ _ (by decide)))

theorem keepsGate_asyncQueue (ring : Nat) (ws : List Word) (s : State) : KeepsGate s (asyncQueue ring ws s) := by
  unfold asyncQueue
  extract_lets r
  exact keepsGate_ite (.of_same rfl rfl rfl) (keepsGate_rsetBits _ _ _ _ _ (le_reg_off _ _ _ (by decide)))

/-- An event leaves the Gate (R410). -/
theorem keepsGate_eventX (code die src : Nat) (a b : Word) (ext : List Word) (s : State) : KeepsGate s (eventX code die src a b ext s) := by
  unfold eventX
  extract_lets ws idx e ep s1 s2
  have h1 : KeepsGate s s1 := keepsGate_errWrite _ s
  have h2 : KeepsGate s1 s2 := keepsGate_ite (.refl _) (keepsGate_portPush _ _)
  exact (h1.trans h2).trans (keepsGate_ite (keepsGate_asyncQueue _ _ _) (.refl _))

theorem keepsGate_event (code die src : Nat) (a b : Word) (s : State) : KeepsGate s (event code die src a b s) := keepsGate_eventX code die src a b _ s

theorem keepsGate_msixRaise (v : Nat) (s : State) : KeepsGate s (msixRaise v s) := by
  obtain ⟨p, e⟩ := msixRaise_eq v s
  rw [e]
  exact .of_same rfl rfl rfl

/-- A frame written leaves the Gate (R375). -/
theorem keepsGate_cplWrite (c : Nat) (f : CplFrame) (s : State) : KeepsGate s (cplWrite c f s) := by
  unfold cplWrite
  extract_lets tl ph w0 nx vec z s1 s2
  have h1 : KeepsGate s s1 := .of_same rfl rfl rfl
  have h2 : KeepsGate s1 s2 := keepsGate_rset _ _ _ (le_reg_off _ _ _ (by decide))
  exact (h1.trans h2).trans (keepsGate_ite (keepsGate_msixRaise _ _) (.refl _))

theorem keepsGate_cplPost (c : Nat) (f : CplFrame) (s : State) : KeepsGate s (cplPost c f s) := by
  unfold cplPost
  extract_lets h r
  refine keepsGate_ite (keepsGate_ite (.of_same rfl rfl rfl) (keepsGate_ite ?_ ?_)) (keepsGate_ite (keepsGate_cplWrite _ _ _) (.of_same rfl rfl rfl))
  · exact keepsGate_rsetBits _ _ _ _ _ (le_reg_off _ _ _ (by decide))
  · exact keepsGate_rcount _ _ _ _ (le_reg_off _ _ _ (by decide))

/-- The frames of a command leave the Gate (R376 to R378). -/
theorem keepsGate_postFrame (r : CmdRef) (status detail : Nat) (result : Word) (s : State) : KeepsGate s (postFrame r status detail result s) := by
  unfold postFrame
  exact keepsGate_ite (.refl s) (keepsGate_ite (keepsGate_cplPost _ _ _) (.of_same rfl rfl rfl))

theorem keepsGate_acceptCmd (r : CmdRef) (result : Word) (s : State) : KeepsGate s (acceptCmd r result s) :=
  (KeepsGate.of_same (s' := { s with cox := { s.cox with running := s.cox.running ++ [r] } }) rfl rfl rfl).trans (keepsGate_postFrame _ _ _ _ _)

theorem keepsGate_cplPosts (l : List OrdFrame) (s : State) : KeepsGate s (l.foldl (fun s o => cplPost (cplOf s o.ref.ring) o.frame s) s) := by
  induction l generalizing s with
  | nil => exact .refl s
  | cons o l ih => exact (keepsGate_cplPost _ _ _).trans (ih _)

theorem keepsGate_releaseOrder (ring : Nat) (s : State) : KeepsGate s (releaseOrder ring s) := by
  unfold releaseOrder
  extract_lets l
  exact (KeepsGate.of_same (s' := { s with cox := { s.cox with order := l.filter (fun o => o.behind != 0) } }) rfl rfl rfl).trans (keepsGate_cplPosts _ _)

theorem keepsGate_postFinal (r : CmdRef) (f : CplFrame) (s : State) : KeepsGate s (postFinal r f s) := by
  unfold postFinal
  split
  · exact .of_same rfl rfl rfl
  · exact keepsGate_cplPost _ _ _

theorem keepsGate_finishCmd (r : CmdRef) (status detail : Nat) (result : Word) (s : State) : KeepsGate s (finishCmd r status detail result s) := by
  unfold finishCmd
  extract_lets s1
  have h0 : KeepsGate s (dropRunning r s) := .of_same rfl rfl rfl
  have h1 : KeepsGate s s1 := keepsGate_ite h0 (h0.trans (keepsGate_postFinal _ _ _))
  exact keepsGate_ite (h1.trans (keepsGate_releaseOrder _ _)) h1

theorem keepsGate_finishOpt (r : Option CmdRef) (status detail : Nat) (result : Word) (s : State) : KeepsGate s (finishOpt r status detail result s) := by
  cases r with
  | none => exact .refl s
  | some r => exact keepsGate_finishCmd r status detail result s

theorem keepsGate_setDev (new : DevState) (cause : Nat) (s : State) : KeepsGate s (setDev new cause s) := by
  unfold setDev
  extract_lets old z s1
  have h1 : KeepsGate s s1 := .of_same rfl rfl rfl
  exact h1.trans (keepsGate_event _ _ _ _ _ _)

theorem keepsGate_workAccepted (s : State) : KeepsGate s (workAccepted s) := by
  unfold workAccepted
  exact keepsGate_ite (keepsGate_setDev _ _ _) (.refl s)

theorem keepsGate_enterHold (cause : Nat) (s : State) : KeepsGate s (enterHold cause s) := by
  unfold enterHold
  extract_lets fr s1
  have h1 : KeepsGate s s1 := keepsGate_setDev _ _ _
  exact h1.trans (.of_same rfl rfl rfl)

theorem keepsGate_pmcAdd (t k n : Nat) (s : State) : KeepsGate s (pmcAdd t k n s) := by
  unfold pmcAdd
  extract_lets r v s1
  have h1 : KeepsGate s s1 := keepsGate_rset _ _ _ (le_reg_off _ _ _ (by decide))
  exact h1.trans (keepsGate_ite (keepsGate_rsetBit _ _ _ _ (le_reg_off _ _ _ (by decide))) (.refl _))

theorem keepsGate_pmcCount (t ev n : Nat) (s : State) : KeepsGate s (pmcCount t ev n s) := by
  unfold pmcCount
  exact keepsGate_ite (.refl s) (keepsGate_foldl _ (fun s _ => keepsGate_ite (keepsGate_pmcAdd _ _ _ _) (.refl s)) _ s)

/-! ### Stack memory -/

theorem keepsGate_stkUe (a l : Nat) (s : State) : KeepsGate s (stkUe a l s) := by
  unfold stkUe
  extract_lets q n s1 s2 s3
  have h1 : KeepsGate s s1 := keepsGate_rcount _ _ _ _ (le_reg_off _ _ _ (by decide))
  have h2 : KeepsGate s1 s2 := keepsGate_rset _ _ _ (le_reg_off _ _ _ (by decide))
  have h3 : KeepsGate s2 s3 := keepsGate_rsetBit _ _ _ _ (le_reg_off _ _ _ (by decide))
  exact ((h1.trans h2).trans h3).trans (keepsGate_event _ _ _ _ _ _)

theorem keepsGate_slotCount (n use k : Nat) (s : State) : KeepsGate s (slotCount n use k s) := keepsGate_rcount _ _ _ _ (le_reg_off _ _ _ (by decide))

theorem keepsGate_proposeRepair (k : Nat) (s : State) : KeepsGate s (proposeRepair k s) := by
  unfold proposeRepair
  extract_lets kind n st p
  refine keepsGate_ite (.refl s) ?_
  refine KeepsGate.trans ?_ (keepsGate_event _ _ _ _ _ _)
  exact .of_same rfl rfl rfl

theorem keepsGate_noteRow (q errs : Nat) (s : State) : KeepsGate s (noteRow q errs s) := by
  unfold noteRow
  extract_lets k hit src old r propose rest full rest2 s1 s2
  have h1 : KeepsGate s s1 := .of_same rfl rfl rfl
  have h2 : KeepsGate s1 s2 := keepsGate_ite (keepsGate_proposeRepair _ _) (.refl _)
  exact keepsGate_ite (keepsGate_ite (.of_same rfl rfl rfl) (.refl s))
    (keepsGate_ite ((h1.trans h2).trans (keepsGate_event _ _ _ _ _ _)) (h1.trans h2))

theorem keepsGate_lineDecode (l : Nat) (s : State) : KeepsGate s (lineDecode l s).2 := by
  have hf : ∀ (q k : Nat) (s : State), KeepsGate s (noteRow q k (rcount (reg .STK_CE (physStack q)) 48 1 (clearFlips l s))) := fun q k s =>
    ((KeepsGate.of_same rfl rfl rfl : KeepsGate s (clearFlips l s)).trans (keepsGate_rcount _ _ _ _ (le_reg_off _ _ _ (by decide)))).trans (keepsGate_noteRow _ _ _)
  have hl : ∀ (n : Nat) (s : State), KeepsGate s (freeLine l n s) := fun n s => .of_same rfl rfl rfl
  have ht : KeepsGate s (takeFresh s).2 := .of_same rfl rfl rfl
  unfold lineDecode
  extract_lets q k fixed
  split
  · exact keepsGate_noteRow _ _ _
  · split
    · exact hf _ _ _
    · split
      · exact keepsGate_noteRow _ _ _
      · split
        next w s' he =>
        have h' : KeepsGate s s' := by
          have : s' = (takeFresh s).2 := (congrArg Prod.snd he).symm
          rw [this]; exact ht
        split
        · exact h'.trans (hl _ _)
        · split
          · exact (h'.trans (hl _ _)).trans (hf _ _ _)
          · exact h'.trans (keepsGate_noteRow _ _ _)

theorem keepsGate_lineFilled (l use : Nat) (pois : Bool) (s : State) : KeepsGate s (lineFilled l use pois s) := by
  unfold lineFilled
  extract_lets n z s1
  have h1 : KeepsGate s s1 := .of_same rfl rfl rfl
  exact (h1.trans (keepsGate_rcount _ _ _ _ (le_reg_off _ _ _ (by decide)))).trans (keepsGate_slotCount _ _ _ _)

theorem keepsGate_lineMeet (a l : Nat) (s : State) : KeepsGate s (lineMeet a l s) := by
  unfold lineMeet
  extract_lets bad r s1
  have hr : KeepsGate s r.2 := keepsGate_lineDecode l s
  have h1 : KeepsGate r.2 s1 := by
    show KeepsGate r.2 (match combOf r.2 l with | some e => lineFilled l e.use (bad || r.1) r.2 | none => r.2)
    split
    · exact keepsGate_lineFilled _ _ _ _
    · exact .refl _
  exact keepsGate_ite ((hr.trans h1).trans (keepsGate_stkUe _ _ _)) (hr.trans h1)

theorem keepsGate_lineRead (cls a : Nat) (s : State) : KeepsGate s (lineRead cls a s) := by
  unfold lineRead
  extract_lets l n
  exact keepsGate_ite (.refl s) (((keepsGate_rcount _ _ _ _ (le_reg_off _ _ _ (by decide))).trans (keepsGate_slotCount _ _ _ _)).trans (keepsGate_lineMeet _ _ _))

/-- A read of stack memory leaves the Gate. -/
theorem keepsGate_stkRead (cls a n : Nat) (s : State) : KeepsGate s (stkRead cls a n s).2 :=
  keepsGate_foldl _ (fun s l => keepsGate_lineRead cls l s) _ s

theorem keepsGate_wcbRmw (n : Nat) (s : State) : KeepsGate s (wcbRmw n s) := by
  unfold wcbRmw
  split
  · exact .refl s
  · extract_lets r bad s1 s2
    have hr : KeepsGate s r.2 := keepsGate_lineDecode _ s
    have h1 : KeepsGate r.2 s1 := ((keepsGate_rcount _ _ _ _ (le_reg_off _ _ _ (by decide))).trans (keepsGate_rcount _ _ _ _ (le_reg_off _ _ _ (by decide)))).trans (keepsGate_slotCount _ _ _ _)
    have h2 : KeepsGate s1 s2 := keepsGate_ite (keepsGate_stkUe _ _ _) (.refl _)
    exact ((hr.trans h1).trans h2).trans (keepsGate_lineFilled _ _ _ _)

end Sys2Proof.Machine
end

