-- ==== Sys2Proof/Laws/Issue.lean ====
section
/-! SUPPORT. The one issue operation of the tile instructions (R56 to R58, R81): what it does when the instruction can issue, what its accounting changes,
and what it leaves alone. -/

namespace Sys2Proof.Machine
open Sys2Proof

/-- What holds of the state that an effect leaves, if it leaves one. -/
def issuedHolds (P : State → Prop) : Issued → Prop
  | .done s => P s
  | .skip _ s => P s
  | .jump _ s => P s
  | .fault _ _ _ s => P s
  | .stall => True
  | .wait _ s => P s
  | .ends s => P s

/-- An instruction whose words lie in the code region and are not poisoned, whose reserved fields are 0, that names no register still to be written and whose
guard holds, has its effect. -/
theorem issue_runs (t : Nat) (w : BitVec 56) (second : Bool) (f : Form) (eff : Hdr → State → Issued) (s : State)
    (h1 : running s = true) (h2 : (tileOf s t).seq = .running)
    (h3 : (tileOf s t).pcOutside (tileOf s t).pc = false) (h3' : f.words = 2 → (tileOf s t).pcOutside ((tileOf s t).pc + 8) = false)
    (h4 : ((tileOf s t).fetched 0).2 = false) (h4' : f.words = 2 → ((tileOf s t).fetched 1).2 = false)
    (h5 : f.words = 2 → second = true) (h6 : f.bad = false) (h7 : f.rs.any (tileOf s t).pendS = false) (h8 : f.rp.any (tileOf s t).pendP = false)
    (h9 : (tileOf s t).pendP (bits w 54 52) = false) (h10 : guardOf (tileOf s t) w = true) :
    issue t w second f eff s =
      match eff { sn := (tileOf s t).sn, pc := (tileOf s t).pc, post := f.post } (accountIssue t f false s) with
      | .done s' => advanceTile t f.words s'
      | .skip n s' => advanceTile t n s'
      | .jump tg s' => moveIssue t (fun x => x.jump tg) s'
      | .fault c a sw s' => raiseFault t { code := c, pc := (tileOf s t).pc, addr := a, sw := sw } s'
      | .stall => s
      | .wait q s' => modTile t (fun x => { x with seq := .waiting q }) (advanceTile t f.words s')
      | .ends s' => modTile t (fun x => { x with seq := .ending }) s' := by
  have g1 : (running s && decide ((tileOf s t).seq = .running)) = true := by simp [h1, h2]
  have g3 : ((tileOf s t).pcOutside (tileOf s t).pc || (decide (f.words = 2) && (tileOf s t).pcOutside ((tileOf s t).pc + 8))) = false := by
    by_cases e : f.words = 2
    · simp [h3, h3' e]
    · simp [h3, e]
  have g4 : (((tileOf s t).fetched 0).2 || (decide (f.words = 2) && ((tileOf s t).fetched 1).2)) = false := by
    by_cases e : f.words = 2
    · simp [h4, h4' e]
    · simp [h4, e]
  have g5 : (decide (f.words = 2) && !second) = false := by
    by_cases e : f.words = 2
    · simp [h5 e]
    · simp [e]
  have g7 : (f.rs.any (tileOf s t).pendS || f.rp.any (tileOf s t).pendP || (tileOf s t).pendP (bits w 54 52)) = false := by rw [h7, h8, h9]; rfl
  unfold issue
  extract_lets x flt h
  rw [if_neg (by simp only [x]; rw [g1]; decide), if_neg (by simp only [x]; rw [g3]; decide), if_neg (by simp only [x]; rw [g4]; decide), if_neg (by rw [g5]; decide),
    if_neg (by rw [h6]; decide), if_neg (by simp only [x]; rw [g7]; decide), if_neg (by simp only [x]; rw [h10]; decide)]
  all_goals rfl

/-- A tile that is not issuing, or outputs that are off, leave the state as it is (log 2). -/
theorem issue_idle (t : Nat) (w : BitVec 56) (second : Bool) (f : Form) (eff : Hdr → State → Issued) (s : State)
    (h : running s = false ∨ (tileOf s t).seq ≠ .running) : issue t w second f eff s = s := by
  unfold issue
  extract_lets x flt h'
  have g : (!(running s && decide (x.seq = .running))) = true := by
    cases h with
    | inl a => simp [a]
    | inr a =>
      have b : ¬ x.seq = .running := a
      simp [b]
  rw [if_pos g]

/-- Sampling changes the tile's own sampling state and the counter of free values. -/
theorem sampleIssue_eq (t words sn pc : Nat) (i : SampInfo) (s : State) :
    ∃ l r q fr, sampleIssue t words sn pc i s = { setTile t { tileOf s t with sampLeft := l, lfsr := r, samples := q } s with fresh := fr } ∨ sampleIssue t words sn pc i s = s := by
  unfold sampleIssue
  extract_lets p tg x y
  split
  · exact ⟨0, 0, [], 0, .inr rfl⟩
  · split
    · exact ⟨0, 0, [], 0, .inr rfl⟩
    · split
      · exact ⟨_, _, _, _, .inl rfl⟩
      · exact ⟨x.sampLeft - words, x.lfsr, x.samples, s.fresh, .inl rfl⟩

theorem keepsGate_sampleIssue (t words sn pc : Nat) (i : SampInfo) (s : State) : KeepsGate s (sampleIssue t words sn pc i s) := by
  obtain ⟨_, _, _, _, e | e⟩ := sampleIssue_eq t words sn pc i s
  · rw [e]; exact .of_same rfl rfl rfl
  · rw [e]; exact .refl s

theorem keepsGate_accountIssue (t : Nat) (f : Form) (g : Bool) (s : State) : KeepsGate s (accountIssue t f g s) := by
  unfold accountIssue
  extract_lets x s1 s2
  have h1 : KeepsGate s s1 := keepsGate_pmcCount _ _ _ _
  have h2 : KeepsGate s1 s2 := keepsGate_sampleIssue _ _ _ _ _ _
  exact (h1.trans h2).trans (keepsGate_modTile _ _ _)

theorem keepsGate_slotInFlight (d : Drain) (s : State) : KeepsGate s (slotInFlight d s) := by
  unfold slotInFlight
  extract_lets g used
  exact keepsGate_ite (.refl s) (keepsGate_ite (keepsGate_rsetBits _ _ _ _ _ (le_reg_off _ _ _ (by decide))) (keepsGate_rsetBit _ _ _ _ (le_reg_off _ _ _ (by decide))))

/-- Passes that a fault discards leave the Gate (R185). -/
theorem keepsGate_discardPasses (t : Nat) (s : State) : KeepsGate s (discardPasses t s) := by
  unfold discardPasses
  split
  · exact .refl s
  · exact (keepsGate_foldl _ (fun s (d : Drain) => keepsGate_slotInFlight d s) _ _).trans (keepsGate_modTile _ _ _)

/-- A fault leaves the Gate (R86). -/
theorem keepsGate_raiseFault (t : Nat) (f : FaultInfo) (s : State) : KeepsGate s (raiseFault t f s) := by
  unfold raiseFault
  split
  · exact .refl s
  · exact .refl s
  · exact (keepsGate_discardPasses _ _).trans (keepsGate_modTile _ _ _)

theorem keepsGate_unitFault (t : Nat) (h : Hdr) (f : FaultInfo) (s : State) : KeepsGate s (unitFault t h f s) := (keepsGate_modTile _ _ _).trans (keepsGate_raiseFault _ _ _)

theorem keepsGate_addCounter (t k n : Nat) (h : Hdr) (s : State) : KeepsGate s (addCounter t k n h s) := by
  unfold addCounter
  extract_lets v
  exact keepsGate_ite (keepsGate_unitFault _ _ _ _) (keepsGate_modTile _ _ _)

theorem keepsGate_post (t : Nat) (h : Hdr) (s : State) : KeepsGate s (post t h s) := by
  unfold post
  split
  · exact keepsGate_addCounter _ _ _ _ _
  · exact .refl s

/-- A word found in error leaves the Gate (R24). -/
theorem keepsGate_wordErr (t o kind : Nat) (s : State) : KeepsGate s (wordErr t o kind s) := by
  unfold wordErr
  extract_lets s1 s2 s3
  have h1 : KeepsGate s s1 := keepsGate_rcount _ _ _ _ (le_reg_off _ _ _ (by decide))
  have h2 : KeepsGate s1 s2 := (keepsGate_rsetBit _ _ _ _ (le_reg_off _ _ _ (by decide))).trans (keepsGate_rset _ _ _ (le_reg_off _ _ _ (by decide)))
  have h3 : KeepsGate s2 s3 := keepsGate_modTile _ _ _
  exact keepsGate_ite (keepsGate_rcount _ _ _ _ (le_reg_off _ _ _ (by decide))) (((h1.trans h2).trans h3).trans (keepsGate_event _ _ _ _ _ _))

theorem keepsGate_meetWords (t o n : Nat) (s : State) : KeepsGate s (meetWords t o n s) := by
  unfold meetWords
  extract_lets hit es
  exact keepsGate_ite (.refl s) ((keepsGate_modTile _ _ _).trans (keepsGate_foldl _ (fun s (e : Nat × Nat) => keepsGate_wordErr t (e.1 * 8) e.2 s) _ _))

/-- Fetch leaves the Gate (R51). -/
theorem keepsGate_fetchTile (t : Nat) (s : State) : KeepsGate s (fetchTile t s) := by
  unfold fetchTile
  extract_lets os s1
  have h1 : KeepsGate s s1 := by
    cases h : os with
    | nil => simp only [s1, h]; exact .refl s
    | cons o l => simp only [s1, h]; exact keepsGate_meetWords _ _ _ _
  exact h1.trans (keepsGate_modTile _ _ _)

theorem keepsGate_moveIssue (t : Nat) (f : Tile → Tile) (s : State) : KeepsGate s (moveIssue t f s) := (keepsGate_modTile _ _ _).trans (keepsGate_fetchTile _ _)

theorem keepsGate_advanceTile (t words : Nat) (s : State) : KeepsGate s (advanceTile t words s) := keepsGate_moveIssue _ _ _

/-- An instruction whose effect leaves the Gate leaves it. -/
theorem keepsGate_issue (t : Nat) (w : BitVec 56) (second : Bool) (f : Form) (eff : Hdr → State → Issued) (s : State)
    (he : ∀ h s1, KeepsGate s s1 → issuedHolds (KeepsGate s1) (eff h s1)) : KeepsGate s (issue t w second f eff s) := by
  unfold issue
  extract_lets x flt h
  have hf : ∀ c, KeepsGate s (flt c) := fun c => keepsGate_raiseFault _ _ _
  refine keepsGate_ite (.refl s) (keepsGate_ite (hf _) (keepsGate_ite (hf _) (keepsGate_ite (hf _) (keepsGate_ite (hf _) (keepsGate_ite (.refl s) (keepsGate_ite ?_ ?_))))))
  · exact ((keepsGate_accountIssue _ _ _ _).trans (keepsGate_post _ _ _)).trans (keepsGate_advanceTile _ _ _)
  · have ha : KeepsGate s (accountIssue t f false s) := keepsGate_accountIssue t f false s
    have hi := he h (accountIssue t f false s) ha
    generalize eff h (accountIssue t f false s) = e at hi ⊢
    cases e with
    | done s' => exact (ha.trans hi).trans (keepsGate_advanceTile _ _ _)
    | skip n s' => exact (ha.trans hi).trans (keepsGate_advanceTile _ _ _)
    | jump tg s' => exact (ha.trans hi).trans (keepsGate_moveIssue _ _ _)
    | fault c a sw s' => exact (ha.trans hi).trans (keepsGate_raiseFault _ _ _)
    | stall => exact .refl s
    | wait q s' => exact ((ha.trans hi).trans (keepsGate_advanceTile _ _ _)).trans (keepsGate_modTile _ _ _)
    | ends s' => exact (ha.trans hi).trans (keepsGate_modTile _ _ _)

end Sys2Proof.Machine
end

