-- ==== Sys2Proof/Laws/Spares.lean ====
section
/-! SUPPORT. The shipped map (R27, R28): at least 16 spares of a die are free, no tile stands on a free spare, and a die whose tiles
are at home has a usable spare. -/

namespace Sys2Proof.Machine
open Sys2Proof

theorem shippedUsed_fold (d : Nat) (is : List Nat) : ∀ l : List (Nat × Option Nat),
    (is.foldl (useSpare d) l).length ≤ l.length + is.length ∧
    ((∀ e ∈ l, e.1 < 24) → ∀ e ∈ (is.foldl (useSpare d) l), e.1 < 24) := by
  induction is with
  | nil => intro l; exact ⟨by simp, fun h => by simpa using h⟩
  | cons i is ih =>
    intro l
    simp only [List.foldl_cons, useSpare]
    cases Config.shippedUse d i with
    | none => obtain ⟨a, b⟩ := ih l; exact ⟨by simp only [List.length_cons]; omega, b⟩
    | some u =>
      simp only
      split
      · obtain ⟨a, b⟩ := ih l; exact ⟨by simp only [List.length_cons]; omega, b⟩
      · obtain ⟨a, b⟩ := ih (l ++ [(u.1.val, u.2.map (·.val))])
        refine ⟨by simp only [List.length_append, List.length_cons, List.length_nil] at a ⊢; omega, fun h => b ?_⟩
        intro e he
        rcases List.mem_append.1 he with he | he
        · exact h e he
        · rw [List.mem_singleton.1 he]; exact u.1.isLt

/-- At most eight spares of a die are not free as shipped (R28). -/
theorem shippedUsed_length (d : Nat) : (shippedUsed d).length ≤ 8 := by
  have h := (shippedUsed_fold d (List.range 8) []).1
  simpa [shippedUsed] using h

theorem shippedUsed_column (d : Nat) : ∀ e ∈ shippedUsed d, e.1 < 24 :=
  (shippedUsed_fold d (List.range 8) []).2 (by simp)

/-- Every die ships with at least 16 free spares (R28). -/
theorem shippedSpares_length (d : Nat) : 16 ≤ (shippedSpares d).length := by
  let u : Finset Nat := ((shippedUsed d).map (·.1)).toFinset
  have hu : u.card ≤ 8 := le_trans (List.toFinset_card_le _) (by rw [List.length_map]; exact shippedUsed_length d)
  have hs : (Finset.range 24 \ u).card ≤ ((List.range 24).filter (fun c => !(shippedUsed d).any (fun e => e.1 == c))).toFinset.card := by
    apply Finset.card_le_card
    intro c hc
    simp only [Finset.mem_sdiff, Finset.mem_range, u, List.mem_toFinset, List.mem_map, not_exists, not_and] at hc
    simp only [List.mem_toFinset, List.mem_filter, List.mem_range, Bool.not_eq_true', List.any_eq_false, beq_iff_eq]
    exact ⟨hc.1, fun e he => hc.2 e he⟩
  have h1 := Finset.le_card_sdiff u (Finset.range 24)
  have h2 := List.toFinset_card_le ((List.range 24).filter (fun c => !(shippedUsed d).any (fun e => e.1 == c)))
  simp only [Finset.card_range] at h1
  simp only [shippedSpares, List.length_map]
  omega

/-- No tile stands on a spare of the shipped map that is free (R27). -/
theorem shippedPos_ne_spare {d c t : Nat} (_ : d < 4) (hc : c < 24) (_ : t < 1152)
    (hf : (shippedUsed d).any (fun e => e.1 == c) = false) : shippedPos t ≠ sparePos d c := by
  intro h
  simp only [shippedPos] at h
  split at h
  · next e he =>
    have hm := List.mem_of_find?_eq_some he
    have hl := shippedUsed_column _ e hm
    simp only [sparePos, Prod.mk.injEq] at h
    have hdie : t / 288 = d := by omega
    have hcol : e.1 = c := by omega
    rw [hdie] at hm
    simp only [List.any_eq_false, beq_iff_eq] at hf
    exact hf e hm hcol
  · simp only [factoryPos, sparePos, Prod.mk.injEq] at h
    have := h.2
    split at this <;> omega

theorem shippedPos_bound {t : Nat} (ht : t < 1152) : (shippedPos t).1 < 64 ∧ (shippedPos t).2 < 32 := by
  simp only [shippedPos]
  split
  · next e he =>
    have hl := shippedUsed_column _ e (List.mem_of_find?_eq_some he)
    simp only [sparePos]
    omega
  · simp only [factoryPos]
    split <;> constructor <;> omega

/-- A table that lists no key from j on has nothing at j. -/
theorem SMap.get_above {α : Type} (d : α) (j : Nat) : ∀ m : SMap α, m.all (fun e => decide (e.1 < j)) = true → SMap.get d m j = d
  | [], _ => rfl
  | (k, v) :: m, h => by
    simp only [List.all_cons, Bool.and_eq_true, decide_eq_true_eq] at h
    rw [SMap.get, if_neg (by omega)]
    exact SMap.get_above d j m h.2

/-- While no register from a tile's TILE_MAP on is listed, the tile's map is the shipped one (R27). -/
theorem tileMap_shipped {s : State} {t : Nat} (h : s.regs.all (fun e => decide (e.1 < (reg .TILE_MAP t).off)) = true) : rget s (reg .TILE_MAP t) = shippedMapWord t :=
  SMap.get_above _ _ _ h

/-- While no tile register is listed, the whole map is the shipped one (R27). -/
theorem tileMaps_shipped {s : State} (h : s.regs.all (fun e => decide (e.1 < 0x1000000)) = true) (t : Nat) : rget s (reg .TILE_MAP t) = shippedMapWord t := by
  have hk : (reg .TILE_MAP t).off = 0x1000008 + t * 0x4000 + 0 * 0 := rfl
  apply tileMap_shipped
  rw [hk]
  simp only [List.all_eq_true, decide_eq_true_eq] at h ⊢
  intro e he
  have := h e he
  omega

/-- A tile whose register holds the shipped map stands at its shipped position. -/
theorem physPos_shipped {s : State} {t : Nat} (ht : t < 1152) (h : rget s (reg .TILE_MAP t) = shippedMapWord t) : physPos s t = shippedPos t := by
  obtain ⟨h1, h2⟩ := shippedPos_bound ht
  have key : ∀ a b c : Nat, a < 64 → b < 32 → (c = 0 ∨ c = 65536) →
      (bits (BitVec.ofNat 64 (a % 64 + b % 32 * 256 + c)) 5 0, bits (BitVec.ofNat 64 (a % 64 + b % 32 * 256 + c)) 12 8) = (a, b) := by
    intro a b c ha hb hc
    simp only [bits, BitVec.toNat_ofNat, Nat.shiftRight_eq_div_pow, Prod.mk.injEq]
    omega
  unfold physPos
  simp only [h, shippedMapWord]
  rw [key _ _ _ h1 h2 (by split <;> simp)]

/-- A tile stands where the part was shipped, or in no row of spares. -/
def atHome (s : State) (t : Nat) : Prop := physPos s t = shippedPos t ∨ (physPos s t).2 % 13 ≠ 6

/-- With every tile at home, no tile stands on a free spare. -/
theorem tileAt_spare {s : State} {d c : Nat} (hd : d < 4) (hc : c < 24) (hm : ∀ t, t < 1152 → atHome s t)
    (hf : (shippedUsed d).any (fun e => e.1 == c) = false) : tileAt s (sparePos d c) = none := by
  simp only [tileAt, List.find?_eq_none, List.mem_range, beq_iff_eq]
  intro t ht e
  rcases hm t ht with h | h
  · exact shippedPos_ne_spare hd hc ht hf (h ▸ e)
  · rw [e] at h
    simp only [sparePos] at h
    omega

/-- A position in whose row every router turns is not cut off (R32). -/
theorem cutOff_row {s : State} {p : Pos} (h : ∀ x, isPass s (x, p.2) = false) : cutOff s p = false := by
  simp only [cutOff, List.any_eq_false, h, Bool.and_false]
  simp

/-- Some column of a die's row of spares is free as shipped (R28). -/
theorem freeColumn (d : Nat) : ∃ c, c < 24 ∧ (shippedUsed d).any (fun e => e.1 == c) = false := by
  have hl := shippedSpares_length d
  cases hs : shippedSpares d with
  | nil => rw [hs] at hl; simp at hl
  | cons p ps =>
    have hmem : p ∈ shippedSpares d := by rw [hs]; exact List.mem_cons_self
    simp only [shippedSpares, List.mem_map, List.mem_filter, List.mem_range, Bool.not_eq_true'] at hmem
    obtain ⟨c, h, _⟩ := hmem
    exact ⟨c, h⟩

/-- With every tile at home, no position retired and no router in a die's row of spares in pass-through, a spare that is free as shipped is usable, and no tile stands there. -/
theorem usableSpare_home {s : State} {d c : Nat} (hd : d < 4) (hc : c < 24) (hf : (shippedUsed d).any (fun e => e.1 == c) = false) (hm : ∀ t, t < 1152 → atHome s t)
    (hr : s.retired = []) (hp : ∀ x, isPass s (x, d / 2 * 13 + 6) = false) : sparePos d c ∈ usableSpares s d ∧ tileAt s (sparePos d c) = none := by
  have ht := tileAt_spare hd hc hm hf
  have hdie : dieOfPos (sparePos d c).1 (sparePos d c).2 = d := by simp only [dieOfPos, sparePos]; omega
  have hpass : SMap.get false s.passThrough (posKey (sparePos d c).1 (sparePos d c).2) = false := hp _
  have hs : sparePos d c ∈ shippedSpares d := List.mem_map.mpr ⟨c, List.mem_filter.mpr ⟨List.mem_range.mpr hc, by simp [hf]⟩, rfl⟩
  refine ⟨?_, ht⟩
  simp only [usableSpares, freeSpares, List.mem_filter]
  exact ⟨⟨hs, by simp [hdie, hpass, mapped, ht, hr, SMap.get]⟩, by simp [cutOff_row (p := sparePos d c) hp]⟩

/-- So the die's usable spares are not empty. -/
theorem usableSpares_home {s : State} {d : Nat} (hd : d < 4) (hm : ∀ t, t < 1152 → atHome s t) (hr : s.retired = []) (hp : ∀ x, isPass s (x, d / 2 * 13 + 6) = false) :
    usableSpares s d ≠ [] :=
  let ⟨_, hc, hf⟩ := freeColumn d
  List.ne_nil_of_mem (usableSpare_home hd hc hf hm hr hp).1

/-- A tile with no register listed from its TILE_MAP on is at home. -/
theorem atHome_shipped {s : State} (h : s.regs.all (fun e => decide (e.1 < 0x1000000)) = true) (t : Nat) (ht : t < 1152) : atHome s t :=
  .inl (physPos_shipped ht (tileMaps_shipped h t))

/-- A die with a usable spare has a nearest one (R407). -/
theorem nearestSpare_exists {s : State} {t : Nat} (h : usableSpares s (dieOfTile t) ≠ []) : ∃ p, nearestSpare s t p = true := by
  obtain ⟨p, hp, hmin⟩ := Finset.exists_min_image (usableSpares s (dieOfTile t)).toFinset (physDist (physPos s t)) (by
    cases hu : usableSpares s (dieOfTile t) with
    | nil => exact absurd hu h
    | cons a l => exact ⟨a, by simp⟩)
  refine ⟨p, ?_⟩
  simp only [List.mem_toFinset] at hp hmin
  simp only [nearestSpare, Bool.and_eq_true, List.contains_iff_mem, List.all_eq_true, decide_eq_true_eq]
  exact ⟨hp, hmin⟩

/-- A nearest spare lies on the package's grid of routers. -/
theorem nearestSpare_bound {s : State} {t : Nat} {p : Nat × Nat} (ht : t < 1152) (h : nearestSpare s t p = true) : p.1 < 48 ∧ p.2 < 26 := by
  simp only [nearestSpare, Bool.and_eq_true, List.contains_iff_mem] at h
  have hm := h.1
  simp only [usableSpares, freeSpares, shippedSpares, List.mem_filter, List.mem_map, List.mem_range] at hm
  obtain ⟨⟨⟨c, ⟨hc, _⟩, rfl⟩, _⟩, _⟩ := hm
  simp only [sparePos, dieOfTile]
  omega

end Sys2Proof.Machine
end

