-- ==== Sys2Proof/Laws/Window.lean ====
section
/-! SUPPORT. The packets of a window access: fuel does not matter, a range of one packet, and a longer one (R44). -/

namespace Sys2Proof.Machine
open Sys2Proof

theorem alignedPieces_fuel (f g off n : Nat) (hf : n ≤ f) (hg : n ≤ g) : alignedPieces f off n = alignedPieces g off n := by
  induction f generalizing g off n with
  | zero =>
    obtain rfl : n = 0 := by omega
    cases g <;> rfl
  | succ f ih =>
    cases g with
    | zero =>
      obtain rfl : n = 0 := by omega
      rfl
    | succ g =>
      simp only [alignedPieces]
      split
      · rfl
      · exact congrArg _ (ih _ _ _ (by omega) (by omega))

theorem alignedPieces_one (off n : Nat) (h0 : 0 < n) (h : off % 64 + n ≤ 64) : alignedPieces n off n = [(off, n)] := by
  obtain ⟨m, rfl⟩ : ∃ m, n = m + 1 := ⟨n - 1, by omega⟩
  have hk : min (m + 1) (64 - off % 64) = m + 1 := by omega
  simp only [alignedPieces, hk, Nat.sub_self]
  cases m <;> rfl

theorem alignedPieces_split (off n : Nat) (h : 64 < off % 64 + n) :
    alignedPieces n off n = (off, 64 - off % 64) :: alignedPieces (n - (64 - off % 64)) (off + (64 - off % 64)) (n - (64 - off % 64)) := by
  obtain ⟨m, rfl⟩ : ∃ m, n = m + 1 := ⟨n - 1, by omega⟩
  have hk : min (m + 1) (64 - off % 64) = 64 - off % 64 := by omega
  have hn : ¬ m + 1 = 0 := by omega
  simp only [alignedPieces, hk, if_neg hn]
  exact congrArg _ (alignedPieces_fuel _ _ _ _ (by omega) (Nat.le_refl _))

end Sys2Proof.Machine
end

