-- ==== Sys2Proof/Laws/Wire.lean ====
section
/-! SUPPORT. What a sender's CRC is to a receiver (R280, R281). -/

namespace Sys2Proof.Laws
open Sys2Proof Sys2Proof.Machine

/-- The CRC does not cover itself. -/
theorem flitImage_crc (k : Nat) (f : Flit) (c : BitVec 32) : flitImage k { f with crc := c } = flitImage k f := rfl

/-- A flit passes by its CRC alone. -/
theorem flitOk_crc (k : Nat) (f : Flit) (c : BitVec 32) : flitOk k { f with crc := c } = (crc32c (flitImage k f) == c) := by
  unfold flitOk
  rw [flitImage_crc]

/-- A flit with its sender's CRC passes. -/
theorem flitOk_sealed (k : Nat) (f : Flit) : flitOk k (Flit.sealed k f) = true := by
  unfold Flit.sealed
  rw [flitOk_crc]
  exact beq_self_eq_true _

/-- A flit with any other CRC fails. -/
theorem flitOk_spoilt (k : Nat) (f : Flit) (c : BitVec 32) (h : c ≠ 0) : flitOk k { f with crc := crc32c (flitImage k f) + c } = false := by
  rw [flitOk_crc]
  generalize crc32c (flitImage k f) = x
  exact beq_eq_false_iff_ne.mpr (by bv_omega)

/-- Four bytes name their word. -/
theorem leNat_leBytes4 (n : Nat) : leNat (leBytes 4 n) = n % 2 ^ 32 := by
  simp [leNat, leBytes, BitVec.toNat_ofNat]
  omega

/-- A list's entries, by their places from a first place on. -/
theorem nth_append (p q : List Byte) (i : Nat) : nth 0#8 (p ++ q) (p.length + i) = nth 0#8 q i := by
  induction p with
  | nil => simp
  | cons a t ih => rw [List.length_cons, Nat.add_right_comm, List.cons_append]; exact ih

/-- A list's own entries, read back in order. -/
theorem map_nth_append (p q : List Byte) : (List.range p.length).map (fun i => nth 0#8 (p ++ q) i) = p := by
  induction p with
  | nil => rfl
  | cons a t ih =>
    rw [List.length_cons, List.range_succ_eq_map, List.map_cons, List.map_map]
    exact congrArg (a :: ·) ih

/-- 272 received bytes whose last four are the CRC of the others are no failed flit, unless their type is reserved. -/
theorem rawFails_sealed (p : List Byte) (h : p.length = 268) (hr : rawReserved p = false) :
    rawFails (p ++ leBytes 4 (crc32c p).toNat) = false := by
  have e1 := map_nth_append p (leBytes 4 (crc32c p).toNat)
  have e2 : ∀ i, nth 0#8 (p ++ leBytes 4 (crc32c p).toNat) (268 + i) = nth 0#8 (leBytes 4 (crc32c p).toNat) i := fun i => h ▸ nth_append p _ i
  have e3 : rawReserved (p ++ leBytes 4 (crc32c p).toNat) = false := by
    cases p with
    | nil => cases h
    | cons a t => exact hr
  have e4 : (List.range 4).map (fun i => nth 0#8 (leBytes 4 (crc32c p).toNat) i) = leBytes 4 (crc32c p).toNat := by
    generalize (crc32c p).toNat = n
    rfl
  rw [h] at e1
  unfold rawFails
  rw [e1, e3]
  simp only [e2, e4, leNat_leBytes4]
  rw [Nat.mod_eq_of_lt (crc32c p).isLt, bne_self_eq_false]
  rfl

end Sys2Proof.Laws
end

