-- ==== Sys2Proof/Tests/Slice0.lean ====
section
/-! SUPPORT. Tests: a concrete state and operands that meet the hypotheses of every clause of every statement, the well-formedness
checks on ill-formed terms, and results that the spec states for given operands. -/

namespace Sys2Proof.Tests
open Sys2Proof Sys2Proof.Machine Sys2Proof.Laws

set_option Elab.async false

/-! ### Small states -/

/-- An instruction word from its fields: (lowest bit, value). -/
def iw (fs : List (Nat × Nat)) : BitVec 56 := BitVec.ofNat 56 (sumNat (fs.map (fun f => f.2 * 2 ^ f.1)))

/-- A 64-bit word from its fields. -/
def dw (fs : List (Nat × Nat)) : Word := w64 (sumNat (fs.map (fun f => f.2 * 2 ^ f.1)))

/-- A device UNDERWAY with its tile outputs on. -/
def up : State := { gate := { st := .underway, coxValid := true, checkOk := true, boot := 2 } }

/-- The device with one tile given. -/
def tileAt_ (t : Nat) (x : Tile) (s : State := up) : State := setTile t x s

/-- The last tile of the grid. -/
def lt (x : Tile) : State := tileAt_ 1151 x

/-- A tile whose sequencer runs at offset 0 of a one-page code region. -/
def tRun : Tile := { seq := .running, codeLen := 4096, a := [(1, 0x82000#64), (2, 0x200040#64)], s := [(3, 5#64), (4, 7#64), (5, 64#64), (6, 8#64), (7, 16#64), (8, 0xFFFFFFFFFFFFFFFF#64)] }

/-- A tile between descriptors that holds one eligible entry with no group. -/
def tIdle : Tile := { dq := [{ words := [dw [(24, 0xFFFF), (18, 2)], 0#64, 0#64, 0#64, 0#64, 0#64, 0#64, 0#64] }] }

/-- A device with every register given set, on top of another. -/
def withRegs (rs : List (Reg × Word)) (s : State := up) : State := rs.foldl (fun s r => rset r.1 r.2 s) s

/-- A device on which just these registers, in rising order, differ from their reset values (some of which are free). -/
def withRaw (rs : List (Reg × Word)) : State := { up with regs := rs.map (fun r => (r.1.off, r.2)) }

/-- A device whose command ring 7 holds one frame and answers on completion ring 7. -/
def ringsOn (s : State := up) : State :=
  { withRegs [(reg .MBX_CMD_CFG 7, 0x3FF0170#64), (reg .MBX_CPL_CFG 7, 0x10700#64)] s with cox := { s.cox with tails := [(7, 1)] } }

/-- A frame of one opcode. -/
def fr (op : Nat) (w1 : Word := 0#64) (w2 : Word := 0#64) (w3 : Word := 0#64) (w4 : Word := 0#64) : Frame := { w0 := w64 op, w1 := w1, w2 := w2, w3 := w3, w4 := w4 }

/-- A frame of one opcode with a host buffer. -/
def frb (op : Nat) (w1 : Word) (bs : List Byte) (n : Nat := bs.length) : Frame := { w0 := w64 op, w1 := w1, w6 := 0x1000#64, w7 := w64 n, buf := bs }

/-- A command accepted from ring 7. -/
def cmd7 : CmdRef := { ring := 7, slot := 3, w0 := 0x210#64 }

/-- An update record of 32 rows and 64 inputs in stack 0 with one program word, for the group named. -/
def jrec (group : Nat) (mode : Nat := 0) : List Byte :=
  wordBytes ([dw [(32, group), (48, 7), (14, mode)], dw [(32, 32)], 64#64, 0x100000#64, 0#64, 0x200000#64, 0x300000#64, 0x400000#64, 0x500000#64, 0x600000#64,
    0x700000#64, 0x800000#64, 0x900000#64, 0xA00000#64] ++ List.replicate 18 0#64)

/-- A base die with one job and a pass of it on engine 7 at one program word. -/
def engAt (j : Job) (p : Pass) (w : BitVec 32) (s : State := up) : State := { s with bn := [(7, { prog := [(0, w)], jobs := [j], eng := [(7, [p])] })] }

/-- A job that runs. -/
def jRun : Job := { no := 1, rec_ := jrec 0xFFFF, cmd := cmd7, started := true, next := 1, lr := 0x3F800000#32 }

/-- A pass of it. -/
def pRun : Pass := { job := 1, pres0 := true, pres1 := true, x := [(64, 0x40000000#32), (129, 0x3F000000#32)] }

/-- Port 14 of dimension 2 in one state, in a group of two devices. -/
def port (st : Nat) (k : Link := {}) (s : State := up) : State :=
  setLink 46 k (withRegs [(reg .LNK_STAT 46, w64 st), (reg .LNK_CTL 46, 1#64), (reg .FAB_COORD, dw [(32, 1)])] s)

/-- A packet received. -/
def pkt (w0 w1 : Word) (data : List Byte) : RxPkt := { link := 46, vc := 1, flits := 1, src := 256, w0 := w0, w1 := w1, data := cleanBytes data }

/-- A collective record of communicator 15 with sequence number 5. -/
def crec (op els : Nat) (due : Nat := 0) : List Byte :=
  wordBytes ([dw [(0, op), (4, 15), (36, 5)], w64 els, 0x1000#64, 0#64, 0x2000#64, 0#64, 0#64, 0#64, 0#64, 0#64, 0#64, w64 due, dw [(32, 77)]] ++ List.replicate 3 0#64)

/-- A device of two in dimension 2 whose communicator 15 holds both. -/
def pair2 (s : State := port 3) : State := withRegs [(reg .COL_COMM 15, dw [(0, 1), (24, 1)])] s

/-- A device that is its communicator's only member. -/
def alone (s : State := up) : State := withRegs [(reg .COL_COMM 15, 1#64)] s

/-- A device with one collective. -/
def withColl (c : Coll) (s : State := pair2) : State := setColls [c] s

/-- Stack memory that holds bytes from an address. -/
def stkMem (a : Nat) (bs : List Byte) : List Host.Cell := bs.zipIdx.foldl (fun m b => SMap.put 0#8 m (physOf up (a + b.2)) b.1) []

/-- The smallest accepted configuration: a fabric of one device, one staging tile on each die. -/
def cfgMin : SMap Byte :=
  [(0, 2#8), (2, 0xC0#8), (3, 3#8), (0x43, 1#8), (0x44, 1#8), (0x45, 1#8), (0x204, 8#8), (0x208, 0x20#8), (0x209, 1#8), (0x20C, 8#8),
   (0x210, 0x40#8), (0x211, 2#8), (0x214, 8#8), (0x218, 0x60#8), (0x219, 3#8), (0x21C, 8#8)]

/-- A device in one device state. -/
def inState (st : DevState) : State := { gate := { st := st, coxValid := true, checkOk := true, boot := 2 } }

/-- A device whose management endpoint is assigned, on top of another. -/
def mgmt (s : State := up) : State := withRegs [(reg .MGMT_STAT, dw [(0, 9), (8, 10)])] s

/-- The rows of a tile that the chain accepts. -/
def rowsOf (x : Except Nat (List ChainRow)) : List ChainRow := match x with | .ok r => r | .error _ => []

/-- The chain accepts the tile. -/
def rowsOk (x : Except Nat (List ChainRow)) : Bool := match x with | .ok _ => true | .error _ => false

theorem okRows (x : Except Nat (List ChainRow)) (h : rowsOk x = true) : x = .ok (rowsOf x) := by
  cases x with
  | ok r => rfl
  | error e => simp [rowsOk] at h

/-- A flit with another CRC than its sender's. -/
def spoilt (f : Flit) : Flit := { f with crc := crc32c (flitImage 1 f) + 1 }

theorem spoilt_fails (f : Flit) : flitOk (Claim.flitOf 0 46 (spoilt f)).2 (spoilt f) = false := by
  have e : ∀ g : Flit, (Claim.flitOf 0 46 g).2 = 1 := fun g => by simp only [Claim.flitOf]
  rw [e]
  exact flitOk_spoilt 1 f 1 (by decide)

/-! ### The hypotheses of every clause are met together somewhere -/

theorem test_meets_IntegerResults :
    (∃ (t : Nat) (w : BitVec 56) (s : State), Claim.canIssue s t w 1 ([fSd w, fSa w] ++ (if fIm w then [] else [fSb w])) [] = true ∧ bits w 35 32 = 0 ∧ (fIm w = true → fSb w = 0)) ∧
    (∃ (t : Nat) (w : BitVec 56) (s : State), Claim.canIssue s t w 1 ([fSd w, fSa w] ++ (if fIm w then [] else [fSb w])) [] = true ∧ bits w 35 32 = 0 ∧ (fIm w = true → fSb w = 0) ∧ fIm w = true) :=
  ⟨⟨1151, iw [(47, 2), (42, 3), (37, 4)], lt tRun, by decide +kernel⟩,
   ⟨1151, iw [(47, 2), (42, 3), (36, 1), (0, 4294967295)], lt tRun, by decide +kernel⟩⟩

theorem test_meets_FloatArithmetic :
    (∃ (t : Nat) (w : BitVec 56) (s : State), Claim.canIssue s t w 1 ([fSd w, fSa w] ++ (if fIm w then [] else [fSb w])) [] = true ∧ bits w 35 32 = 0 ∧ (fIm w = true → fSb w = 0)) ∧
    (∃ (t : Nat) (w : BitVec 56) (s : State), Claim.canIssue s t w 1 ([fSd w, fSa w] ++ (if fIm w then [] else [fSb w])) [] = true ∧ bits w 35 32 = 0 ∧ (fIm w = true → fSb w = 0) ∧ (!fIm w) = true) ∧
    (∃ (t : Nat) (w : BitVec 56) (s : State), Claim.canIssue s t w 1 [fSd w, fSa w] [] = true ∧ bits w 36 32 = 0 ∧ fSb w ≤ 1) :=
  ⟨⟨1151, iw [(47, 2), (42, 3), (37, 4)], lt tRun, by decide +kernel⟩,
   ⟨1151, iw [(47, 2), (42, 3), (37, 4)], lt tRun, by decide +kernel⟩,
   ⟨1151, iw [(47, 2), (42, 8), (37, 1)], lt tRun, by decide +kernel⟩⟩

theorem test_meets_FloatCorners :
    (∃ (a : Half), (f32 a).isNan = true) ∧
    (∃ (a : Word), (f32 (lo32 a)).isNan = true) :=
  ⟨⟨0x7F800001#32, by decide +kernel⟩,
   ⟨0xFFC00000#64, by decide +kernel⟩⟩

theorem test_meets_PredicateAndAddressResults :
    (∃ (t : Nat) (w : BitVec 56) (s : State), Claim.canIssue s t w 1 (qSa w :: (if qIm w then [] else [qSb w])) [qPd w] = true ∧ qCc w ≤ 13 ∧ bits w 33 32 = 0) ∧
    (∃ (t : Nat) (w : BitVec 56) (s : State), Claim.canIssue s t w 1 [] [qPd w, bits w 48 46, bits w 45 43] = true ∧ bits w 42 40 ≠ 7 ∧ bits w 39 0 = 0) ∧
    (∃ (t : Nat) (w : BitVec 56) (s : State), Claim.canIssue s t w 1 [aSs w] [] = true ∧ bits w 35 32 = 0) ∧
    (∃ (t : Nat) (w : BitVec 56) (s : State), Claim.canIssue s t w 1 [aSs w] [] = true ∧ bits w 34 32 = 0 ∧ aDir w = true) ∧
    (∃ (t : Nat) (w : BitVec 56) (s : State), Claim.canIssue s t w 1 [aSs w] [] = true ∧ bits w 34 32 = 0 ∧ aDir w = false) :=
  ⟨⟨1151, iw [(49, 2), (45, 13), (40, 3), (35, 4)], lt tRun, by decide +kernel⟩,
   ⟨1151, iw [(49, 7), (46, 0), (43, 6), (40, 6)], lt tRun, by decide +kernel⟩,
   ⟨1151, iw [(49, 2), (45, 13), (40, 3), (35, 4)], lt tRun, by decide +kernel⟩,
   ⟨1151, iw [(48, 15), (44, 1), (39, 9), (35, 1)], lt tRun, by decide +kernel⟩,
   ⟨1151, iw [(47, 2), (43, 15)], lt { tRun with k := [(15, 1)] }, by decide +kernel⟩⟩

theorem test_meets_ControlFlow :
    (∃ (t : Nat) (w : BitVec 56) (s : State), Claim.canIssue s t w 1 [] [] = true ∧ Claim.zeroJ w = true) ∧
    (∃ (t : Nat) (w : BitVec 56) (s : State), Claim.canIssue s t w 1 [fSa w] [] = true ∧ Claim.zeroJ w = true) ∧
    (∃ (t : Nat) (c : Nat) (w : BitVec 56) (s : State), Claim.canIssue s t w 1 [fSa w] [] = true ∧ Claim.zeroJ w = true ∧ bits w 31 8 = 0 ∧ (tileOf s t).endsInside (bits w 7 0 + 1) ((tileOf s t).pc + 8) = false ∧ c = ((tileOf s t).sr (fSa w)).toNat) ∧
    (∃ (t : Nat) (w : BitVec 56) (s : State), Claim.canIssue s t w 1 [fSa w] [] = true ∧ Claim.zeroJ w = true ∧ bits w 31 8 = 0 ∧ (tileOf s t).endsInside (bits w 7 0 + 1) ((tileOf s t).pc + 8) = true) ∧
    (∃ (t : Nat) (w : BitVec 56) (r : Run) (s : State), Claim.canIssue s t w 1 [fSd w] [] = true ∧ bits w 35 32 = 0 ∧ (fIm w = true → fSb w = 0) ∧ r = (tileOf s t).run.getD (Run.mk [] t 0 false)) :=
  ⟨⟨1151, iw [], lt tRun, by decide +kernel⟩,
   ⟨1151, iw [(42, 5)], lt tRun, by decide +kernel⟩,
   ⟨1151, 5, iw [(42, 3), (0, 3)], lt tRun, by decide +kernel⟩,
   ⟨1151, iw [(42, 3), (0, 0)], lt { tRun with mem := SMap.putList 0#8 [] 0x80008 (leBytes 8 0x4000000000000000) }, by decide +kernel⟩,
   ⟨1151, iw [(47, 2), (0, 0)], (tileOf ((lt tRun)) 1151).run.getD (Run.mk [] 1151 0 false), lt tRun, by decide +kernel⟩⟩

theorem test_meets_FaultingInstructions :
    (∃ (t : Nat) (w0 : Word) (s : State), Claim.canFetch s t 1 = true ∧ definedOps.contains (bits w0 63 56) = false) ∧
    (∃ (t : Nat) (w0 : Word) (w1 : Word) (s : State), Claim.canFetch s t 2 = true ∧ isTwoWord (bits w0 63 56) = true ∧ bits w1 63 56 ≠ 0xFF) ∧
    (∃ (w0 : Word) (w1 : Word), definedOps.contains (bits w0 63 56) = true ∧ (isTwoWord (bits w0 63 56) = false ∨ bits w1 63 56 = 0xFF)) ∧
    (∃ (t : Nat) (w : BitVec 56) (s : State), Claim.canIssue s t w 1 [] [] = true ∧ Claim.zeroJ w = true ∧ bits w 31 16 = 0) :=
  ⟨⟨1151, dw [(56, 0xEE)], lt tRun, by decide +kernel⟩,
   ⟨1151, dw [(56, 0x40)], 0#64, lt tRun, by decide +kernel⟩,
   ⟨dw [(56, 0x40)], dw [(56, 0xFF)], by decide +kernel⟩,
   ⟨1151, iw [(0, 2748)], lt tRun, by decide +kernel⟩⟩

theorem test_meets_DescriptorEnds :
    (∃ (t : Nat) (w : BitVec 56) (s : State), Claim.canIssue s t w 1 [] [] = true ∧ Claim.zeroJ w = true) ∧
    (∃ (t : Nat) (s : State), running s = true ∧ (tileOf s t).seq = .ending ∧ (tileOf s t).drained = true ∧ (dAffinity (Claim.runOf s t).words = 0 ∨ (tileOf s t).groups.any (fun g => g.owner == (tileOf s t).runNo) = false) ∧ dGroup (Claim.runOf s t).words = 0xFFFF) ∧
    (∃ (t : Nat) (g : Nat) (s : State), running s = true ∧ (tileOf s t).seq = .ending ∧ (tileOf s t).drained = true ∧ (dAffinity (Claim.runOf s t).words = 0 ∨ (tileOf s t).groups.any (fun g => g.owner == (tileOf s t).runNo) = false) ∧ dGroup (Claim.runOf s t).words ≠ 0xFFFF ∧ g = dGroup (Claim.runOf s t).words % 16 ∧ cgState s g = 0 ∧ cgCompleted s g < 511) ∧
    (∃ (t : Nat) (g : Nat) (s : State), running s = true ∧ (tileOf s t).seq = .ending ∧ (tileOf s t).drained = true ∧ (dAffinity (Claim.runOf s t).words = 0 ∨ (tileOf s t).groups.any (fun g => g.owner == (tileOf s t).runNo) = false) ∧ dGroup (Claim.runOf s t).words ≠ 0xFFFF ∧ g = dGroup (Claim.runOf s t).words % 16 ∧ cgState s g ≠ 0 ∧ cgCompleted s g < 511) ∧
    (∃ (t : Nat) (s : State), running s = true ∧ (tileOf s t).seq = .ending ∧ (tileOf s t).drained = true ∧ dAffinity (Claim.runOf s t).words ≠ 0 ∧ (tileOf s t).groups.any (fun g => g.owner == (tileOf s t).runNo) = true) ∧
    (∃ (t : Nat) (s : State), (tileOf s t).drained = false) :=
  ⟨⟨1151, iw [], lt tRun, by decide +kernel⟩,
   ⟨1151, lt { seq := .ending, run := some { words := [dw [(24, 0xFFFF)]], home := 1151 } }, by decide +kernel⟩,
   ⟨1151, 15, tileAt_ 1151 { seq := .ending, run := some { words := [dw [(24, 15)]], home := 1151 } } (openSlot 15 2 0 false none up), by decide +kernel⟩,
   ⟨1151, 15, tileAt_ 1151 { seq := .ending, run := some { words := [dw [(24, 15)]], home := 1151 } } (withRegs [(reg .CG_STATE 15, 3#64)]  (openSlot 15 2 0 false none up)), by decide +kernel⟩,
   ⟨1151, lt { seq := .ending, run := some { words := [dw [(18, 1), (24, 0xFFFF)]], home := 1151 }, runNo := 7, groups := [{ arr := 1, g := 3, first := 2, cnt := 2, owner := 7 }] }, by decide +kernel⟩,
   ⟨1151, lt { tRun with stores := [⟨1, 0, none⟩] }, by decide +kernel⟩⟩

theorem test_meets_DescriptorFails :
    (∃ (t : Nat) (f : FaultInfo) (s : State), (tileOf s t).seq = .faulted f ∧ (tileOf s t).drained = true) ∧
    (∃ (t : Nat) (f : FaultInfo) (s : State), (tileOf s t).seq = .faulted f ∧ (tileOf s t).drained = true ∧ dGroup (Claim.runOf s t).words = 0xFFFF) ∧
    (∃ (t : Nat) (g : Nat) (f : FaultInfo) (s : State), (tileOf s t).seq = .faulted f ∧ (tileOf s t).drained = true ∧ dGroup (Claim.runOf s t).words ≠ 0xFFFF ∧ g = dGroup (Claim.runOf s t).words % 16 ∧ cgGen s g = dGroup (Claim.runOf s t).words / 16 ∧ cgState s g = 0 ∧ cgFailed s g < 511) ∧
    (∃ (t : Nat) (s : State), (tileOf s t).drained = false) :=
  ⟨⟨1151, { code := 6, pc := 8 }, lt { seq := .faulted ({ code := 6, pc := 8 }), run := some { words := [dw [(24, 0xFFFF)]], home := 1151 } }, by decide +kernel⟩,
   ⟨1151, { code := 6, pc := 8 }, lt { seq := .faulted ({ code := 6, pc := 8 }), run := some { words := [dw [(24, 0xFFFF)]], home := 1151 } }, by decide +kernel⟩,
   ⟨1151, 15, { code := 6, pc := 8 }, tileAt_ 1151 { seq := .faulted ({ code := 6, pc := 8 }), run := some { words := [dw [(24, 15)]], home := 1151 } } (openSlot 15 2 0 false none up), by decide +kernel⟩,
   ⟨1151, lt { tRun with stores := [⟨1, 0, none⟩] }, by decide +kernel⟩⟩

theorem test_meets_LoadIssues :
    (∃ (t : Nat) (a : Nat) (n : Nat) (w : BitVec 56) (s : State), Claim.canIssue s t w 1 [lSt w] [] = true ∧ bits w 38 32 = 0 ∧ a = lAddr (tileOf s t) w ∧ n = lSize w ∧ lSp w = false ∧ a % n = 0 ∧ a < winTop ∧ tileState s t ≠ 2) ∧
    (∃ (t : Nat) (a : Nat) (n : Nat) (i : Nat) (o : Nat) (w : BitVec 56) (s : State), Claim.canIssue s t w 1 [lSt w] [] = true ∧ bits w 38 32 = 0 ∧ a = lAddr (tileOf s t) w ∧ n = lSize w ∧ lSp w = true ∧ a % n = 0 ∧ rangeFault s t true a n false = none ∧ accessWaits s t true a n = false ∧ resolve s t true a = .ok (.win i o)) ∧
    (∃ (t : Nat) (a : Nat) (n : Nat) (b : Nat) (w : BitVec 56) (s : State), Claim.canIssue s t w 1 [lSt w] [] = true ∧ bits w 38 32 = 0 ∧ a = lAddr (tileOf s t) w ∧ n = lSize w ∧ lSp w = true ∧ a % n = 0 ∧ rangeFault s t true a n false = none ∧ accessWaits s t true a n = false ∧ resolve s t true a = .ok (.stk b)) ∧
    (∃ (t : Nat) (a : Nat) (n : Nat) (w : BitVec 56) (s : State), Claim.canIssue s t w 1 [lSt w] [] = true ∧ bits w 38 32 = 0 ∧ a = lAddr (tileOf s t) w ∧ n = lSize w ∧ a % n ≠ 0) ∧
    (∃ (t : Nat) (a : Nat) (n : Nat) (c : Nat) (b : Nat) (w : BitVec 56) (s : State), Claim.canIssue s t w 1 [lSt w] [] = true ∧ bits w 38 32 = 0 ∧ a = lAddr (tileOf s t) w ∧ n = lSize w ∧ a % n = 0 ∧ rangeFault s t (lSp w) a n false = some (c, b)) ∧
    (∃ (t : Nat) (a : Nat) (n : Nat) (w : BitVec 56) (s : State), Claim.canIssue s t w 1 [lSt w] [] = true ∧ bits w 38 32 = 0 ∧ a = lAddr (tileOf s t) w ∧ n = lSize w ∧ a % n = 0 ∧ rangeFault s t (lSp w) a n false = none ∧ accessWaits s t (lSp w) a n = true) :=
  ⟨⟨1151, 0x82008, 8, iw [(47, 2), (43, 1), (41, 3), (0, 8)], lt tRun, by decide +kernel⟩,
   ⟨1151, (winBase + 5 * 0x100000 + 0x82000), 8, 5, 0x82000, iw [(47, 2), (43, 1), (41, 3), (39, 1)], lt { tRun with a := [(1, BitVec.ofNat 64 (winBase + 5 * 0x100000 + 0x82000))] }, by decide +kernel⟩,
   ⟨1151, 0x1000, 4, 0x1000, iw [(47, 2), (43, 1), (41, 2), (39, 1)], lt { tRun with a := [(1, BitVec.ofNat 64 0x1000)] }, by decide +kernel⟩,
   ⟨1151, 0x82004, 8, iw [(47, 2), (43, 1), (41, 3), (0, 4)], lt tRun, by decide +kernel⟩,
   ⟨1151, 0xF7000, 8, 5, 0xF7000, iw [(47, 2), (43, 0), (41, 3), (0, 1011712)], lt tRun, by decide +kernel⟩,
   ⟨1151, 0x82000, 8, iw [(47, 2), (43, 1), (41, 3)], tileAt_ 1151 tRun (withRegs [(reg .TILE_STATE 1151, 2#64)]), by decide +kernel⟩⟩

theorem test_meets_LoadArrives :
    (∃ (t : Nat) (l : Load) (ls : List Load) (s : State), (tileOf s t).loads = l :: ls ∧ l.poisoned = false) ∧
    (∃ (t : Nat) (l : Load) (ls : List Load) (s : State), (tileOf s t).loads = l :: ls ∧ l.poisoned = true ∧ (tileOf s t).seq = .running) :=
  ⟨⟨1151, ⟨⟨1, 0, none⟩, 2, 9#64, false⟩, [], lt { tRun with loads := [⟨⟨1, 0, none⟩, 2, 9#64, false⟩] }, by decide +kernel⟩,
   ⟨1151, ⟨⟨1, 0, none⟩, 2, 9#64, true⟩, [], lt { tRun with loads := [⟨⟨1, 0, none⟩, 2, 9#64, true⟩] }, by decide +kernel⟩⟩

theorem test_meets_StoreWrites :
    (∃ (t : Nat) (a : Nat) (n : Nat) (w : BitVec 56) (s : State), Claim.canIssue s t w 1 [lSt w] [] = true ∧ bits w 38 32 = 0 ∧ lSx w = false ∧ lSp w = false ∧ a = lAddr (tileOf s t) w ∧ n = lSize w ∧ a % n = 0 ∧ rangeFault s t false a n true = none ∧ tileState s t ≠ 2) ∧
    (∃ (t : Nat) (a : Nat) (n : Nat) (w : BitVec 56) (s : State), Claim.canIssue s t w 1 [lSt w] [] = true ∧ bits w 38 32 = 0 ∧ lSx w = false ∧ lSp w = true ∧ a = lAddr (tileOf s t) w ∧ n = lSize w ∧ a % n = 0 ∧ rangeFault s t true a n true = none ∧ accessWaits s t true a n = false ∧ s.stk.flips = []) ∧
    (∃ (t : Nat) (a : Nat) (n : Nat) (w : BitVec 56) (s : State), Claim.canIssue s t w 1 [lSt w] [] = true ∧ bits w 38 32 = 0 ∧ lSx w = false ∧ a = lAddr (tileOf s t) w ∧ n = lSize w ∧ a % n ≠ 0) ∧
    (∃ (t : Nat) (a : Nat) (n : Nat) (c : Nat) (b : Nat) (w : BitVec 56) (s : State), Claim.canIssue s t w 1 [lSt w] [] = true ∧ bits w 38 32 = 0 ∧ lSx w = false ∧ a = lAddr (tileOf s t) w ∧ n = lSize w ∧ a % n = 0 ∧ rangeFault s t (lSp w) a n true = some (c, b)) ∧
    (∃ (t : Nat) (a : Nat) (n : Nat) (w : BitVec 56) (s : State), Claim.canIssue s t w 1 [lSt w] [] = true ∧ bits w 38 32 = 0 ∧ lSx w = false ∧ a = lAddr (tileOf s t) w ∧ n = lSize w ∧ a % n = 0 ∧ rangeFault s t (lSp w) a n true = none ∧ accessWaits s t (lSp w) a n = true) :=
  ⟨⟨1151, 0x82008, 8, iw [(47, 3), (43, 1), (41, 3), (0, 8)], lt tRun, by decide +kernel⟩,
   ⟨1151, 0x1000, 8, iw [(47, 3), (43, 1), (41, 3), (39, 1)], lt { tRun with a := [(1, BitVec.ofNat 64 0x1000)] }, by decide +kernel⟩,
   ⟨1151, 0x82004, 8, iw [(47, 3), (43, 1), (41, 3), (0, 4)], lt tRun, by decide +kernel⟩,
   ⟨1151, 0x80000, 8, 6, 0x80000, iw [(47, 3), (43, 0), (41, 3), (0, 524288)], lt tRun, by decide +kernel⟩,
   ⟨1151, 0x82000, 8, iw [(47, 3), (43, 1), (41, 3)], tileAt_ 1151 tRun (withRegs [(reg .TILE_STATE 1151, 2#64)]), by decide +kernel⟩⟩

theorem test_meets_BlockMovesQueue :
    (∃ (t : Nat) (n : Nat) (w : BitVec 56) (s : State), Claim.canIssue s t w 1 [mSl w] [] = true ∧ bits w 29 20 = 0 ∧ (if mSl w = 0 then mLen w ≠ 0 else mLen w = 0) ∧ n = (if mSl w = 0 then mLen w else ((tileOf s t).sr (mSl w)).toNat) ∧ 0 < n ∧ n % 8 = 0 ∧ n ≤ 0xFFFF8 ∧ (tileOf s t).move.length < 8) ∧
    (∃ (t : Nat) (n : Nat) (rows : Nat) (ss : Nat) (ds : Nat) (w : BitVec 56) (s : State), Claim.canIssue s t w 1 [mSl w, mSl w + 1, mSl w + 2, mSl w + 3] [] = true ∧ bits w 29 20 = 0 ∧ mLen w = 0 ∧ mSl w % 4 = 0 ∧ mSl w ≠ 0 ∧ n = ((tileOf s t).sr (mSl w)).toNat ∧ rows = ((tileOf s t).sr (mSl w + 1)).toNat ∧ ss = ((tileOf s t).sr (mSl w + 2)).toNat ∧ ds = ((tileOf s t).sr (mSl w + 3)).toNat ∧ n % 8 = 0 ∧ rows % 8 = 0 ∧ ss % 8 = 0 ∧ ds % 8 = 0 ∧ 0 < n * rows ∧ n * rows ≤ 0xFFFF8 ∧ (tileOf s t).move.length < 8) ∧
    (∃ (t : Nat) (w : BitVec 56) (s : State), Claim.canIssue s t w 1 [mSl w] [] = true ∧ bits w 29 20 = 0 ∧ mAs w = 0 ∧ mSsp w = false ∧ 0 < mLen w ∧ mLen w % 8 = 0 ∧ mLen w ≤ 0xFFFF8 ∧ (tileOf s t).move.length < 8) ∧
    (∃ (t : Nat) (w : BitVec 56) (s : State), Claim.canIssue s t w 1 [mSl w] [] = true ∧ bits w 29 20 = 0 ∧ mSl w ≠ 0 ∧ mLen w = 0 ∧ mPost w = none ∧ ((tileOf s t).sr (mSl w)).toNat = 0) ∧
    (∃ (t : Nat) (n : Nat) (rows : Nat) (ss : Nat) (ds : Nat) (w : BitVec 56) (s : State), Claim.canIssue s t w 1 [mSl w, mSl w + 1, mSl w + 2, mSl w + 3] [] = true ∧ bits w 29 20 = 0 ∧ mLen w = 0 ∧ mSl w % 4 = 0 ∧ mSl w ≠ 0 ∧ n = ((tileOf s t).sr (mSl w)).toNat ∧ rows = ((tileOf s t).sr (mSl w + 1)).toNat ∧ ss = ((tileOf s t).sr (mSl w + 2)).toNat ∧ ds = ((tileOf s t).sr (mSl w + 3)).toNat ∧ (n % 8 ≠ 0 ∨ rows % 8 ≠ 0 ∨ ss % 8 ≠ 0 ∨ ds % 8 ≠ 0 ∨ 0xFFFF8 < n * rows)) ∧
    (∃ (t : Nat) (w : BitVec 56) (s : State), Claim.canIssue s t w 1 [mSl w] [] = true ∧ bits w 29 20 = 0 ∧ mAs w = 0 ∧ mSsp w = false ∧ 0 < mLen w ∧ mLen w % 8 = 0 ∧ mLen w ≤ 0xFFFF8 ∧ 8 ≤ (tileOf s t).move.length) :=
  ⟨⟨1151, 0xFFFF8, iw [(48, 2), (44, 1), (0, 1048568)], lt tRun, by decide +kernel⟩,
   ⟨1151, 8, 8, 16, 16, iw [(48, 2), (44, 1), (39, 4)], lt { tRun with s := [(4, 8#64), (5, 8#64), (6, 16#64), (7, 16#64)] }, by refine ⟨?_, ?_, ?_, ?_, ?_, ?_, rfl, ?_, ?_, ?_, ?_, ?_, ?_, ?_, ?_, ?_⟩ <;> decide +kernel⟩,
   ⟨1151, iw [(48, 2), (39, 3), (0, 8)], lt tRun, by decide +kernel⟩,
   ⟨1151, iw [(48, 2), (44, 1), (39, 9)], lt tRun, by decide +kernel⟩,
   ⟨1151, 8, 8, 12, 16, iw [(48, 2), (44, 1), (39, 4)], lt { tRun with s := [(4, 8#64), (5, 8#64), (6, 12#64), (7, 16#64)] }, by refine ⟨?_, ?_, ?_, ?_, ?_, ?_, rfl, ?_, ?_, ?_⟩ <;> decide +kernel⟩,
   ⟨1151, iw [(48, 2), (39, 3), (0, 8)], lt { tRun with move := List.replicate 8 ⟨⟨1, 0, none⟩, .fill false 0xBFFF8 8 0xAB#64⟩ }, by decide +kernel⟩⟩

theorem test_meets_BlockMovesComplete :
    (∃ (t : Nat) (dst : Nat) (n : Nat) (sn : Nat) (pc : Nat) (pat : Word) (ms : List MoveOp) (s : State), (tileOf s t).move = ⟨⟨sn, pc, none⟩, .fill false dst n pat⟩ :: ms ∧ dst % 8 = 0 ∧ n % 8 = 0 ∧ 0 < n ∧ 0x80000 ≤ dst ∧ dst + n ≤ 0xC0000 ∧ tileState s t ≠ 2 ∧ (0x80000 + (tileOf s t).codeLo + (tileOf s t).codeLen ≤ dst ∨ dst + n ≤ 0x80000 + (tileOf s t).codeLo)) ∧
    (∃ (t : Nat) (dst : Nat) (src : Nat) (n : Nat) (pri : Nat) (sn : Nat) (pc : Nat) (ms : List MoveOp) (s : State), (tileOf s t).move = ⟨⟨sn, pc, none⟩, .block false dst false src n 1 0 0 pri⟩ :: ms ∧ dst % 8 = 0 ∧ src % 8 = 0 ∧ n % 8 = 0 ∧ 0 < n ∧ 0x80000 ≤ dst ∧ dst + n ≤ 0xC0000 ∧ src + n ≤ winTop ∧ tileState s t ≠ 2 ∧ (dst + n ≤ src ∨ src + n ≤ dst) ∧ (0x80000 + (tileOf s t).codeLo + (tileOf s t).codeLen ≤ dst ∨ dst + n ≤ 0x80000 + (tileOf s t).codeLo)) ∧
    (∃ (t : Nat) (dst : Nat) (src : Nat) (n : Nat) (pri : Nat) (sn : Nat) (pc : Nat) (dsp : Bool) (ssp : Bool) (ms : List MoveOp) (s : State), (tileOf s t).move = ⟨⟨sn, pc, none⟩, .block dsp dst ssp src n 1 0 0 pri⟩ :: ms ∧ src < 2 ^ 48 ∧ src % 8 ≠ 0 ∧ (tileOf s t).seq = .running) ∧
    (∃ (t : Nat) (sn : Nat) (pc : Nat) (hs : List Hdr) (s : State), (tileOf s t).stores = ⟨sn, pc, none⟩ :: hs) :=
  ⟨⟨1151, 0xBFFF8, 8, 1, 0, 0xAB#64, [], lt { tRun with move := [⟨⟨1, 0, none⟩, .fill false 0xBFFF8 8 0xAB#64⟩] }, by decide +kernel⟩,
   ⟨1151, 0xBFF00, 0x90000, 256, 2, 1, 0, [], lt { tRun with move := [⟨⟨1, 0, none⟩, .block false 0xBFF00 false 0x90000 256 1 0 0 2⟩], mem := SMap.putList 0#8 [] 0x90000 (List.replicate 64 3#8) }, by decide +kernel⟩,
   ⟨1151, 0xBFF00, 0x90004, 256, 2, 1, 0, false, false, [], lt { tRun with move := [⟨⟨1, 0, none⟩, .block false 0xBFF00 false 0x90004 256 1 0 0 2⟩] }, by decide +kernel⟩,
   ⟨1151, 1, 0, [], lt { tRun with stores := [⟨1, 0, none⟩] }, by decide +kernel⟩⟩

theorem test_meets_FencesStall :
    (∃ (t : Nat) (w : BitVec 56) (s : State), Claim.canIssue s t w 1 [] [] = true ∧ bits w 51 0 = 0) ∧
    (∃ (t : Nat) (s : State), running s = true ∧ (tileOf s t).seq = .waiting .fence ∧ (tileOf s t).drained = true) ∧
    (∃ (t : Nat) (s : State), (tileOf s t).drained = false) ∧
    (∃ (t : Nat) (s : State), (tileOf s t).seq = .waiting .fence) :=
  ⟨⟨1151, iw [], lt tRun, by decide +kernel⟩,
   ⟨1151, lt { tRun with seq := .waiting .fence }, by decide +kernel⟩,
   ⟨1151, lt { tRun with stores := [⟨1, 0, none⟩] }, by decide +kernel⟩,
   ⟨1151, lt { tRun with seq := .waiting .fence }, by decide +kernel⟩⟩

theorem test_meets_CounterInstructions :
    (∃ (t : Nat) (k : Nat) (n : Nat) (w : BitVec 56) (s : State), Claim.canIssue s t w 1 [] [] = true ∧ bits w 31 0 = 0 ∧ k = bits w 51 48 ∧ n = bits w 47 32 ∧ 0 < n ∧ (tileOf s t).kr k + n ≤ 65535) ∧
    (∃ (t : Nat) (k : Nat) (n : Nat) (w : BitVec 56) (s : State), Claim.canIssue s t w 1 [] [] = true ∧ bits w 31 0 = 0 ∧ k = bits w 51 48 ∧ n = bits w 47 32 ∧ 0 < n ∧ 65535 < (tileOf s t).kr k + n) ∧
    (∃ (t : Nat) (k : Nat) (n : Nat) (w : BitVec 56) (s : State), Claim.canIssue s t w 1 [] [] = true ∧ bits w 31 0 = 0 ∧ k = bits w 51 48 ∧ n = bits w 47 32 ∧ 0 < n ∧ n ≤ (tileOf s t).kr k) ∧
    (∃ (t : Nat) (k : Nat) (n : Nat) (w : BitVec 56) (s : State), Claim.canIssue s t w 1 [] [] = true ∧ bits w 31 0 = 0 ∧ k = bits w 51 48 ∧ n = bits w 47 32 ∧ 0 < n ∧ (tileOf s t).kr k < n) ∧
    (∃ (t : Nat) (w : BitVec 56) (s : State), Claim.canFetch s t 1 = true ∧ bits w 47 32 = 0) ∧
    (∃ (t : Nat) (k : Nat) (n : Nat) (s : State), running s = true ∧ (tileOf s t).seq = .waiting (.counter k n) ∧ n ≤ (tileOf s t).kr k) ∧
    (∃ (t : Nat) (k : Nat) (n : Nat) (s : State), (tileOf s t).seq = .waiting (.counter k n) ∧ (tileOf s t).kr k < n) ∧
    (∃ (t : Nat) (w : BitVec 56) (s : State), Claim.canIssue s t w 1 [fSd w] [] = true ∧ bits w 42 0 = 0) :=
  ⟨⟨1151, 15, 65535, iw [(48, 15), (32, 65535)], lt tRun, by decide +kernel⟩,
   ⟨1151, 15, 1, iw [(48, 15), (32, 1)], lt { tRun with k := [(15, 65535)] }, by decide +kernel⟩,
   ⟨1151, 15, 1, iw [(48, 15), (32, 1)], lt { tRun with k := [(15, 1)] }, by decide +kernel⟩,
   ⟨1151, 3, 65535, iw [(48, 3), (32, 65535)], lt tRun, by decide +kernel⟩,
   ⟨1151, iw [(48, 3)], lt tRun, by decide +kernel⟩,
   ⟨1151, 15, 1, lt { tRun with seq := .waiting (.counter 15 1), k := [(15, 1)] }, by decide +kernel⟩,
   ⟨1151, 15, 2, lt { tRun with seq := .waiting (.counter 15 2), k := [(15, 1)] }, by decide +kernel⟩,
   ⟨1151, iw [(47, 2), (43, 15)], lt { tRun with k := [(15, 1)] }, by decide +kernel⟩⟩

theorem test_meets_WordWaits :
    (∃ (t : Nat) (a : Nat) (w : BitVec 56) (s : State), Claim.canIssue s t w 1 [bits w 40 36, bits w 35 31] [bits w 51 49] = true ∧ bits w 30 0 = 0 ∧ [0, 1, 6, 9].contains (bits w 48 45) = true ∧ a = (tileOf s t).addr (bits w 44 41) ∧ a % 8 = 0 ∧ 0x80000 ≤ a ∧ a < 0xC0000 ∧ (tileOf s t).wordPoison a = false ∧ intCond (bits w 48 45) ((tileOf s t).word a) ((tileOf s t).sr (bits w 40 36)) = true) ∧
    (∃ (t : Nat) (a : Nat) (w : BitVec 56) (s : State), Claim.canIssue s t w 1 [bits w 40 36, bits w 35 31] [bits w 51 49] = true ∧ bits w 30 0 = 0 ∧ [0, 1, 6, 9].contains (bits w 48 45) = true ∧ a = (tileOf s t).addr (bits w 44 41) ∧ a % 8 = 0 ∧ 0x80000 ≤ a ∧ a < 0xC0000 ∧ (tileOf s t).wordPoison a = false ∧ intCond (bits w 48 45) ((tileOf s t).word a) ((tileOf s t).sr (bits w 40 36)) = false) ∧
    (∃ (t : Nat) (a : Nat) (w : BitVec 56) (s : State), Claim.canIssue s t w 1 [bits w 40 36, bits w 35 31] [bits w 51 49] = true ∧ bits w 30 0 = 0 ∧ [0, 1, 6, 9].contains (bits w 48 45) = true ∧ a = (tileOf s t).addr (bits w 44 41) ∧ a % 8 ≠ 0) ∧
    (∃ (t : Nat) (a : Nat) (w : BitVec 56) (s : State), Claim.canIssue s t w 1 [bits w 40 36, bits w 35 31] [bits w 51 49] = true ∧ bits w 30 0 = 0 ∧ [0, 1, 6, 9].contains (bits w 48 45) = true ∧ a = (tileOf s t).addr (bits w 44 41) ∧ a % 8 = 0 ∧ (a < 0x80000 ∨ 0xC0000 ≤ a)) ∧
    (∃ (t : Nat) (a : Nat) (w : BitVec 56) (s : State), Claim.canIssue s t w 1 [bits w 40 36, bits w 35 31] [bits w 51 49] = true ∧ bits w 30 0 = 0 ∧ [0, 1, 6, 9].contains (bits w 48 45) = true ∧ a = (tileOf s t).addr (bits w 44 41) ∧ a % 8 = 0 ∧ 0x80000 ≤ a ∧ a < 0xC0000 ∧ (tileOf s t).wordPoison a = true) ∧
    (∃ (t : Nat) (pd : Nat) (cc : Nat) (a : Nat) (pc : Nat) (v : Word) (tmo : Word) (s : State), running s = true ∧ (tileOf s t).seq = .waiting (.word pd cc a v tmo pc) ∧ (tileOf s t).wordPoison a = false ∧ intCond cc ((tileOf s t).word a) v = true) ∧
    (∃ (t : Nat) (pd : Nat) (cc : Nat) (a : Nat) (pc : Nat) (v : Word) (tmo : Word) (s : State), (tileOf s t).seq = .waiting (.word pd cc a v tmo pc) ∧ (tileOf s t).wordPoison a = false ∧ intCond cc ((tileOf s t).word a) v = false) ∧
    (∃ (t : Nat) (pd : Nat) (cc : Nat) (a : Nat) (pc : Nat) (v : Word) (tmo : Word) (s : State), running s = true ∧ (tileOf s t).seq = .waiting (.word pd cc a v tmo pc) ∧ tmo ≠ 0#64) :=
  ⟨⟨1151, 0x82000, iw [(49, 3), (45, 1), (41, 1), (36, 3), (31, 4)], lt tRun, by decide +kernel⟩,
   ⟨1151, 0x82000, iw [(49, 3), (45, 9), (41, 1), (36, 3), (31, 4)], lt tRun, by decide +kernel⟩,
   ⟨1151, 0x82004, iw [(49, 3), (45, 9), (41, 1), (36, 3), (31, 4)], lt { tRun with a := [(1, 0x82004#64)] }, by decide +kernel⟩,
   ⟨1151, 0x7FFF8, iw [(49, 3), (45, 9), (41, 1), (36, 3), (31, 4)], lt { tRun with a := [(1, 0x7FFF8#64)] }, by decide +kernel⟩,
   ⟨1151, 0x82000, iw [(49, 3), (45, 9), (41, 1), (36, 3), (31, 4)], lt { tRun with poison := [(0x82000 / 8, true)] }, by decide +kernel⟩,
   ⟨1151, 3, 0, 0x82000, 8, 0#64, 9#64, lt { tRun with seq := .waiting (.word 3 0 0x82000 0#64 9#64 8) }, by decide +kernel⟩,
   ⟨1151, 3, 0, 0x82000, 8, 1#64, 9#64, lt { tRun with seq := .waiting (.word 3 0 0x82000 1#64 9#64 8) }, by decide +kernel⟩,
   ⟨1151, 3, 0, 0x82000, 8, 0#64, 9#64, lt { tRun with seq := .waiting (.word 3 0 0x82000 0#64 9#64 8) }, by decide +kernel⟩⟩

theorem test_meets_Atomics_1 :
    (∃ (t : Nat) (i : Nat) (a : Nat) (o : Nat) (w : BitVec 56) (s : State), Claim.canIssue s t w 1 ([fSd w, bits w 42 38] ++ (if 0 = 2 then [bits w 37 33] else [])) [] = true ∧ bits w 31 0 = 0 ∧ (0 ≠ 2 → bits w 37 33 = 0) ∧ a = (tileOf s t).addr (bits w 46 43) ∧ a % 8 = 0 ∧ resolve s t (bit w 32) a = .ok (.win i o) ∧ 0x80000 ≤ o ∧ o < 0xC0000 ∧ (i = t → (tileOf s t).inCode o = false) ∧ (tileOf s t).move.length < 8) ∧
    (∃ (t : Nat) (i : Nat) (a : Nat) (o : Nat) (w : BitVec 56) (s : State), Claim.canIssue s t w 1 ([fSd w, bits w 42 38] ++ (if 1 = 2 then [bits w 37 33] else [])) [] = true ∧ bits w 31 0 = 0 ∧ (1 ≠ 2 → bits w 37 33 = 0) ∧ a = (tileOf s t).addr (bits w 46 43) ∧ a % 8 = 0 ∧ resolve s t (bit w 32) a = .ok (.win i o) ∧ 0x80000 ≤ o ∧ o < 0xC0000 ∧ (i = t → (tileOf s t).inCode o = false) ∧ (tileOf s t).move.length < 8) ∧
    (∃ (t : Nat) (i : Nat) (a : Nat) (o : Nat) (w : BitVec 56) (s : State), Claim.canIssue s t w 1 ([fSd w, bits w 42 38] ++ (if 2 = 2 then [bits w 37 33] else [])) [] = true ∧ bits w 31 0 = 0 ∧ (2 ≠ 2 → bits w 37 33 = 0) ∧ a = (tileOf s t).addr (bits w 46 43) ∧ a % 8 = 0 ∧ resolve s t (bit w 32) a = .ok (.win i o) ∧ 0x80000 ≤ o ∧ o < 0xC0000 ∧ (i = t → (tileOf s t).inCode o = false) ∧ (tileOf s t).move.length < 8) ∧
    (∃ (t : Nat) (a : Nat) (w : BitVec 56) (s : State), Claim.canIssue s t w 1 ([fSd w, bits w 42 38] ++ (if 0 = 2 then [bits w 37 33] else [])) [] = true ∧ bits w 31 0 = 0 ∧ (0 ≠ 2 → bits w 37 33 = 0) ∧ a = (tileOf s t).addr (bits w 46 43) ∧ (a % 8 ≠ 0 ∨ bit w 32 = false ∧ (a < 0x80000 ∨ 0xC0000 ≤ a) ∨ bit w 32 = true ∧ a < stackTop ∧ stkPresent s a = true)) ∧
    (∃ (t : Nat) (a : Nat) (w : BitVec 56) (s : State), Claim.canIssue s t w 1 ([fSd w, bits w 42 38] ++ (if 1 = 2 then [bits w 37 33] else [])) [] = true ∧ bits w 31 0 = 0 ∧ (1 ≠ 2 → bits w 37 33 = 0) ∧ a = (tileOf s t).addr (bits w 46 43) ∧ (a % 8 ≠ 0 ∨ bit w 32 = false ∧ (a < 0x80000 ∨ 0xC0000 ≤ a) ∨ bit w 32 = true ∧ a < stackTop ∧ stkPresent s a = true)) ∧
    (∃ (t : Nat) (a : Nat) (w : BitVec 56) (s : State), Claim.canIssue s t w 1 ([fSd w, bits w 42 38] ++ (if 2 = 2 then [bits w 37 33] else [])) [] = true ∧ bits w 31 0 = 0 ∧ (2 ≠ 2 → bits w 37 33 = 0) ∧ a = (tileOf s t).addr (bits w 46 43) ∧ (a % 8 ≠ 0 ∨ bit w 32 = false ∧ (a < 0x80000 ∨ 0xC0000 ≤ a) ∨ bit w 32 = true ∧ a < stackTop ∧ stkPresent s a = true)) ∧
    (∃ (t : Nat) (op : Nat) (sd : Nat) (i : Nat) (o : Nat) (sv : Word) (sc : Word) (h : Hdr) (ms : List MoveOp) (s : State), (tileOf s t).move = ⟨h, .atomic op sd i o sv sc none⟩ :: ms ∧ tileState s i ≠ 4 ∧ tileState s i ≠ 2 ∧ (i = t ∨ s.flitErr = []) ∧ (tileOf s i).wordPoison o = false ∧ o % 8 = 0 ∧ o + 8 ≤ 0xC0000) ∧
    (∃ (t : Nat) (op : Nat) (sd : Nat) (i : Nat) (o : Nat) (sv : Word) (sc : Word) (h : Hdr) (ms : List MoveOp) (s : State), (tileOf s t).move = ⟨h, .atomic op sd i o sv sc none⟩ :: ms ∧ tileState s i ≠ 4 ∧ tileState s i ≠ 2 ∧ (tileOf s i).wordPoison o = true ∧ (tileOf s t).seq = .running) :=
  ⟨⟨1151, 1151, 0x82000, 0x82000, iw [(47, 2), (43, 1), (38, 3), (33, 0)], lt tRun, by decide +kernel⟩,
   ⟨1151, 1151, 0x82000, 0x82000, iw [(47, 2), (43, 1), (38, 3), (33, 0)], lt tRun, by decide +kernel⟩,
   ⟨1151, 1151, 0x82000, 0x82000, iw [(47, 2), (43, 1), (38, 3), (33, 4)], lt tRun, by decide +kernel⟩,
   ⟨1151, 0x82004, iw [(47, 2), (43, 1), (38, 3), (33, 0)], lt { tRun with a := [(1, 0x82004#64)] }, by decide +kernel⟩,
   ⟨1151, 0x82004, iw [(47, 2), (43, 1), (38, 3), (33, 0)], lt { tRun with a := [(1, 0x82004#64)] }, by decide +kernel⟩,
   ⟨1151, 0x82004, iw [(47, 2), (43, 1), (38, 3), (33, 4)], lt { tRun with a := [(1, 0x82004#64)] }, by decide +kernel⟩,
   ⟨1151, 0, 2, 5, 0xBFFF8, 1#64, 0#64, ⟨1, 0, none⟩, [], lt { tRun with move := [⟨⟨1, 0, none⟩, .atomic 0 2 5 0xBFFF8 1#64 0#64 none⟩] }, by decide +kernel⟩,
   ⟨1151, 2, 2, 5, 0x82000, 1#64, 0#64, ⟨1, 8, none⟩, [], setTile 5 { poison := [(0x82000 / 8, true)] } (lt { tRun with move := [⟨(⟨1, 8, none⟩), .atomic 2 2 5 0x82000 1#64 0#64 none⟩] }), by decide +kernel⟩⟩

theorem test_meets_Atomics_2 :
    (∃ (t : Nat) (s : State) (op : Nat) (sd : Nat) (i : Nat) (o : Nat) (sv : Word) (sc : Word) (h : Hdr) (ms : List MoveOp), (tileOf s t).move = ⟨h, .atomic op sd i o sv sc none⟩ :: ms ∧ tileState s i = 2) ∧
    (∃ (t : Nat) (op : Nat) (sd : Nat) (i : Nat) (o : Nat) (sn : Nat) (pc : Nat) (sv : Word) (sc : Word) (old : Word) (b : Bool) (ms : List MoveOp) (s : State), (tileOf s t).move = ⟨⟨sn, pc, none⟩, .atomic op sd i o sv sc (some (old, b))⟩ :: ms) :=
  ⟨⟨1151, withRegs [(reg .TILE_STATE 5, 2#64)] (lt { tRun with move := [⟨(⟨1, 8, none⟩), .atomic 2 2 5 0x82000 1#64 0#64 none⟩] }), 2, 2, 5, 0x82000, 1#64, 0#64, ⟨1, 8, none⟩, [], by decide +kernel⟩,
   ⟨1151, 2, 2, 5, 0x82000, 1, 0, 1#64, 0#64, 3#64, true, [], lt { tRun with move := [⟨⟨1, 0, none⟩, .atomic 2 2 5 0x82000 1#64 0#64 (some (3#64, true))⟩] }, by decide +kernel⟩⟩

theorem test_meets_DequePushes :
    (∃ (t : Nat) (a : Nat) (i : Nat) (w : BitVec 56) (s : State), Claim.canIssue s t w 1 [bits w 44 40] [bits w 51 49] = true ∧ bits w 39 0 = 0 ∧ a = (tileOf s t).addr (bits w 48 45) ∧ a % 64 = 0 ∧ 0x80000 ≤ a ∧ a < 0xC0000 ∧ i = ((tileOf s t).sr (bits w 44 40)).toNat ∧ i ≤ 1151 ∧ tileState s i ≠ 4 ∧ isHeat s t = isHeat s i ∧ (tileOf s t).move.length < 8) ∧
    (∃ (t : Nat) (a : Nat) (i : Nat) (w : BitVec 56) (s : State), Claim.canIssue s t w 1 [bits w 44 40] [bits w 51 49] = true ∧ bits w 39 0 = 0 ∧ a = (tileOf s t).addr (bits w 48 45) ∧ i = ((tileOf s t).sr (bits w 44 40)).toNat) ∧
    (∃ (t : Nat) (pd : Nat) (i : Nat) (o : Nat) (h : Hdr) (ms : List MoveOp) (s : State), (tileOf s t).move = ⟨h, .push pd i o none⟩ :: ms ∧ anyPoison ((tileOf s t).read o 64) = false ∧ tileState s i ≠ 2 ∧ tileState s i ≠ 4 ∧ dMalformed ((chunks 8 (rawBytes ((tileOf s t).read o 64))).map leWord) = false) ∧
    (∃ (t : Nat) (pd : Nat) (i : Nat) (o : Nat) (h : Hdr) (ms : List MoveOp) (s : State), (tileOf s t).move = ⟨h, .push pd i o none⟩ :: ms ∧ anyPoison ((tileOf s t).read o 64) = false ∧ tileState s i ≠ 2 ∧ tileState s i ≠ 4 ∧ (tileOf s t).seq = .running ∧ dMalformed ((chunks 8 (rawBytes ((tileOf s t).read o 64))).map leWord) = true) ∧
    (∃ (t : Nat) (pd : Nat) (i : Nat) (o : Nat) (sn : Nat) (pc : Nat) (r : Nat) (ms : List MoveOp) (s : State), (tileOf s t).move = ⟨⟨sn, pc, none⟩, .push pd i o (some r)⟩ :: ms) ∧
    (∃ (t : Nat) (w : BitVec 56) (s : State), Claim.canIssue s t w 1 [fSd w] [] = true ∧ bits w 46 0 = 0) :=
  ⟨⟨1151, 0x82000, 5, iw [(49, 3), (45, 1), (40, 3)], lt tRun, by decide +kernel⟩,
   ⟨1151, 0x82020, 5, iw [(49, 3), (45, 1), (40, 3)], lt { tRun with a := [(1, 0x82020#64)], s := [(3, 5#64)] }, by decide +kernel⟩,
   ⟨1151, 3, 5, 0x82000, ⟨1, 0, none⟩, [], lt { tRun with mem := SMap.putList 0#8 [] 0x82000 (leBytes 8 0xFFFF000000), move := [⟨⟨1, 0, none⟩, .push 3 5 0x82000 none⟩] }, by decide +kernel⟩,
   ⟨1151, 3, 5, 0x82000, ⟨1, 8, none⟩, [], lt { tRun with mem := SMap.putList 0#8 [] 0x82000 (leBytes 8 0xFFFF800000), move := [⟨(⟨1, 8, none⟩), .push 3 5 0x82000 none⟩] }, by decide +kernel⟩,
   ⟨1151, 3, 5, 0x82000, 1, 0, 1, [], lt { tRun with move := [⟨⟨1, 0, none⟩, .push 3 5 0x82000 (some 1)⟩] }, by decide +kernel⟩,
   ⟨1151, iw [(47, 2)], lt { tRun with dq := tIdle.dq }, by decide +kernel⟩⟩

theorem test_meets_OwnGroup :
    (∃ (t : Nat) (w : BitVec 56) (s : State), Claim.canIssue s t w 1 [fSd w] [] = true ∧ bits w 46 0 = 0 ∧ groupIdOf (tileOf s t) = none) ∧
    (∃ (t : Nat) (g : Nat) (w : BitVec 56) (s : State), Claim.canIssue s t w 1 [fSd w] [] = true ∧ bits w 46 0 = 0 ∧ groupIdOf (tileOf s t) = some g) ∧
    (∃ (t : Nat) (g : Nat) (w : BitVec 56) (s : State), Claim.canIssue s t w 1 [] [] = true ∧ bits w 51 0 = 0 ∧ groupIdOf (tileOf s t) = some g ∧ cgStat s g = 0) ∧
    (∃ (t : Nat) (g : Nat) (w : BitVec 56) (s : State), Claim.canIssue s t w 1 [] [] = true ∧ bits w 51 0 = 0 ∧ groupIdOf (tileOf s t) = some g ∧ cgStat s g ≠ 0) ∧
    (∃ (t : Nat) (w : BitVec 56) (s : State), Claim.canIssue s t w 1 [] [] = true ∧ bits w 51 0 = 0 ∧ groupIdOf (tileOf s t) = none) :=
  ⟨⟨1151, iw [(47, 2)], lt tRun, by decide +kernel⟩,
   ⟨1151, 15, iw [], tileAt_ 1151 { tRun with run := some { words := [dw [(24, 15)]], home := 1151 } } (openSlot 15 2 0 false none up), by decide +kernel⟩,
   ⟨1151, 15, iw [], tileAt_ 1151 { tRun with run := some { words := [dw [(24, 15)]], home := 1151 } } (openSlot 15 2 0 false none up), by decide +kernel⟩,
   ⟨1151, 15, iw [], tileAt_ 1151 { tRun with run := some { words := [dw [(24, 15)]], home := 1151 } } (withRegs [(reg .CG_STATE 15, 3#64)]  (openSlot 15 2 0 false none up)), by decide +kernel⟩,
   ⟨1151, iw [], lt tRun, by decide +kernel⟩⟩

theorem test_meets_DispatchStarts :
    (∃ (t : Nat) (k : Nat) (e : DqEntry) (s : State), t < 1152 ∧ running s = true ∧ (tileOf s t).seq = .idle ∧ tileState s t ≤ 1 ∧ (tileOf s t).steal.answer = none ∧ (tileOf s t).ownPick = some k ∧ e = nth {words := []} (tileOf s t).dq k ∧ dGroup e.words = 0xFFFF) ∧
    (∃ (t : Nat) (k : Nat) (g : Nat) (e : DqEntry) (s : State), t < 1152 ∧ running s = true ∧ (tileOf s t).seq = .idle ∧ tileState s t ≤ 1 ∧ (tileOf s t).steal.answer = none ∧ (tileOf s t).ownPick = some k ∧ e = nth {words := []} (tileOf s t).dq k ∧ dGroup e.words ≠ 0xFFFF ∧ g = dGroup e.words % 16 ∧ cgGen s g = dGroup e.words / 16 ∧ cgState s g = 0 ∧ cgDispatched s g < cgExpected s g) ∧
    (∃ (t : Nat) (k : Nat) (g : Nat) (e : DqEntry) (s : State), t < 1152 ∧ running s = true ∧ (tileOf s t).seq = .idle ∧ tileState s t ≤ 1 ∧ (tileOf s t).steal.answer = none ∧ (tileOf s t).ownPick = some k ∧ e = nth {words := []} (tileOf s t).dq k ∧ dGroup e.words ≠ 0xFFFF ∧ g = dGroup e.words % 16 ∧ (cgGen s g ≠ dGroup e.words / 16 ∨ cgState s g ≠ 0)) ∧
    (∃ (t : Nat) (s : State), (tileOf s t).ownPick = none) :=
  ⟨⟨1151, 0, nth { words := [] } tIdle.dq 0, lt tIdle, by refine ⟨?_, ?_, ?_, ?_, ?_, ?_, rfl, ?_⟩ <;> decide +kernel⟩,
   ⟨1151, 0, 15, { words := [dw [(24, 15), (18, 2)], 0#64, 0#64, 0#64, 0#64, 0#64, 0#64, 0#64] }, tileAt_ 1151 { dq := [({ words := [dw [(24, 15), (18, 2)], 0#64, 0#64, 0#64, 0#64, 0#64, 0#64, 0#64] })] }  (openSlot 15 2 0 false none up), by refine ⟨?_, ?_, ?_, ?_, ?_, ?_, rfl, ?_, ?_, ?_, ?_, ?_⟩ <;> decide +kernel⟩,
   ⟨1151, 0, 15, { words := [dw [(24, 15), (18, 2)], 0#64, 0#64, 0#64, 0#64, 0#64, 0#64, 0#64] }, tileAt_ 1151 { dq := [({ words := [dw [(24, 15), (18, 2)], 0#64, 0#64, 0#64, 0#64, 0#64, 0#64, 0#64] })] } (withRegs [(reg .CG_STATE 15, 3#64)]  (openSlot 15 2 0 false none up)), by refine ⟨?_, ?_, ?_, ?_, ?_, ?_, rfl, ?_, ?_, ?_⟩ <;> decide +kernel⟩,
   ⟨1151, lt { tRun with stores := [⟨1, 0, none⟩] }, by decide +kernel⟩⟩

theorem test_meets_StealingProceeds :
    (∃ (t : Nat) (s : State), maySteal s t = true ∧ (tileOf s t).steal.active = false ∧ (tileOf s t).steal.waiting = false) ∧
    (∃ (t : Nat) (pos : Nat) (v : Nat) (s : State), maySteal s t = true ∧ (tileOf s t).steal.active = true ∧ (tileOf s t).steal.answer = none ∧ nextProbe s t 17 (tileOf s t).steal.pos = some (pos, v) ∧ v ≠ t) ∧
    (∃ (t : Nat) (s : State), maySteal s t = true ∧ (tileOf s t).steal.active = true ∧ (tileOf s t).steal.answer = none ∧ nextProbe s t 17 (tileOf s t).steal.pos = none) ∧
    (∃ (t : Nat) (v : Nat) (e : DqEntry) (s : State), t < 1152 ∧ running s = true ∧ tileState s t ≤ 1 ∧ (tileOf s t).steal.answer = some (some e) ∧ (tileOf s t).steal.victim = some v ∧ dGroup e.words = 0xFFFF) ∧
    (∃ (t : Nat) (s : State), t < 1152 ∧ running s = true ∧ tileState s t ≤ 1 ∧ (tileOf s t).steal.answer = some none) ∧
    (∃ (t : Nat) (s : State), (tileOf s t).steal.waiting = true) :=
  ⟨⟨1151, tileAt_ 1150 tIdle (withRegs [(reg .TILE_DQ_CFG 1151, 7#64)]), by decide +kernel⟩,
   ⟨1151, 2, 1127, tileAt_ 1127 tIdle (tileAt_ 1151 { steal := { active := true } } (withRegs [(reg .TILE_DQ_CFG 1151, 7#64)])), by decide +kernel⟩,
   ⟨1151, tileAt_ 1151 { steal := { active := true, pos := 16 } } (tileAt_ 1150 tIdle (withRegs [(reg .TILE_DQ_CFG 1151, 7#64)])), by decide +kernel⟩,
   ⟨1151, 1150, nth { words := [] } tIdle.dq 0, lt { steal := { active := true, victim := some 1150, answer := some (some (nth { words := [] } tIdle.dq 0)) } }, by decide +kernel⟩,
   ⟨1151, lt { steal := { active := true, pos := 16, victim := some 1150, answer := some none } }, by decide +kernel⟩,
   ⟨1151, lt { steal := { waiting := true } }, by decide +kernel⟩⟩

theorem test_meets_GroupsOpen :
    (∃ (t : Nat) (w : BitVec 56) (w1 : Word) (s : State), Claim.canIssue s t w 2 [] [] = true ∧ isSecond w1 = true ∧ badOpen w w1 = false ∧ bits w 39 38 ≠ 3 ∧ (bit w 37 = true → [FP32, INT32, BF16].contains (bits w 31 28) = true ∧ (bits w 31 28 = INT32 → bits w 39 38 = 0)) ∧ bits w 47 44 + bits w 43 40 + 1 ≤ 16 ∧ Claim.queuesEmpty (tileOf s t) ∧ (tileOf s t).groups.all (fun h => h.arr != xArr w || (h.g != xG w && (decide (bits w 47 44 + bits w 43 40 < h.first) || decide (h.first + h.cnt ≤ bits w 47 44)))) = true) ∧
    (∃ (t : Nat) (w : BitVec 56) (w1 : Word) (s : State), t < 1152 ∧ Claim.canIssue s t w 2 [] [] = true ∧ isSecond w1 = true ∧ badOpen w w1 = false ∧ bits w 39 38 ≠ 3) ∧
    (∃ (t : Nat) (h : Group) (w : BitVec 56) (w1 : Word) (s : State), t < 1152 ∧ Claim.canIssue s t w 2 [] [] = true ∧ isSecond w1 = true ∧ badOpen w w1 = false ∧ bits w 39 38 ≠ 3 ∧ bit w 37 = false ∧ bits w 47 44 + bits w 43 40 + 1 ≤ 16 ∧ Claim.queuesEmpty (tileOf s t) ∧ h ∈ (tileOf s t).groups ∧ h.arr = xArr w) :=
  ⟨⟨1151, iw [(50, 1), (48, 3), (44, 0), (40, 15)], dw [(56, 0xFF)], lt tRun, by unfold Claim.queuesEmpty; decide +kernel⟩,
   ⟨1151, iw [(50, 1), (48, 3), (44, 0), (40, 15), (37, 1), (28, 3)], dw [(56, 0xFF)], lt tRun, by decide +kernel⟩,
   ⟨1151, { arr := 1, g := 3, first := 2, cnt := 2 }, iw [(50, 1), (48, 3), (44, 2), (40, 1)], dw [(56, 0xFF)], lt { tRun with groups := [({ arr := 1, g := 3, first := 2, cnt := 2 })] }, by unfold Claim.queuesEmpty; decide +kernel⟩⟩

theorem test_meets_GroupsAreInitialised :
    (∃ (t : Nat) (arr : Nat) (i : Init) (s : State), running s = true ∧ arr < 3 ∧ (tileOf s t).inits = [i] ∧ i.arr = arr ∧ i.hdr.post = none ∧ i.pre = false ∧ i.loaded = 0 ∧ 0 < i.cnt ∧ i.first + i.cnt ≤ 16 ∧ (tileOf s t).drains = [] ∧ Claim.queuesEmpty (tileOf s t)) ∧
    (∃ (t : Nat) (arr : Nat) (i : Init) (s : State), running s = true ∧ arr < 3 ∧ (tileOf s t).inits = [i] ∧ i.arr = arr ∧ i.hdr.post = none ∧ i.pre = true ∧ i.loaded = 0 ∧ 0 < i.cnt ∧ i.first + i.cnt ≤ 16 ∧ i.ap % 128 = 0 ∧ inDataOrBuf i.ap (i.cnt * preloadBytes i.fmt) = true ∧ (tileOf s t).drains = [] ∧ Claim.queuesEmpty (tileOf s t)) ∧
    (∃ (t : Nat) (arr : Nat) (s : State), (tileOf s t).inits.all (fun i => i.arr != arr) = true) :=
  ⟨⟨1151, 1, { hdr := ⟨1, 0, none⟩, arr := 1, g := 3, first := 2, cnt := 2, mode := 1 }, lt { tRun with groups := [{ arr := 1, g := 3, first := 2, cnt := 2 }], inits := [({ hdr := ⟨1, 0, none⟩, arr := 1, g := 3, first := 2, cnt := 2, mode := 1 })] }, by unfold Claim.queuesEmpty; decide +kernel⟩,
   ⟨1151, 1, { hdr := ⟨1, 0, none⟩, arr := 1, g := 3, first := 2, cnt := 2, pre := true, ap := 0x84000, fmt := 15 }, lt { tRun with groups := [{ arr := 1, g := 3, first := 2, cnt := 2 }], inits := [({ hdr := ⟨1, 0, none⟩, arr := 1, g := 3, first := 2, cnt := 2, pre := true, ap := 0x84000, fmt := 15 })] }, by unfold Claim.queuesEmpty; decide +kernel⟩,
   ⟨1151, 2, lt { tRun with inits := [{ hdr := ⟨1, 0, none⟩, arr := 1, g := 3, first := 2, cnt := 2, mode := 1 }] }, by decide +kernel⟩⟩

theorem test_meets_MatrixInstructionsQueue :
    (∃ (t : Nat) (w : BitVec 56) (w1 : Word) (s : State), Claim.canIssue s t w 2 [] [] = true ∧ isSecond w1 = true ∧ badMma w w1 false = false ∧ formatFault (tileOf s t) (mmaFields (tileOf s t) w w1 false false) = false ∧ Claim.matrixHeads (tileOf s t) = true ∧ ((tileOf s t).queue (xArr w)).length < 8) ∧
    (∃ (t : Nat) (f : MmaF) (w : BitVec 56) (w1 : Word) (s : State), Claim.canIssue s t w 2 [] [] = true ∧ isSecond w1 = true ∧ badMma w w1 true = false ∧ f = Claim.twoFields (tileOf s t) w w1 ∧ f.wm = true ∧ packBits f.fa = 8 ∧ f.oi + f.kb ≤ 8 ∧ formatFault (tileOf s t) f = false ∧ Claim.matrixHeads (tileOf s t) = true ∧ (tileOf s t).qGX.length < 8 ∧ (tileOf s t).qGW.length < 8) ∧
    (∃ (t : Nat) (f : MmaF) (w : BitVec 56) (w1 : Word) (s : State), Claim.canIssue s t w 2 [] [] = true ∧ isSecond w1 = true ∧ badMma w w1 false = false ∧ f = mmaFields (tileOf s t) w w1 false true ∧ f.arr = 0 ∧ f.fa = L12 ∧ f.fw = L12 ∧ f.larr = 0 ∧ f.warr = 0 ∧ f.sle = false ∧ Claim.matrixHeads (tileOf s t) = true ∧ (tileOf s t).qF.length < 8) ∧
    (∃ (t : Nat) (w : BitVec 56) (w1 : Word) (s : State), Claim.canIssue s t w 2 [] [] = true ∧ isSecond w1 = true ∧ badMma w w1 false = false ∧ formatFault (tileOf s t) (mmaFields (tileOf s t) w w1 false false) = false ∧ 8 ≤ ((tileOf s t).queue (xArr w)).length) ∧
    (∃ (t : Nat) (w : BitVec 56) (w1 : Word) (s : State), t < 1152 ∧ Claim.canIssue s t w 2 [] [] = true ∧ isSecond w1 = true) :=
  ⟨⟨1151, iw [(50, 2), (48, 3), (44, 1), (40, 2), (32, 8), (28, 8)], dw [(56, 0xFF), (51, 31), (39, 2)], lt tRun, by decide +kernel⟩,
   ⟨1151, { mmaFields (tileOf ((lt tRun)) 1151) ((iw [(50, 1), (48, 3), (44, 1), (40, 2), (36, 2), (32, 3), (28, 3), (23, 1)])) ((dw [(56, 0xFF), (51, 31), (39, 2)])) true false with arr := 1, aw2 := (tileOf ((lt tRun)) 1151).addr ((bits ((iw [(50, 1), (48, 3), (44, 1), (40, 2), (36, 2), (32, 3), (28, 3), (23, 1)])) 43 40 + 1) % 16), asc2 := (tileOf ((lt tRun)) 1151).addr ((bits ((iw [(50, 1), (48, 3), (44, 1), (40, 2), (36, 2), (32, 3), (28, 3), (23, 1)])) 39 36 + 1) % 16) }, iw [(50, 1), (48, 3), (44, 1), (40, 2), (36, 2), (32, 3), (28, 3), (23, 1)], dw [(56, 0xFF), (51, 31), (39, 2)], lt tRun, by refine ⟨?_, ?_, ?_, rfl, ?_, ?_, ?_, ?_, ?_, ?_, ?_⟩ <;> decide +kernel⟩,
   ⟨1151, mmaFields (tileOf ((lt tRun)) 1151) ((iw [(48, 3), (44, 1), (40, 2), (32, 15), (28, 15)])) ((dw [(56, 0xFF), (51, 31), (39, 2)])) false true, iw [(48, 3), (44, 1), (40, 2), (32, 15), (28, 15)], dw [(56, 0xFF), (51, 31), (39, 2)], lt tRun, by refine ⟨?_, ?_, ?_, rfl, ?_, ?_, ?_, ?_, ?_, ?_, ?_, ?_⟩ <;> decide +kernel⟩,
   ⟨1151, iw [(50, 1), (48, 3), (44, 1), (40, 2), (32, 8), (28, 8)], dw [(56, 0xFF), (51, 31), (39, 2)], lt { tRun with qGX := List.replicate 8 ⟨⟨1, 0, none⟩, .mma { arr := 1, g := 3 }⟩ }, by decide +kernel⟩,
   ⟨1151, iw [(50, 2), (48, 3), (44, 1), (40, 2), (32, 8), (28, 8)], dw [(56, 0xFF), (51, 31), (39, 2)], lt tRun, by decide +kernel⟩⟩

theorem test_meets_MatrixAccumulates :
    (∃ (t : Nat) (f : MmaF) (h : Group) (sn : Nat) (pc : Nat) (s : State), running s = true ∧ f.two = false ∧ f.arr < 3 ∧ f.rows ≤ 32 ∧ 1 ≤ f.kb ∧ (tileOf s t).qF = (if f.arr = 0 then [⟨⟨sn, pc, none⟩, .mma f⟩] else []) ∧ (tileOf s t).qGX = (if f.arr = 1 then [⟨⟨sn, pc, none⟩, .mma f⟩] else []) ∧ (tileOf s t).qGW = (if f.arr = 2 then [⟨⟨sn, pc, none⟩, .mma f⟩] else []) ∧ (tileOf s t).group f.arr f.g = some h ∧ groupFault (tileOf s t) f.arr f.g f.oi (mmaType f) = none ∧ operandFault (tileOf s t) f = none ∧ (tileOf s t).unready sn f.arr f.oi = false ∧ (tileOf s t).heldBefore sn f.arr f.oi = false) ∧
    (∃ (t : Nat) (r : Nat) (j : Nat) (l : List Num) (f : MmaF) (h : Group) (sn : Nat) (pc : Nat) (s : State), running s = true ∧ f.two = false ∧ f.arr < 3 ∧ f.rows ≤ 32 ∧ f.kb = 1 ∧ (tileOf s t).qF = (if f.arr = 0 then [⟨⟨sn, pc, none⟩, .mma f⟩] else []) ∧ (tileOf s t).qGX = (if f.arr = 1 then [⟨⟨sn, pc, none⟩, .mma f⟩] else []) ∧ (tileOf s t).qGW = (if f.arr = 2 then [⟨⟨sn, pc, none⟩, .mma f⟩] else []) ∧ (tileOf s t).group f.arr f.g = some h ∧ groupFault (tileOf s t) f.arr f.g f.oi (mmaType f) = none ∧ operandFault (tileOf s t) f = none ∧ (tileOf s t).unready sn f.arr f.oi = false ∧ (tileOf s t).heldBefore sn f.arr f.oi = false ∧ (tileOf s t).soft = [] ∧ r < f.rows ∧ j < 32 ∧ (mmaStep (tileOf s t) f 0).rows.find? (fun p => p.1 == r) = some (r, l)) ∧
    (∃ (t : Nat) (f : MmaF) (h : Group) (k : Group) (sn : Nat) (pc : Nat) (s : State), running s = true ∧ f.two = true ∧ f.rows ≤ 32 ∧ 1 ≤ f.kb ∧ f.oi + f.kb ≤ 8 ∧ (tileOf s t).qF = [] ∧ (tileOf s t).qGX = [⟨⟨sn, pc, none⟩, .mma f⟩] ∧ (tileOf s t).qGW = [⟨⟨sn, pc, none⟩, .mma f⟩] ∧ (tileOf s t).group 1 f.g = some h ∧ (tileOf s t).group 2 f.g = some k ∧ (∀ p ∈ mmaTargets f, groupFault (tileOf s t) p.1 f.g p.2 (mmaType f) = none ∧ (tileOf s t).unready sn p.1 p.2 = false ∧ (tileOf s t).heldBefore sn p.1 p.2 = false) ∧ operandFault (tileOf s t) f = none) ∧
    (∃ (t : Nat) (f : MmaF) (sn : Nat) (pc : Nat) (code : Nat) (s : State), t < 1152 ∧ running s = true ∧ f.two = false ∧ f.arr < 3 ∧ f.g < 4 ∧ (tileOf s t).seq = .running ∧ (tileOf s t).qF = (if f.arr = 0 then [⟨⟨sn, pc, none⟩, .mma f⟩] else []) ∧ (tileOf s t).qGX = (if f.arr = 1 then [⟨⟨sn, pc, none⟩, .mma f⟩] else []) ∧ (tileOf s t).qGW = (if f.arr = 2 then [⟨⟨sn, pc, none⟩, .mma f⟩] else []) ∧ groupFault (tileOf s t) f.arr f.g f.oi (mmaType f) = some code) :=
  ⟨⟨1151, { arr := 1, g := 3, ai := 0x80000, aw := 0, fa := 1, fw := 1, rows := 2, kb := 1, oi := 2 }, { arr := 1, g := 3, first := 2, cnt := 2 }, 1, 0, lt { tRun with qGX := [⟨⟨1, 0, none⟩, .mma ({ arr := 1, g := 3, ai := 0x80000, aw := 0, fa := 1, fw := 1, rows := 2, kb := 1, oi := 2 })⟩], groups := [({ arr := 1, g := 3, first := 2, cnt := 2 })] }, by decide +kernel⟩,
   ⟨1151, 1, 31, (((mmaStep (tileOf ((lt { tRun with qGX := [⟨⟨1, 0, none⟩, .mma ({ arr := 1, g := 3, ai := 0x80000, aw := 0, fa := 8, fw := 8, rows := 2, kb := 1, oi := 2 })⟩], groups := [({ arr := 1, g := 3, first := 2, cnt := 2, forms := 1 })], mem := SMap.putList 0#8 (SMap.putList 0#8 [] 0 (List.replicate 64 5#8)) 0x80000 (List.replicate 64 0xFE#8) })) 1151) (({ arr := 1, g := 3, ai := 0x80000, aw := 0, fa := 8, fw := 8, rows := 2, kb := 1, oi := 2 })) 0).rows.find? (fun p => p.1 == 1)).map (fun p => p.2)).getD [], { arr := 1, g := 3, ai := 0x80000, aw := 0, fa := 8, fw := 8, rows := 2, kb := 1, oi := 2 }, { arr := 1, g := 3, first := 2, cnt := 2, forms := 1 }, 1, 0, lt { tRun with qGX := [⟨⟨1, 0, none⟩, .mma ({ arr := 1, g := 3, ai := 0x80000, aw := 0, fa := 8, fw := 8, rows := 2, kb := 1, oi := 2 })⟩], groups := [({ arr := 1, g := 3, first := 2, cnt := 2, forms := 1 })], mem := SMap.putList 0#8 (SMap.putList 0#8 [] 0 (List.replicate 64 5#8)) 0x80000 (List.replicate 64 0xFE#8) }, by decide +kernel⟩,
   ⟨1151, { arr := 1, g := 3, ai := 0x80000, aw := 0, aw2 := 0x84000, fa := 3, fw := 3, rows := 1, kb := 1, oi := 2, wm := true, two := true }, { arr := 1, g := 3, first := 2, cnt := 2 }, { arr := 2, g := 3, first := 10, cnt := 2 }, 1, 0, lt { tRun with qGX := [⟨⟨1, 0, none⟩, .mma ({ arr := 1, g := 3, ai := 0x80000, aw := 0, aw2 := 0x84000, fa := 3, fw := 3, rows := 1, kb := 1, oi := 2, wm := true, two := true })⟩], qGW := [⟨⟨1, 0, none⟩, .mma ({ arr := 1, g := 3, ai := 0x80000, aw := 0, aw2 := 0x84000, fa := 3, fw := 3, rows := 1, kb := 1, oi := 2, wm := true, two := true })⟩], groups := [({ arr := 1, g := 3, first := 2, cnt := 2 }), ({ arr := 2, g := 3, first := 10, cnt := 2 })] }, by decide +kernel⟩,
   ⟨1151, { arr := 1, g := 3, ai := 0x80000, aw := 0, fa := 8, fw := 8, rows := 2, kb := 1, oi := 2 }, 1, 0, 0x20, lt { tRun with qGX := [⟨⟨1, 0, none⟩, .mma ({ arr := 1, g := 3, ai := 0x80000, aw := 0, fa := 8, fw := 8, rows := 2, kb := 1, oi := 2 })⟩] }, by decide +kernel⟩⟩

theorem test_meets_AccumulationRule :
    ∃ (mode : Nat), (mode = 1 ∨ mode = 2) :=
  ⟨1, by decide +kernel⟩

theorem test_meets_GroupsAbort :
    (∃ (t : Nat) (w : BitVec 56) (w1 : Word) (h : Group) (s : State), Claim.canIssue s t w 2 [] [] = true ∧ isSecond w1 = true ∧ badOpen w w1 = false ∧ xPost w = none ∧ Claim.queuesEmpty (tileOf s t) ∧ (tileOf s t).group (xArr w) (xG w) = some h ∧ (tileOf s t).inits.all (fun i => i.arr != xArr w || i.g != xG w) = true ∧ (tileOf s t).drains.all (fun d => d.f.arr != xArr w || d.f.g != xG w || !d.f.keep) = true) ∧
    (∃ (t : Nat) (w : BitVec 56) (w1 : Word) (s : State), t < 1152 ∧ Claim.canIssue s t w 2 [] [] = true ∧ isSecond w1 = true ∧ badOpen w w1 = false ∧ Claim.queuesEmpty (tileOf s t) ∧ (tileOf s t).group (xArr w) (xG w) = none) :=
  ⟨⟨1151, iw [(50, 1), (48, 3)], dw [(56, 0xFF)], { arr := 1, g := 3, first := 2, cnt := 2 }, lt { tRun with groups := [({ arr := 1, g := 3, first := 2, cnt := 2 })] }, by unfold Claim.queuesEmpty; decide +kernel⟩,
   ⟨1151, iw [(50, 1), (48, 3)], dw [(56, 0xFF)], lt tRun, by unfold Claim.queuesEmpty; decide +kernel⟩⟩

theorem test_meets_DrainsEnter :
    (∃ (t : Nat) (w : BitVec 56) (w1 : Word) (s : State), t < 1152 ∧ Claim.canIssue s t w 2 [] [] = true ∧ isSecond w1 = true ∧ badDrain w w1 = false ∧ outPairOk (bits w 42 39) (bits w 38 37) = true ∧ (isFP6 (bits w 42 39) = true → (tileOf s t).fp6D ≠ 0) ∧ Claim.queuesEmpty (tileOf s t)) ∧
    (∃ (t : Nat) (w : BitVec 56) (w1 : Word) (s : State), t < 1152 ∧ Claim.canIssue s t w 2 [] [] = true ∧ isSecond w1 = true ∧ bits w 19 0 = 0 ∧ bits w1 31 0 = 0 ∧ xArr w = 0 ∧ (bits w 42 39 = L12 ∨ bits w 42 39 = FP32) ∧ bits w 38 37 = 0 ∧ bits w 31 30 ≤ 1 ∧ bits w 35 32 ≤ 1 ∧ bit w 28 = false ∧ bits w 27 25 = 0 ∧ bit w 36 = false ∧ Claim.queuesEmpty (tileOf s t)) ∧
    (∃ (t : Nat) (w : BitVec 56) (w1 : Word) (s : State), t < 1152 ∧ Claim.canIssue s t w 2 [] [] = true ∧ isSecond w1 = true ∧ badDrain w w1 = false ∧ (outPairOk (bits w 42 39) (bits w 38 37) = false ∨ isFP6 (bits w 42 39) = true ∧ (tileOf s t).fp6D = 0)) ∧
    (∃ (t : Nat) (w : BitVec 56) (w1 : Word) (s : State), t < 1152 ∧ Claim.canIssue s t w 2 [] [] = true ∧ isSecond w1 = true ∧ bits w 19 0 = 0 ∧ bits w1 31 0 = 0 ∧ xArr w ≠ 0 ∧ xArr w ≠ 3 ∧ (bits w 42 39 = L12 ∨ bits w 42 39 = FP32) ∧ bits w 38 37 = 0 ∧ bits w 31 30 ≤ 1 ∧ bits w 35 32 ≤ 1 ∧ bit w 28 = false ∧ bits w 27 25 = 0 ∧ bit w 36 = false) :=
  ⟨⟨1151, iw [(50, 1), (48, 3), (44, 1), (39, 3), (37, 1)], dw [(56, 0xFF), (32, 4095)], lt { tRun with groups := [({ arr := 1, g := 3, first := 2, cnt := 2 })] }, by unfold Claim.queuesEmpty; decide +kernel⟩,
   ⟨1151, iw [(50, 0), (48, 3), (44, 1), (39, 15)], dw [(56, 0xFF), (32, 5)], lt { tRun with groups := [({ arr := 0, g := 3, first := 2, cnt := 2, gty := 3 })] }, by unfold Claim.queuesEmpty; decide +kernel⟩,
   ⟨1151, iw [(50, 0), (48, 3), (44, 1), (39, 15)], dw [(56, 0xFF), (32, 5)], lt { tRun with groups := [({ arr := 0, g := 3, first := 2, cnt := 2, gty := 3 })] }, by decide +kernel⟩,
   ⟨1151, iw [(50, 1), (48, 3), (39, 15)], dw [(56, 0xFF)], lt tRun, by decide +kernel⟩⟩

theorem test_meets_DrainsRun :
    (∃ (t : Nat) (arr : Nat) (d : Drain) (s : State), t < 1152 ∧ running s = true ∧ headDrain (tileOf s t) arr = some d ∧ d.started = false ∧ d.f.tid < 4096) ∧
    (∃ (t : Nat) (d : Drain) (h : Group) (s : State), t < 1152 ∧ running s = true ∧ headDrain (tileOf s t) 0 = some d ∧ d.started = false ∧ d.f.keep = true ∧ d.f.tid < 4096 ∧ (tileOf s t).group 0 d.f.g = some h ∧ h.sn < d.hdr.sn) ∧
    (∃ (t : Nat) (arr : Nat) (d : Drain) (ds : List Drain) (sn : Nat) (pc : Nat) (s : State), (tileOf s t).drains = d :: ds ∧ d.f.arr = arr ∧ d.hdr = ⟨sn, pc, none⟩ ∧ d.started = true ∧ d.cnt ≤ d.tile ∧ Claim.queuesEmpty (tileOf s t)) ∧
    (∃ (t : Nat) (arr : Nat) (d : Drain) (s : State), headDrain (tileOf s t) arr = some d ∧ d.tile < d.cnt) ∧
    (∃ (t : Nat) (arr : Nat) (d : Drain) (s : State), (tileOf s t).drains = [d] ∧ d.f.arr = arr ∧ d.fetch = true) :=
  ⟨⟨1151, 1, { hdr := ⟨1, 0, none⟩, f := { arr := 1, g := 3, ad := 0x80000, tid := 4095 }, first := 2, cnt := 2 }, lt { tRun with drains := [({ hdr := ⟨1, 0, none⟩, f := { arr := 1, g := 3, ad := 0x80000, tid := 4095 }, first := 2, cnt := 2 })] }, by decide +kernel⟩,
   ⟨1151, { hdr := ⟨1, 0, none⟩, f := { arr := 0, g := 3, ad := 0x80000, tid := 4095, keep := true }, first := 2, cnt := 2 }, { arr := 0, g := 3, first := 2, cnt := 2 }, lt { tRun with drains := [({ hdr := ⟨1, 0, none⟩, f := { arr := 0, g := 3, ad := 0x80000, tid := 4095, keep := true }, first := 2, cnt := 2 })], groups := [({ arr := 0, g := 3, first := 2, cnt := 2 })] }, by decide +kernel⟩,
   ⟨1151, 1, { hdr := ⟨1, 0, none⟩, f := { arr := 1, g := 3, ad := 0x80000, tid := 4095 }, first := 2, cnt := 2, started := true, tile := 2 }, [], 1, 0, lt { tRun with drains := [({ hdr := ⟨1, 0, none⟩, f := { arr := 1, g := 3, ad := 0x80000, tid := 4095 }, first := 2, cnt := 2, started := true, tile := 2 })] }, by unfold Claim.queuesEmpty; decide +kernel⟩,
   ⟨1151, 1, { hdr := ⟨1, 0, none⟩, f := { arr := 1, g := 3, ad := 0x80000, tid := 4095 }, first := 2, cnt := 2, started := true }, lt { tRun with drains := [({ hdr := ⟨1, 0, none⟩, f := { arr := 1, g := 3, ad := 0x80000, tid := 4095 }, first := 2, cnt := 2, started := true })] }, by decide +kernel⟩,
   ⟨1151, 1, { hdr := ⟨1, 0, none⟩, f := { arr := 1, g := 3, ad := 0x80000, tid := 4095 }, first := 2, cnt := 2, fetch := true }, lt { tRun with drains := [({ hdr := ⟨1, 0, none⟩, f := { arr := 1, g := 3, ad := 0x80000, tid := 4095 }, first := 2, cnt := 2, fetch := true })] }, by decide +kernel⟩⟩

theorem test_meets_GuardDecides :
    (∃ (t : Nat) (arr : Nat) (d : Drain) (rows : List ChainRow) (s : State), headDrain (tileOf s t) arr = some d ∧ d.slot = 1 ∧ d.pend = false ∧ chainTile (tileOf s t) d = .ok rows ∧ d.f.tid < 4096 ∧ rbits s (reg .BLT_GUARD d.f.tid) 19 8 < bits (effReg s (reg .BLT_SPILL d.f.tid)) 59 48) ∧
    (∃ (t : Nat) (arr : Nat) (d : Drain) (ds : List Drain) (rows : List ChainRow) (s : State), (tileOf s t).drains = d :: ds ∧ d.f.arr = arr ∧ d.slot = 1 ∧ d.pend = false ∧ chainTile (tileOf s t) d = .ok rows ∧ d.f.tid < 4096 ∧ bits (effReg s (reg .BLT_SPILL d.f.tid)) 59 48 ≤ rbits s (reg .BLT_GUARD d.f.tid) 19 8 ∧ (tileOf s t).seq = .running ∧ ds = [] ∧ Claim.queuesEmpty (tileOf s t)) :=
  ⟨⟨1151, 1, { hdr := ⟨1, 0, none⟩, f := { arr := 1, g := 3, ad := 0x80000, tid := 4095 }, first := 2, cnt := 2, started := true, slot := 1 }, rowsOf (chainTile (tileOf ((tileAt_ 1151 { tRun with drains := [({ hdr := ⟨1, 0, none⟩, f := { arr := 1, g := 3, ad := 0x80000, tid := 4095 }, first := 2, cnt := 2, started := true, slot := 1 })] } { withRegs [(reg .BLT_SPILL 4095, dw [(48, 1)])] with blt := { eff := [((reg .BLT_SPILL 4095).off, dw [(48, 1)])] } })) 1151) (({ hdr := ⟨1, 0, none⟩, f := { arr := 1, g := 3, ad := 0x80000, tid := 4095 }, first := 2, cnt := 2, started := true, slot := 1 }))), tileAt_ 1151 { tRun with drains := [({ hdr := ⟨1, 0, none⟩, f := { arr := 1, g := 3, ad := 0x80000, tid := 4095 }, first := 2, cnt := 2, started := true, slot := 1 })] } { withRegs [(reg .BLT_SPILL 4095, dw [(48, 1)])] with blt := { eff := [((reg .BLT_SPILL 4095).off, dw [(48, 1)])] } }, by refine ⟨?_, ?_, ?_, okRows _ (by decide +kernel), ?_, ?_⟩ <;> decide +kernel⟩,
   ⟨1151, 1, { hdr := ⟨1, 0, none⟩, f := { arr := 1, g := 3, ad := 0x80000, tid := 4095 }, first := 2, cnt := 2, started := true, slot := 1 }, [], rowsOf (chainTile (tileOf ((tileAt_ 1151 { tRun with drains := [({ hdr := ⟨1, 0, none⟩, f := { arr := 1, g := 3, ad := 0x80000, tid := 4095 }, first := 2, cnt := 2, started := true, slot := 1 })] } { withRegs [(reg .BLT_SPILL 4095, dw [(48, 1)]), (reg .BLT_GUARD 4095, dw [(8, 5)])] with blt := { eff := [((reg .BLT_SPILL 4095).off, dw [(48, 1)])] } })) 1151) (({ hdr := ⟨1, 0, none⟩, f := { arr := 1, g := 3, ad := 0x80000, tid := 4095 }, first := 2, cnt := 2, started := true, slot := 1 }))), tileAt_ 1151 { tRun with drains := [({ hdr := ⟨1, 0, none⟩, f := { arr := 1, g := 3, ad := 0x80000, tid := 4095 }, first := 2, cnt := 2, started := true, slot := 1 })] } { withRegs [(reg .BLT_SPILL 4095, dw [(48, 1)]), (reg .BLT_GUARD 4095, dw [(8, 5)])] with blt := { eff := [((reg .BLT_SPILL 4095).off, dw [(48, 1)])] } }, by refine ⟨?_, ?_, ?_, ?_, okRows _ (by decide +kernel), ?_, ?_, ?_, ?_, ?_⟩ <;> first | decide +kernel | (unfold Claim.queuesEmpty; decide +kernel)⟩⟩

theorem test_meets_BlotterCounts :
    (∃ (r : Report) (rs : List Report) (z : Nat) (sa : Nat) (nf : Nat) (n : Nat) (s : State), s.blt.reports = r :: rs ∧ r.tid < 4096 ∧ r.cnts = [z, sa, nf, n]) ∧
    (∃ (s : State), s.blt.reports = []) :=
  ⟨⟨{ tid := 4095, amax := 0x3F800000#32, cnts := [1, 2, 3, 1024] }, [], 1, 2, 3, 1024, { up with blt := { reports := [({ tid := 4095, amax := 0x3F800000#32, cnts := [1, 2, 3, 1024] })] } }, by decide +kernel⟩,
   ⟨up, by decide +kernel⟩⟩

theorem test_meets_AdjudicationProceeds :
    (∃ (t : Nat) (unit : Nat) (b : Nat) (d : Drain) (a : Adj) (s : State), t < 1152 ∧ unit < 3 ∧ headDrain (tileOf s t) unit = some d ∧ d.adj = some a ∧ a.started = false ∧ a.attempts = 1 ∧ b < 3 ∧ arrayServes (tileOf s t) d b = true) ∧
    (∃ (t : Nat) (unit : Nat) (u : Nat) (d : Drain) (a : Adj) (s : State), t < 1152 ∧ unit < 3 ∧ headDrain (tileOf s t) unit = some d ∧ d.adj = some a ∧ a.started = false ∧ a.attempts = 1 ∧ (List.range 3).all (fun b => !arrayServes (tileOf s t) d b) = true ∧ nearestHelper s t u t = true) ∧
    (∃ (t : Nat) (unit : Nat) (u : Nat) (d : Drain) (a : Adj) (s : State), t < 1152 ∧ unit < 3 ∧ headDrain (tileOf s t) unit = some d ∧ d.adj = some a ∧ a.started = false ∧ a.attempts ≠ 1 ∧ nearestHelper s t u a.tile2 = true) ∧
    (∃ (t : Nat) (u : Nat) (a : Adj) (s : State), t < 1152 ∧ (tileOf s t).vAdj = some a ∧ a.started = false ∧ nearestHelper s t u (if a.attempts = 1 then t else a.tile2) = true) ∧
    (∃ (t : Nat) (unit : Nat) (d : Drain) (a : Adj) (s : State), unit < 3 ∧ headDrain (tileOf s t) unit = some d ∧ d.adj = some a ∧ a.started = true ∧ a.attempts = 1) ∧
    (∃ (t : Nat) (unit : Nat) (d : Drain) (a : Adj) (s : State), unit < 3 ∧ (tileOf s t).drains = [d] ∧ d.f.arr = unit ∧ d.adj = some a ∧ a.started = true ∧ a.attempts ≠ 1 ∧ (tileOf s t).seq = .running ∧ Claim.queuesEmpty (tileOf s t)) :=
  ⟨⟨1151, 1, 2, { hdr := ⟨1, 0, none⟩, f := { arr := 1, g := 3, ad := 0x80000, tid := 4095 }, first := 2, cnt := 2, started := true, adj := some ({ row := 3 }) }, { row := 3 }, lt { tRun with drains := [({ hdr := ⟨1, 0, none⟩, f := { arr := 1, g := 3, ad := 0x80000, tid := 4095 }, first := 2, cnt := 2, started := true, adj := some ({ row := 3 }) })] }, by decide +kernel⟩,
   ⟨1151, 1, 1150, { hdr := ⟨1, 0, none⟩, f := { arr := 1, g := 3, ad := 0x80000, tid := 4095 }, first := 2, cnt := 2, started := true, forms := 7, adj := some ({ row := 3 }) }, { row := 3 }, lt { tRun with drains := [({ hdr := ⟨1, 0, none⟩, f := { arr := 1, g := 3, ad := 0x80000, tid := 4095 }, first := 2, cnt := 2, started := true, forms := 7, adj := some ({ row := 3 }) })] }, by decide +kernel⟩,
   ⟨1151, 1, 1150, { hdr := ⟨1, 0, none⟩, f := { arr := 1, g := 3, ad := 0x80000, tid := 4095 }, first := 2, cnt := 2, started := true, forms := 7, adj := some ({ row := 3, attempts := 2, tile2 := 5 }) }, { row := 3, attempts := 2, tile2 := 5 }, lt { tRun with drains := [({ hdr := ⟨1, 0, none⟩, f := { arr := 1, g := 3, ad := 0x80000, tid := 4095 }, first := 2, cnt := 2, started := true, forms := 7, adj := some ({ row := 3, attempts := 2, tile2 := 5 }) })] }, by decide +kernel⟩,
   ⟨1151, 1150, { row := 3 }, lt { tRun with vAdj := some ({ row := 3 }) }, by decide +kernel⟩,
   ⟨1151, 1, { hdr := ⟨1, 0, none⟩, f := { arr := 1, g := 3, ad := 0x80000, tid := 4095 }, first := 2, cnt := 2, started := true, adj := some ({ row := 3, started := true }) }, { row := 3, started := true }, lt { tRun with drains := [({ hdr := ⟨1, 0, none⟩, f := { arr := 1, g := 3, ad := 0x80000, tid := 4095 }, first := 2, cnt := 2, started := true, adj := some ({ row := 3, started := true }) })] }, by decide +kernel⟩,
   ⟨1151, 1, { hdr := ⟨1, 0, none⟩, f := { arr := 1, g := 3, ad := 0x80000, tid := 4095 }, first := 2, cnt := 2, started := true, adj := some ({ row := 3, started := true, attempts := 2 }) }, { row := 3, started := true, attempts := 2 }, lt { tRun with drains := [({ hdr := ⟨1, 0, none⟩, f := { arr := 1, g := 3, ad := 0x80000, tid := 4095 }, first := 2, cnt := 2, started := true, adj := some ({ row := 3, started := true, attempts := 2 }) })] }, by unfold Claim.queuesEmpty; decide +kernel⟩⟩

theorem test_meets_VectorInstructionsQueue_1 :
    (∃ (t : Nat) (w : BitVec 56) (s : State), Claim.canIssue s t w 1 [] [] = true ∧ bits w 15 0 = 0 ∧ (vTy w != 3 && decide (vFn w ≤ 2)) = true) ∧
    (∃ (t : Nat) (w : BitVec 56) (s : State), Claim.canIssue s t w 1 [] [] = true ∧ bits w 15 0 = 0 ∧ (vTy w != 3 && decide (vFn w ≤ 2) && vVd w == 0) = true) ∧
    (∃ (t : Nat) (w : BitVec 56) (s : State), Claim.canIssue s t w 1 [vSs w] [] = true ∧ bits w 15 0 = 0 ∧ (vTy w != 3) = true) ∧
    (∃ (t : Nat) (w : BitVec 56) (s : State), Claim.canIssue s t w 1 [] [] = true ∧ bits w 15 0 = 0 ∧ (vTy w != 3 && decide (vFn w ≤ 13) && (decide (vFn w ≤ 9) == (vTy w == 2))) = true) ∧
    (∃ (t : Nat) (w : BitVec 56) (s : State), Claim.canIssue s t w 1 [] [] = true ∧ bits w 15 0 = 0 ∧ (decide (vFn w ≤ 6) && decide (vVa w ≤ 3) && decide (vVb w ≤ 3) && !vMu w) = true) ∧
    (∃ (t : Nat) (w : BitVec 56) (s : State), Claim.canIssue s t w 1 [] [] = true ∧ bits w 15 0 = 0 ∧ (vTy w != 3) = true) ∧
    (∃ (t : Nat) (w : BitVec 56) (s : State), Claim.canIssue s t w 1 [] [] = true ∧ bits w 15 0 = 0 ∧ (vTy w != 3 && !vMu w) = true) ∧
    (∃ (t : Nat) (w : BitVec 56) (s : State), Claim.canIssue s t w 1 [] [] = true ∧ bits w 15 0 = 0 ∧ (vTy w != 3 && decide (vFn w ≤ 7)) = true) :=
  ⟨⟨1151, iw [(49, 7), (46, 6), (43, 5), (35, 2)], lt tRun, by decide +kernel⟩,
   ⟨1151, iw [(46, 7), (35, 2)], lt tRun, by decide +kernel⟩,
   ⟨1151, iw [(49, 7), (35, 0), (21, 3)], lt tRun, by decide +kernel⟩,
   ⟨1151, iw [(49, 7), (35, 2), (31, 9)], lt tRun, by decide +kernel⟩,
   ⟨1151, iw [(49, 3), (46, 3), (43, 2), (31, 6)], lt tRun, by decide +kernel⟩,
   ⟨1151, iw [(49, 7), (31, 5), (35, 2)], lt tRun, by decide +kernel⟩,
   ⟨1151, iw [(49, 7), (35, 2)], lt tRun, by decide +kernel⟩,
   ⟨1151, iw [(49, 7), (46, 6), (43, 5), (35, 2)], lt tRun, by decide +kernel⟩⟩

theorem test_meets_VectorInstructionsQueue_2 :
    ∃ (t : Nat) (w : BitVec 56) (s : State), Claim.canIssue s t w 1 [] [] = true ∧ bits w 15 0 = 0 ∧ (vTy w != 3 && decide (vFn w % 8 ≤ 5)) = true :=
  ⟨1151, iw [(49, 7), (46, 6), (43, 5), (35, 2)], lt tRun, by decide +kernel⟩

theorem test_meets_VectorArithmetic :
    (∃ (t : Nat) (opc : Nat) (av : Nat) (sn : Nat) (pc : Nat) (w : BitVec 56) (sv : Word) (rest : List VecOp) (ok : Bool) (s : State), Claim.vectorHead s t opc w av sv rest sn pc ∧ [0x88, 0x89, 0x8A, 0x8B, 0x8C, 0x8D].contains opc = true ∧ (ok = true ∨ 0x8C ≤ opc) ∧ vTy w ≠ 3) ∧
    (∃ (t : Nat) (opc : Nat) (av : Nat) (sn : Nat) (pc : Nat) (w : BitVec 56) (sv : Word) (rest : List VecOp) (s : State), Claim.vectorHead s t opc w av sv rest sn pc ∧ [0x88, 0x89, 0x8A, 0x8B, 0x8C, 0x8D].contains opc = true ∧ (vTy w = 0 ∨ vTy w = 2)) ∧
    (∃ (t : Nat) (av : Nat) (sn : Nat) (pc : Nat) (w : BitVec 56) (sv : Word) (rest : List VecOp) (s : State), Claim.vectorHead s t 0x82 w av sv rest sn pc) ∧
    (∃ (t : Nat) (opc : Nat) (av : Nat) (sn : Nat) (pc : Nat) (w : BitVec 56) (sv : Word) (rest : List VecOp) (s : State), Claim.vectorHead s t opc w av sv rest sn pc ∧ [0x88, 0x89, 0x8A, 0x8B, 0x94, 0x99].contains opc = true ∧ assist s 6 = false) ∧
    (∃ (t : Nat) (s : State), ((tileOf s t).vec = [] ∨ (tileOf s t).vAdj.isSome = true ∨ running s = false)) :=
  ⟨⟨1151, 136, 0x80000, 1, 0, iw [(49, 7), (46, 6), (43, 5), (35, 0)], 5#64, [], true, lt { tRun with vec := [⟨⟨1, 0, none⟩, 136, iw [(49, 7), (46, 6), (43, 5), (35, 0)], 0x80000, 5#64⟩], v := SMap.putList 0#32 [] 320 ((List.range 128).map (fun i => BitVec.ofNat 32 (0x3F800000 + i * 0x7654321))) }, by unfold Claim.vectorHead; decide +kernel⟩,
   ⟨1151, 136, 0x80000, 1, 0, iw [(49, 7), (46, 6), (43, 5), (35, 0)], 5#64, [], lt { tRun with vec := [⟨⟨1, 0, none⟩, 136, iw [(49, 7), (46, 6), (43, 5), (35, 0)], 0x80000, 5#64⟩], v := SMap.putList 0#32 [] 320 ((List.range 128).map (fun i => BitVec.ofNat 32 (0x3F800000 + i * 0x7654321))) }, by unfold Claim.vectorHead; decide +kernel⟩,
   ⟨1151, 0x80000, 1, 0, iw [(49, 7), (35, 0)], 5#64, [], lt { tRun with vec := [⟨⟨1, 0, none⟩, 130, iw [(49, 7), (35, 0)], 0x80000, 5#64⟩] }, by unfold Claim.vectorHead; decide +kernel⟩,
   ⟨1151, 136, 0x80000, 1, 0, iw [(49, 7), (46, 6), (43, 5), (35, 0)], 5#64, [], lt { tRun with vec := [⟨⟨1, 0, none⟩, 136, iw [(49, 7), (46, 6), (43, 5), (35, 0)], 0x80000, 5#64⟩], v := SMap.putList 0#32 [] 320 ((List.range 128).map (fun i => BitVec.ofNat 32 (0x3F800000 + i * 0x7654321))) }, by unfold Claim.vectorHead; decide +kernel⟩,
   ⟨1151, lt tRun, by decide +kernel⟩⟩

theorem test_meets_VectorMovesAndMasks :
    (∃ (t : Nat) (av : Nat) (sn : Nat) (pc : Nat) (w : BitVec 56) (sv : Word) (rest : List VecOp) (s : State), Claim.vectorHead s t 0x83 w av sv rest sn pc ∧ (tileOf s t).lanePois (vVa w) 0 = false) ∧
    (∃ (t : Nat) (av : Nat) (sn : Nat) (pc : Nat) (w : BitVec 56) (sv : Word) (rest : List VecOp) (s : State), Claim.vectorHead s t 0x83 w av sv rest sn pc ∧ (tileOf s t).lanePois (vVa w) 0 = true ∧ (tileOf s t).seq = .running) ∧
    (∃ (t : Nat) (av : Nat) (sn : Nat) (pc : Nat) (w : BitVec 56) (sv : Word) (rest : List VecOp) (s : State), Claim.vectorHead s t 0x84 w av sv rest sn pc) ∧
    (∃ (t : Nat) (av : Nat) (sn : Nat) (pc : Nat) (w : BitVec 56) (sv : Word) (rest : List VecOp) (s : State), Claim.vectorHead s t 0x85 w av sv rest sn pc) ∧
    (∃ (t : Nat) (av : Nat) (sn : Nat) (pc : Nat) (w : BitVec 56) (sv : Word) (rest : List VecOp) (s : State), Claim.vectorHead s t 0x8E w av sv rest sn pc) :=
  ⟨⟨1151, 0x80000, 1, 0, iw [(49, 2), (46, 6), (21, 9)], 5#64, [], lt { tRun with vec := [⟨⟨1, 0, none⟩, 131, iw [(49, 2), (46, 6), (21, 9)], 0x80000, 5#64⟩] }, by unfold Claim.vectorHead; decide +kernel⟩,
   ⟨1151, 0x80000, 1, 0, iw [(49, 2), (46, 6), (21, 9)], 5#64, [], lt { tRun with vec := [⟨⟨1, 0, none⟩, 131, iw [(49, 2), (46, 6), (21, 9)], 0x80000, 5#64⟩], vpois := [(384, true)] }, by unfold Claim.vectorHead; decide +kernel⟩,
   ⟨1151, 0x80000, 1, 0, iw [(49, 2), (46, 6), (43, 5), (35, 2), (31, 9)], 5#64, [], lt { tRun with vec := [⟨⟨1, 0, none⟩, 132, iw [(49, 2), (46, 6), (43, 5), (35, 2), (31, 9)], 0x80000, 5#64⟩] }, by unfold Claim.vectorHead; decide +kernel⟩,
   ⟨1151, 0x80000, 1, 0, iw [(49, 2), (46, 1), (43, 3), (31, 0)], 5#64, [], lt { tRun with vec := [⟨⟨1, 0, none⟩, 133, iw [(49, 2), (46, 1), (43, 3), (31, 0)], 0x80000, 5#64⟩], m := [(1, 0xF0F0#128), (3, 0xFF00#128)] }, by unfold Claim.vectorHead; decide +kernel⟩,
   ⟨1151, 0x80000, 1, 0, iw [(49, 2), (46, 6), (43, 5), (38, 1)], 5#64, [], lt { tRun with vec := [⟨⟨1, 0, none⟩, 142, iw [(49, 2), (46, 6), (43, 5), (38, 1)], 0x80000, 5#64⟩], m := [(1, 0xF0F0#128)] }, by unfold Claim.vectorHead; decide +kernel⟩⟩

theorem test_meets_VectorMemory :
    (∃ (t : Nat) (av : Nat) (sn : Nat) (pc : Nat) (w : BitVec 56) (sv : Word) (rest : List VecOp) (s : State), Claim.vectorHead s t 0x80 w av sv rest sn pc ∧ vFn w = 0 ∧ (vTy w = 0 ∨ vTy w = 2) ∧ av % 8 = 0 ∧ av + 256 ≤ 0xC0000) ∧
    (∃ (t : Nat) (av : Nat) (sn : Nat) (pc : Nat) (w : BitVec 56) (sv : Word) (rest : List VecOp) (s : State), Claim.vectorHead s t 0x81 w av sv rest sn pc ∧ vFn w = 0 ∧ (vTy w = 0 ∨ vTy w = 2) ∧ av % 8 = 0 ∧ 0x80000 ≤ av ∧ av + 256 ≤ 0xC0000 ∧ vecFault s t (tileOf s t) w av true = none ∧ (∀ l, l < 64 → (tileOf s t).active w l = true → (tileOf s t).lanePois (vVa w) l = false) ∧ tileState s t ≠ 2) ∧
    (∃ (t : Nat) (av : Nat) (sn : Nat) (pc : Nat) (w : BitVec 56) (sv : Word) (rest : List VecOp) (f : Nat × Nat × Nat) (s : State), vecFault s t (tileOf s t) w av false = some f ∧ Claim.vectorHead s t 0x80 w av sv rest sn pc ∧ (tileOf s t).seq = .running) ∧
    (∃ (t : Nat) (av : Nat) (sn : Nat) (pc : Nat) (w : BitVec 56) (sv : Word) (rest : List VecOp) (f : Nat × Nat × Nat) (s : State), vecFault s t (tileOf s t) w av true = some f ∧ Claim.vectorHead s t 0x81 w av sv rest sn pc ∧ (tileOf s t).seq = .running) ∧
    (∃ (t : Nat) (av : Nat) (sn : Nat) (pc : Nat) (e : Nat) (w : BitVec 56) (sv : Word) (rest : List VecOp) (s : State), vecFault s t (tileOf s t) w av true = none ∧ vFn w = 0 ∧ (vTy w = 0 ∨ vTy w = 2) ∧ e < 64 ∧ (tileOf s t).active w e = true ∧ (tileOf s t).lanePois (vVa w) e = true ∧ (∀ l, l < e → (tileOf s t).active w l = true → (tileOf s t).lanePois (vVa w) l = false) ∧ Claim.vectorHead s t 0x81 w av sv rest sn pc ∧ (tileOf s t).seq = .running) :=
  ⟨⟨1151, 0x80000, 1, 0, iw [(49, 2), (35, 2)], 5#64, [], lt { tRun with vec := [⟨⟨1, 0, none⟩, 128, iw [(49, 2), (35, 2)], 0x80000, 5#64⟩] }, by unfold Claim.vectorHead; decide +kernel⟩,
   ⟨1151, 0x80000, 1, 0, iw [(46, 2), (35, 2)], 5#64, [], lt { tRun with vec := [⟨⟨1, 0, none⟩, 129, iw [(46, 2), (35, 2)], 0x80000, 5#64⟩], codeLo := 0x8000 }, by unfold Claim.vectorHead; decide +kernel⟩,
   ⟨1151, 0x80004, 1, 0, iw [(49, 2), (35, 2)], 5#64, [], (4, 0x80004, 0), lt { tRun with vec := [⟨⟨1, 0, none⟩, 128, iw [(49, 2), (35, 2)], 0x80004, 5#64⟩] }, by unfold Claim.vectorHead; decide +kernel⟩,
   ⟨1151, 0x80000, 1, 0, iw [(46, 2), (35, 2)], 5#64, [], (6, 0x80000, 0), lt { tRun with vec := [⟨⟨1, 0, none⟩, 129, iw [(46, 2), (35, 2)], 0x80000, 5#64⟩] }, by unfold Claim.vectorHead; decide +kernel⟩,
   ⟨1151, 0x80000, 1, 0, 0, iw [(46, 2), (35, 2)], 5#64, [], lt { tRun with vec := [⟨⟨1, 0, none⟩, 129, iw [(46, 2), (35, 2)], 0x80000, 5#64⟩], codeLo := 0x8000, vpois := [(128, true)] }, by unfold Claim.vectorHead; decide +kernel⟩⟩

theorem test_meets_EveryInstructionIsGated :
    (∃ (k : Nat) (t : Nat) (s : State), k < 72 ∧ (running s = false ∨ (tileOf s t).seq ≠ .running)) ∧
    (∃ (k : Nat) (t : Nat) (s : State), k < 72 ∧ running s = true ∧ (tileOf s t).seq = .running ∧ ((tileOf s t).pcOutside (tileOf s t).pc = true ∨ (Claim.gate k).words = 2 ∧ (tileOf s t).pcOutside ((tileOf s t).pc + 8) = true)) ∧
    (∃ (k : Nat) (t : Nat) (s : State), k < 72 ∧ running s = true ∧ (tileOf s t).seq = .running ∧ (tileOf s t).pcOutside (tileOf s t).pc = false ∧ ((Claim.gate k).words = 2 → (tileOf s t).pcOutside ((tileOf s t).pc + 8) = false) ∧ (((tileOf s t).fetched 0).2 = true ∨ (Claim.gate k).words = 2 ∧ ((tileOf s t).fetched 1).2 = true)) ∧
    (∃ (k : Nat) (t : Nat) (w1 : Word) (s : State), k < 72 ∧ Claim.canFetch s t (Claim.gate k).words = true ∧ Claim.paired (Claim.gate k) w1 = false) ∧
    (∃ (k : Nat) (t : Nat) (w : BitVec 56) (w1 : Word) (s : State), k < 72 ∧ Claim.canFetch s t (Claim.gate k).words = true ∧ Claim.paired (Claim.gate k) w1 = true ∧ (Claim.gate k).fields w w1 = false) ∧
    (∃ (k : Nat) (t : Nat) (w : BitVec 56) (w1 : Word) (s : State), k < 72 ∧ Claim.canFetch s t (Claim.gate k).words = true ∧ Claim.paired (Claim.gate k) w1 = true ∧ (Claim.gate k).fields w w1 = true ∧ Claim.ready (tileOf s t) w ((Claim.gate k).scalars w) ((Claim.gate k).predicates w) = false) ∧
    (∃ (k : Nat) (t : Nat) (w : BitVec 56) (w1 : Word) (s : State), k < 72 ∧ Claim.canFetch s t (Claim.gate k).words = true ∧ Claim.paired (Claim.gate k) w1 = true ∧ (Claim.gate k).fields w w1 = true ∧ Claim.ready (tileOf s t) w ((Claim.gate k).scalars w) ((Claim.gate k).predicates w) = true ∧ guardOf (tileOf s t) w = false) :=
  ⟨⟨0, 1151, lt { seq := .idle }, by decide +kernel⟩,
   ⟨0, 1151, lt { seq := .running }, by decide +kernel⟩,
   ⟨0, 1151, lt { tRun with poison := [(0x80000 / 8, true)] }, by decide +kernel⟩,
   ⟨45, 1151, 0#64, lt tRun, by decide +kernel⟩,
   ⟨0, 1151, 0xFFFFFFFFFFFFFF#56, dw [(56, 0xFF)], lt tRun, by decide +kernel⟩,
   ⟨0, 1151, iw [(52, 1)], dw [(56, 0xFF)], lt { tRun with move := [⟨⟨1, 0, none⟩, .push 1 5 0x82000 none⟩] }, by decide +kernel⟩,
   ⟨0, 1151, iw [(52, 1)], dw [(56, 0xFF)], lt tRun, by decide +kernel⟩⟩

theorem test_meets_DeferredWrites :
    (∃ (id : Nat), id < 4096) ∧
    (∃ (l : Nat), l < 256) ∧
    (∃ (id : Nat) (v : Word), id < 4096 ∧ bits v 47 10 * 1024 + bits v 59 48 * 0xC00 ≤ stackTop) ∧
    (∃ (id : Nat) (v : Word), id < 4096 ∧ stackTop < bits v 47 10 * 1024 + bits v 59 48 * 0xC00) :=
  ⟨⟨4095, by decide +kernel⟩,
   ⟨255, by decide +kernel⟩,
   ⟨4095, dw [(48, 1)], by decide +kernel⟩,
   ⟨4095, dw [(10, 0x17FFFFFE), (48, 1)], by decide +kernel⟩⟩

theorem test_meets_SegmentWrites :
    (∃ (k : Nat) (j : Nat) (s : State), k < 16 ∧ j < 4 ∧ bit (rget s (reg .SCHED_CTL)) 0 = true) ∧
    (∃ (k : Nat) (j : Nat) (s : State), k < 16 ∧ j < 4 ∧ bit (rget s (reg .SCHED_CTL)) 0 = false) :=
  ⟨⟨15, 3, withRegs [(reg .SCHED_CTL, 1#64)], by decide +kernel⟩,
   ⟨15, 3, withRegs [(reg .SCHED_CTL, 0#64)], by decide +kernel⟩⟩

theorem test_meets_StepAdvances :
    (∃ (s : State), s.blt.advWait.length < 16) ∧
    (∃ (s : State), s.blt.advWait.length = 16) ∧
    (∃ (c : Option CmdRef) (w : List (Option CmdRef)) (s : State), advanceReady s = true ∧ s.blt.advWait = c :: w ∧ (∀ r ∈ s.blt.reports, r.tid < 4096) ∧ (∀ e ∈ s.blt.hist, e.1 < 4096) ∧ (∀ e ∈ s.blt.evt, e.1 < 4096) ∧ SMap.wf ({} : Tile) s.tiles = true) ∧
    (∃ (s : State), advanceReady s = false) ∧
    (∃ (n : Nat) (b : BaseDie) (s : State), SMap.get ({} : BaseDie) s.bn n = b ∧ b.held = true) ∧
    (∃ (n : Nat) (s : State), (SMap.get ({} : BaseDie) s.bn n).held = false) :=
  ⟨⟨{ up with blt := { advWait := List.replicate 15 none } }, by decide +kernel⟩,
   ⟨{ up with blt := { advWait := List.replicate 16 none } }, by decide +kernel⟩,
   ⟨none, [], { up with blt := { advWait := [none], reports := [{ tid := 4095, amax := 0x3F800000#32, cnts := [0, 0, 0, 1024] }] } }, by decide +kernel⟩,
   ⟨up, by decide +kernel⟩,
   ⟨7, { held := true }, { up with bn := [(7, { held := true })] }, by decide +kernel⟩,
   ⟨7, up, by decide +kernel⟩⟩

theorem test_meets_GroupsFlip :
    (∃ (g : Nat) (s : State), g < 16 ∧ s.gate.frozen = false ∧ cgState s g = 1 ∧ (cgOf s g).internal = false ∧ groupWaits s g = false ∧ (cgOf s g).cmd = none ∧ ((cgOf s g).pages.map (fun e => e.1)).Nodup) ∧
    (∃ (g : Nat) (s : State), (s.gate.frozen = true ∨ cgState s g ≠ 1 ∨ (cgOf s g).internal = true ∨ groupWaits s g = true)) ∧
    (∃ (r : Nat) (x : Restore) (s : State), r < 32 ∧ s.gate.frozen = false ∧ s.restores = [x] ∧ x.r = r ∧ x.clear = true ∧ s.shadow = []) ∧
    (∃ (r : Nat) (x : Restore) (s : State), r < 32 ∧ s.gate.frozen = false ∧ s.restores = [x] ∧ x.r = r ∧ x.clear = false ∧ s.shadow = []) ∧
    (∃ (s : State), (s.gate.frozen = true ∨ s.restores = [])) :=
  ⟨⟨15, { withRegs [(reg .CG_STATE 15, dw [(0, 1), (32, 2)])] with groups := [(15, { pages := [(5, BitVec.allOnes 64)], regions := 1 })] }, by decide +kernel⟩,
   ⟨0, { gate := { st := .rigged, frozen := true } }, by decide +kernel⟩,
   ⟨31, { r := 31, cmd := cmd7, clear := true, base := 0x5000, twin := 0x9000, pages := 1 }, { up with restores := [{ r := 31, cmd := cmd7, clear := true, base := 0x5000, twin := 0x9000, pages := 1 }] }, by decide +kernel⟩,
   ⟨31, { r := 31, cmd := cmd7, clear := false, base := 0x5000, twin := 0x9000, pages := 1 }, { up with restores := [{ r := 31, cmd := cmd7, clear := false, base := 0x5000, twin := 0x9000, pages := 1 }] }, by decide +kernel⟩,
   ⟨up, by decide +kernel⟩⟩

theorem test_meets_StackRequests :
    (∃ (dpa : Nat) (len : Nat) (s : State), stkWaits s dpa len = false ∧ (linesOf dpa len).all (fun l => stkPresent s l) = true ∧ s.stk.flips = []) ∧
    (∃ (dpa : Nat) (p : Nat) (k : Nat) (errs : List (Nat × Nat)) (s : State), stkWaits s dpa 64 = false ∧ dpa % 64 = 0 ∧ stkPresent s dpa = true ∧ s.stk.flips = [] ∧ p = physOf s (backing s false dpa) ∧ serveStack s p < 8 ∧ placeLost s p = false ∧ k = lineErrs (errs.foldl (fun s e => hitLine (p / 64) e.1 e.2 s) s) (p / 64) ∧ 1 ≤ k ∧ k ≤ 2 ∧ combOf s (p / 64) = none ∧ SMap.get false s.stk.poison (p / 64) = false ∧ assist s 8 = false) ∧
    (∃ (dpa : Nat) (p : Nat) (k : Nat) (errs : List (Nat × Nat)) (s : State), stkWaits s dpa 64 = false ∧ dpa % 64 = 0 ∧ stkPresent s dpa = true ∧ s.stk.flips = [] ∧ p = physOf s (backing s false dpa) ∧ serveStack s p < 8 ∧ placeLost s p = false ∧ k = lineErrs (errs.foldl (fun s e => hitLine (p / 64) e.1 e.2 s) s) (p / 64) ∧ 3 ≤ k ∧ k ≤ 4 ∧ assist s 8 = false) ∧
    (∃ (dpa : Nat) (len : Nat) (s : State), stkWaits s dpa len = false ∧ (linesOf dpa len).all (fun l => stkPresent s l) = false) ∧
    (∃ (dpa : Nat) (data : List Byte) (s : State), stkWaits s dpa data.length = false ∧ dpa < stackTop ∧ 0 < data.length ∧ dpa % 64 + data.length ≤ 64 ∧ stkPresent s dpa = true ∧ placeLost s (physOf s (backing s false dpa)) = false ∧ s.stk.flips = []) ∧
    (∃ (dpa : Nat) (data : List Byte) (s : State), stkWaits s dpa data.length = false ∧ stackTop ≤ dpa) ∧
    (∃ (dpa : Nat) (len : Nat) (s : State), stkWaits s dpa len = true) ∧
    (∃ (dpa : Nat) (data : List Byte) (s : State), stkWaits s dpa data.length = true) :=
  ⟨⟨0x5FFFFFFFC0, 64, up, by decide +kernel⟩,
   ⟨0x5FFFFFFFC0, physOf up ((0x5FFFFFFFC0)), lineErrs ((([(35, 0x101)]) : List (Nat × Nat)).foldl (fun s e => hitLine (((physOf up ((0x5FFFFFFFC0)))) / 64) e.1 e.2 s) ((up))) (((physOf up ((0x5FFFFFFFC0)))) / 64), [(35, 0x101)], up, by decide +kernel⟩,
   ⟨0x5FFFFFFFC0, physOf up ((0x5FFFFFFFC0)), lineErrs ((([(35, 0x101), (0, 0x8000)]) : List (Nat × Nat)).foldl (fun s e => hitLine (((physOf up ((0x5FFFFFFFC0)))) / 64) e.1 e.2 s) ((up))) (((physOf up ((0x5FFFFFFFC0)))) / 64), [(35, 0x101), (0, 0x8000)], up, by decide +kernel⟩,
   ⟨0x6000000000, 8, up, by decide +kernel⟩,
   ⟨0x5FFFFFFFFF, [0xAB#8], up, by decide +kernel⟩,
   ⟨0x6000000000, [], up, by decide +kernel⟩,
   ⟨0, 64, withRegs ((List.range 8).map (fun n => (reg .STK_TEMP n, 0x300#64))), by decide +kernel⟩,
   ⟨0, [1#8], withRegs ((List.range 8).map (fun n => (reg .STK_TEMP n, 0x300#64))), by decide +kernel⟩⟩

theorem test_meets_StackUpkeep :
    (∃ (n : Nat) (e : Comb) (es : List Comb) (s : State), Claim.works s n = true ∧ s.stk.wcb = e :: es ∧ es.all (fun x => x.line != e.line) = true ∧ serveStack s (e.line * 64) = n ∧ s.stk.flips = [] ∧ s.stk.rows = [] ∧ SMap.get false s.stk.poison e.line = false ∧ e.pois = 0#64 ∧ e.use < 8) ∧
    (∃ (n : Nat) (s : State), (stackCritical s n = true ∨ stackLost s n = true ∨ s.stk.wcb = [])) ∧
    (∃ (n : Nat) (pc : Nat) (s : State), Claim.works s n = true ∧ pc < 64) ∧
    (∃ (n : Nat) (s : State), Claim.works s n = false) ∧
    (∃ (n : Nat) (s : State), Claim.works s n = true ∧ s.stk.flips = [] ∧ s.stk.poison = [] ∧ s.stk.wcb = []) ∧
    (∃ (n : Nat) (dpa : Nat) (wire : Nat) (beats : Nat) (k : Nat) (s : State), Claim.works s n = true ∧ s.stk.flips = [] ∧ s.stk.poison = [] ∧ s.stk.wcb = [] ∧ dpa < stackTop ∧ serveStack s (physOf s dpa) = n ∧ k = lineErrs (hitLine (physOf s dpa / 64) wire beats s) (physOf s dpa / 64) ∧ 1 ≤ k ∧ k ≤ 2 ∧ assist s 8 = false) ∧
    (∃ (n : Nat), n < 8) ∧
    (∃ (c : Nat), c < 4) :=
  ⟨⟨7, { line := 5637144576, mask := 0xFF#64 }, [], { up with stk := { wcb := [({ line := 5637144576, mask := 0xFF#64 })] } }, by decide +kernel⟩,
   ⟨7, withRegs ((List.range 8).map (fun n => (reg .STK_TEMP n, 0x300#64))), by decide +kernel⟩,
   ⟨7, 63, up, by decide +kernel⟩,
   ⟨8, up, by decide +kernel⟩,
   ⟨7, up, by decide +kernel⟩,
   ⟨7, 0x700, 5, 1, lineErrs (hitLine (physOf up 0x700 / 64) 5 1 up) (physOf up 0x700 / 64), up, by decide +kernel⟩,
   ⟨7, by decide +kernel⟩,
   ⟨0, by decide +kernel⟩⟩

theorem test_meets_StackRepairs_1 :
    (∃ (n : Nat) (pc : Nat) (bank : Nat) (row : Nat) (i : Nat) (k : Nat) (s : State), Claim.works s n = true ∧ pc < 64 ∧ bank < 16 ∧ row < 0x10000 ∧ assist s 8 = false ∧ k = rowKey (n * 64 + pc) bank row ∧ repairKind s k = 1 ∧ rowFails s (fun x => x == k) = true ∧ freeSpareRow (Claim.spareGivenUp s k) (keyBank k) = some i ∧ s.cox.proposals.all (fun p => !p.decided) = true ∧ s.stk.flips = [] ∧ s.stk.poison = []) ∧
    (∃ (n : Nat) (pc : Nat) (bank : Nat) (row : Nat) (s : State), (Claim.works s n = false ∨ rowFails s (fun x => x == rowKey (n * 64 + pc) bank row) = false ∨ repairKind s (rowKey (n * 64 + pc) bank row) ≠ 1)) ∧
    (∃ (n : Nat) (pc : Nat) (page : Nat) (g : Nat) (repl : Nat) (s : State), Claim.works s n = true ∧ pc < 64 ∧ page < 196608 ∧ assist s 8 = false ∧ s.stk.rows.any (fun r => r.failing && rowInPage (n * 64 + pc) page r.row && repairKind s r.row == 2) = true ∧ freeSlot s = some g ∧ sparePage s (n * 64 + pc) = some repl ∧ committingAt s (fun q => q / 4096 == (n * 64 + pc) * 196608 + page) = false ∧ s.cox.proposals.all (fun p => !p.decided) = true ∧ s.stk.flips = [] ∧ s.stk.poison = []) ∧
    (∃ (n : Nat) (pc : Nat) (page : Nat) (s : State), (Claim.works s n = false ∨ freeSlot s = none ∨ s.stk.rows.any (fun r => r.failing && rowInPage (n * 64 + pc) page r.row && repairKind s r.row == 2) = false)) ∧
    (∃ (n : Nat) (pc : Nat) (g : Nat) (s : State), Claim.works s n = true ∧ pc < 64 ∧ assist s 8 = false ∧ s.stk.rows.any (fun r => r.failing && keyChan r.row == n * 64 + pc && repairKind s r.row == 3) = true ∧ freeSlot s = some g ∧ committingAt s (fun q => physChan q == n * 64 + pc) = false ∧ s.cox.proposals.all (fun p => !p.decided) = true ∧ s.stk.flips = [] ∧ s.stk.poison = []) ∧
    (∃ (n : Nat) (pc : Nat) (s : State), (Claim.works s n = false ∨ freeSlot s = none ∨ s.stk.rows.any (fun r => r.failing && keyChan r.row == n * 64 + pc && repairKind s r.row == 3) = false)) ∧
    (∃ (n : Nat) (s : State), n < 8 ∧ stackLost s n = false ∧ (∀ g, g < 16 → (cgOf s g).pages.any (pageInStack s n) = false)) ∧
    (∃ (n : Nat) (g : Nat) (s : State), n < 8 ∧ g < 16 ∧ stackLost s n = false ∧ (∀ h, h < 16 → cgState s h ≠ 1) ∧ cgState s g = 0 ∧ (cgOf s g).pages.any (pageInStack s n) = true) :=
  ⟨⟨7, 63, 15, 0xBFFF, 0, rowKey (7 * 64 + 63) 15 0xBFFF, { up with stk := { rows := [{ row := rowKey (7 * 64 + 63) 15 0xBFFF, failing := true }] } }, by decide +kernel⟩,
   ⟨8, 0, 0, 0, up, by decide +kernel⟩,
   ⟨7, 63, 0xBFF * 4 + 3, 0, 196607, { up with stk := { badSpare := (List.range 4).map (fun i => (((7 * 64 + 63) * 16 + 15) * 4 + i, true)), rows := [{ row := rowKey (7 * 64 + 63) 15 0xBFF, failing := true }] } }, by decide +kernel⟩,
   ⟨8, 0, 0, up, by decide +kernel⟩,
   ⟨7, 63, 0, { up with stk := { badSpare := (List.range 4).map (fun i => (((7 * 64 + 63) * 16 + 15) * 4 + i, true)), pages := [(7 * 64 + 63, 64)], rows := [{ row := rowKey (7 * 64 + 63) 15 0xBFFF, failing := true }] } }, by decide +kernel⟩,
   ⟨8, 0, up, by decide +kernel⟩,
   ⟨7, up, by decide +kernel⟩,
   ⟨7, 15, { withRegs [(reg .CG_STATE 15, 0#64)] with groups := [(15, { pages := [(5, BitVec.allOnes 64)], regions := 1 })] }, by decide +kernel⟩⟩

theorem test_meets_StackRepairs_2 :
    ∃ (n : Nat) (s : State), (8 ≤ n ∨ stackLost s n = true) :=
  ⟨8, up, by decide +kernel⟩

theorem test_meets_EngineArithmetic_1 :
    (∃ (n : Nat) (e : Nat) (p : Pass) (rest : List Pass) (j : Job) (w : BitVec 32) (s : State), Claim.engineAt s n e p rest j w ∧ iOp w = 0x01) ∧
    (∃ (n : Nat) (e : Nat) (p : Pass) (rest : List Pass) (j : Job) (w : BitVec 32) (s : State), Claim.engineAt s n e p rest j w ∧ iOp w = 0x02) ∧
    (∃ (n : Nat) (e : Nat) (p : Pass) (rest : List Pass) (j : Job) (w : BitVec 32) (s : State), Claim.engineAt s n e p rest j w ∧ iOp w = 0x03) ∧
    (∃ (n : Nat) (e : Nat) (p : Pass) (rest : List Pass) (j : Job) (w : BitVec 32) (s : State), Claim.engineAt s n e p rest j w ∧ iOp w = 0x04) ∧
    (∃ (n : Nat) (e : Nat) (p : Pass) (rest : List Pass) (j : Job) (w : BitVec 32) (s : State), Claim.engineAt s n e p rest j w ∧ iOp w = 0x05) ∧
    (∃ (n : Nat) (e : Nat) (p : Pass) (rest : List Pass) (j : Job) (w : BitVec 32) (s : State), Claim.engineAt s n e p rest j w ∧ iOp w = 0x06) ∧
    (∃ (n : Nat) (e : Nat) (p : Pass) (rest : List Pass) (j : Job) (w : BitVec 32) (s : State), Claim.engineAt s n e p rest j w ∧ iOp w = 0x07) ∧
    (∃ (n : Nat) (e : Nat) (p : Pass) (rest : List Pass) (j : Job) (w : BitVec 32) (s : State), Claim.engineAt s n e p rest j w ∧ iOp w = 0x08) :=
  ⟨⟨7, 7, pRun, [], jRun, BitVec.ofNat 32 (0x01 * 2 ^ 26 + 3 * 2 ^ 22 + 1 * 2 ^ 18 + 2 * 2 ^ 14 + 4 * 2 ^ 9), engAt ((jRun)) ((pRun)) ((BitVec.ofNat 32 (0x01 * 2 ^ 26 + 3 * 2 ^ 22 + 1 * 2 ^ 18 + 2 * 2 ^ 14 + 4 * 2 ^ 9))), by unfold Claim.engineAt; decide +kernel⟩,
   ⟨7, 7, pRun, [], jRun, BitVec.ofNat 32 (0x02 * 2 ^ 26 + 3 * 2 ^ 22 + 1 * 2 ^ 18 + 2 * 2 ^ 14 + 4 * 2 ^ 9), engAt ((jRun)) ((pRun)) ((BitVec.ofNat 32 (0x02 * 2 ^ 26 + 3 * 2 ^ 22 + 1 * 2 ^ 18 + 2 * 2 ^ 14 + 4 * 2 ^ 9))), by unfold Claim.engineAt; decide +kernel⟩,
   ⟨7, 7, pRun, [], jRun, BitVec.ofNat 32 (0x03 * 2 ^ 26 + 3 * 2 ^ 22 + 1 * 2 ^ 18 + 2 * 2 ^ 14 + 4 * 2 ^ 9), engAt ((jRun)) ((pRun)) ((BitVec.ofNat 32 (0x03 * 2 ^ 26 + 3 * 2 ^ 22 + 1 * 2 ^ 18 + 2 * 2 ^ 14 + 4 * 2 ^ 9))), by unfold Claim.engineAt; decide +kernel⟩,
   ⟨7, 7, pRun, [], jRun, BitVec.ofNat 32 (0x04 * 2 ^ 26 + 3 * 2 ^ 22 + 1 * 2 ^ 18 + 2 * 2 ^ 14 + 4 * 2 ^ 9), engAt ((jRun)) ((pRun)) ((BitVec.ofNat 32 (0x04 * 2 ^ 26 + 3 * 2 ^ 22 + 1 * 2 ^ 18 + 2 * 2 ^ 14 + 4 * 2 ^ 9))), by unfold Claim.engineAt; decide +kernel⟩,
   ⟨7, 7, pRun, [], jRun, BitVec.ofNat 32 (0x05 * 2 ^ 26 + 3 * 2 ^ 22 + 1 * 2 ^ 18 + 2 * 2 ^ 14 + 4 * 2 ^ 9), engAt ((jRun)) ((pRun)) ((BitVec.ofNat 32 (0x05 * 2 ^ 26 + 3 * 2 ^ 22 + 1 * 2 ^ 18 + 2 * 2 ^ 14 + 4 * 2 ^ 9))), by unfold Claim.engineAt; decide +kernel⟩,
   ⟨7, 7, pRun, [], jRun, BitVec.ofNat 32 (0x06 * 2 ^ 26 + 3 * 2 ^ 22 + 1 * 2 ^ 18 + 2 * 2 ^ 14 + 4 * 2 ^ 9), engAt ((jRun)) ((pRun)) ((BitVec.ofNat 32 (0x06 * 2 ^ 26 + 3 * 2 ^ 22 + 1 * 2 ^ 18 + 2 * 2 ^ 14 + 4 * 2 ^ 9))), by unfold Claim.engineAt; decide +kernel⟩,
   ⟨7, 7, pRun, [], jRun, BitVec.ofNat 32 (0x07 * 2 ^ 26 + 3 * 2 ^ 22 + 1 * 2 ^ 18 + 2 * 2 ^ 14 + 4 * 2 ^ 9), engAt ((jRun)) ((pRun)) ((BitVec.ofNat 32 (0x07 * 2 ^ 26 + 3 * 2 ^ 22 + 1 * 2 ^ 18 + 2 * 2 ^ 14 + 4 * 2 ^ 9))), by unfold Claim.engineAt; decide +kernel⟩,
   ⟨7, 7, pRun, [], jRun, BitVec.ofNat 32 (0x08 * 2 ^ 26 + 3 * 2 ^ 22 + 1 * 2 ^ 18 + 2 * 2 ^ 14 + 4 * 2 ^ 9), engAt ((jRun)) ((pRun)) ((BitVec.ofNat 32 (0x08 * 2 ^ 26 + 3 * 2 ^ 22 + 1 * 2 ^ 18 + 2 * 2 ^ 14 + 4 * 2 ^ 9))), by unfold Claim.engineAt; decide +kernel⟩⟩

theorem test_meets_EngineArithmetic_2 :
    (∃ (n : Nat) (e : Nat) (p : Pass) (rest : List Pass) (j : Job) (w : BitVec 32) (s : State), Claim.engineAt s n e p rest j w ∧ iOp w = 0x09) ∧
    (∃ (n : Nat) (e : Nat) (p : Pass) (rest : List Pass) (j : Job) (w : BitVec 32) (s : State), Claim.engineAt s n e p rest j w ∧ iOp w = 0x0A) ∧
    (∃ (n : Nat) (e : Nat) (p : Pass) (rest : List Pass) (j : Job) (w : BitVec 32) (s : State), Claim.engineAt s n e p rest j w ∧ iOp w = 0x0B) ∧
    (∃ (n : Nat) (e : Nat) (p : Pass) (rest : List Pass) (j : Job) (w : BitVec 32) (s : State), Claim.engineAt s n e p rest j w ∧ iOp w = 0x0C) ∧
    (∃ (n : Nat) (e : Nat) (p : Pass) (rest : List Pass) (j : Job) (w : BitVec 32) (s : State), Claim.engineAt s n e p rest j w ∧ iOp w = 0x0D) ∧
    (∃ (n : Nat) (e : Nat) (p : Pass) (rest : List Pass) (j : Job) (w : BitVec 32) (s : State), Claim.engineAt s n e p rest j w ∧ iOp w = 0x0E) ∧
    (∃ (n : Nat) (e : Nat) (p : Pass) (rest : List Pass) (j : Job) (w : BitVec 32) (s : State), Claim.engineAt s n e p rest j w ∧ iOp w = 0x0F) ∧
    (∃ (n : Nat) (e : Nat) (p : Pass) (rest : List Pass) (j : Job) (w : BitVec 32) (s : State), Claim.engineAt s n e p rest j w ∧ iOp w = 0x10) :=
  ⟨⟨7, 7, pRun, [], jRun, BitVec.ofNat 32 (0x09 * 2 ^ 26 + 3 * 2 ^ 22 + 1 * 2 ^ 18 + 2 * 2 ^ 14 + 4 * 2 ^ 9), engAt ((jRun)) ((pRun)) ((BitVec.ofNat 32 (0x09 * 2 ^ 26 + 3 * 2 ^ 22 + 1 * 2 ^ 18 + 2 * 2 ^ 14 + 4 * 2 ^ 9))), by unfold Claim.engineAt; decide +kernel⟩,
   ⟨7, 7, pRun, [], jRun, BitVec.ofNat 32 (0x0A * 2 ^ 26 + 3 * 2 ^ 22 + 1 * 2 ^ 18 + 2 * 2 ^ 14 + 4 * 2 ^ 9), engAt ((jRun)) ((pRun)) ((BitVec.ofNat 32 (0x0A * 2 ^ 26 + 3 * 2 ^ 22 + 1 * 2 ^ 18 + 2 * 2 ^ 14 + 4 * 2 ^ 9))), by unfold Claim.engineAt; decide +kernel⟩,
   ⟨7, 7, pRun, [], jRun, BitVec.ofNat 32 (0x0B * 2 ^ 26 + 3 * 2 ^ 22 + 1 * 2 ^ 18 + 2 * 2 ^ 14 + 4 * 2 ^ 9), engAt ((jRun)) ((pRun)) ((BitVec.ofNat 32 (0x0B * 2 ^ 26 + 3 * 2 ^ 22 + 1 * 2 ^ 18 + 2 * 2 ^ 14 + 4 * 2 ^ 9))), by unfold Claim.engineAt; decide +kernel⟩,
   ⟨7, 7, pRun, [], jRun, BitVec.ofNat 32 (0x0C * 2 ^ 26 + 3 * 2 ^ 22 + 1 * 2 ^ 18 + 2 * 2 ^ 14 + 4 * 2 ^ 9), engAt ((jRun)) ((pRun)) ((BitVec.ofNat 32 (0x0C * 2 ^ 26 + 3 * 2 ^ 22 + 1 * 2 ^ 18 + 2 * 2 ^ 14 + 4 * 2 ^ 9))), by unfold Claim.engineAt; decide +kernel⟩,
   ⟨7, 7, pRun, [], jRun, BitVec.ofNat 32 (0x0D * 2 ^ 26 + 3 * 2 ^ 22 + 1 * 2 ^ 18 + 2 * 2 ^ 14 + 4 * 2 ^ 9), engAt ((jRun)) ((pRun)) ((BitVec.ofNat 32 (0x0D * 2 ^ 26 + 3 * 2 ^ 22 + 1 * 2 ^ 18 + 2 * 2 ^ 14 + 4 * 2 ^ 9))), by unfold Claim.engineAt; decide +kernel⟩,
   ⟨7, 7, pRun, [], jRun, BitVec.ofNat 32 (0x0E * 2 ^ 26 + 3 * 2 ^ 22 + 1 * 2 ^ 18 + 2 * 2 ^ 14 + 4 * 2 ^ 9), engAt ((jRun)) ((pRun)) ((BitVec.ofNat 32 (0x0E * 2 ^ 26 + 3 * 2 ^ 22 + 1 * 2 ^ 18 + 2 * 2 ^ 14 + 4 * 2 ^ 9))), by unfold Claim.engineAt; decide +kernel⟩,
   ⟨7, 7, pRun, [], jRun, BitVec.ofNat 32 (0x0F * 2 ^ 26 + 3 * 2 ^ 22 + 1 * 2 ^ 18 + 2 * 2 ^ 14 + 4 * 2 ^ 9), engAt ((jRun)) ((pRun)) ((BitVec.ofNat 32 (0x0F * 2 ^ 26 + 3 * 2 ^ 22 + 1 * 2 ^ 18 + 2 * 2 ^ 14 + 4 * 2 ^ 9))), by unfold Claim.engineAt; decide +kernel⟩,
   ⟨7, 7, pRun, [], jRun, BitVec.ofNat 32 (0x10 * 2 ^ 26 + 3 * 2 ^ 22 + 1 * 2 ^ 18 + 2 * 2 ^ 14 + 4 * 2 ^ 9), engAt ((jRun)) ((pRun)) ((BitVec.ofNat 32 (0x10 * 2 ^ 26 + 3 * 2 ^ 22 + 1 * 2 ^ 18 + 2 * 2 ^ 14 + 4 * 2 ^ 9))), by unfold Claim.engineAt; decide +kernel⟩⟩

theorem test_meets_EngineArithmetic_3 :
    (∃ (n : Nat) (e : Nat) (p : Pass) (rest : List Pass) (j : Job) (w : BitVec 32) (s : State), Claim.engineAt s n e p rest j w ∧ iOp w = 0x11) ∧
    (∃ (n : Nat) (e : Nat) (p : Pass) (rest : List Pass) (j : Job) (w : BitVec 32) (s : State), Claim.engineAt s n e p rest j w ∧ iOp w = 0x12) ∧
    (∃ (n : Nat) (e : Nat) (p : Pass) (rest : List Pass) (j : Job) (w : BitVec 32) (s : State), Claim.engineAt s n e p rest j w ∧ iOp w = 0x00) ∧
    (∃ (k : Nat) (n : Nat) (e : Nat) (s : State), k < 28 ∧ (running s = false ∨ stackCritical s n = true ∨ passesOf s n e = [] ∨ (match (bdOf s n).jobs.find? (fun j => j.no == (passOf s n e).job) with | none => true | some j => iOp (SMap.get 0#32 (bdOf s n).prog (j.start + (passOf s n e).pcw)) != (Claim.engineOp k).1) = true)) :=
  ⟨⟨7, 7, pRun, [], jRun, BitVec.ofNat 32 (0x11 * 2 ^ 26 + 3 * 2 ^ 22 + 1 * 2 ^ 18 + 2 * 2 ^ 14 + 4 * 2 ^ 9), engAt ((jRun)) ((pRun)) ((BitVec.ofNat 32 (0x11 * 2 ^ 26 + 3 * 2 ^ 22 + 1 * 2 ^ 18 + 2 * 2 ^ 14 + 4 * 2 ^ 9))), by unfold Claim.engineAt; decide +kernel⟩,
   ⟨7, 7, pRun, [], jRun, BitVec.ofNat 32 (0x12 * 2 ^ 26 + 3 * 2 ^ 22 + 1 * 2 ^ 18 + 2 * 2 ^ 14 + 4 * 2 ^ 9), engAt ((jRun)) ((pRun)) ((BitVec.ofNat 32 (0x12 * 2 ^ 26 + 3 * 2 ^ 22 + 1 * 2 ^ 18 + 2 * 2 ^ 14 + 4 * 2 ^ 9))), by unfold Claim.engineAt; decide +kernel⟩,
   ⟨7, 7, pRun, [], jRun, BitVec.ofNat 32 (0x00 * 2 ^ 26 + 3 * 2 ^ 22 + 1 * 2 ^ 18 + 2 * 2 ^ 14 + 4 * 2 ^ 9), engAt ((jRun)) ((pRun)) ((BitVec.ofNat 32 (0x00 * 2 ^ 26 + 3 * 2 ^ 22 + 1 * 2 ^ 18 + 2 * 2 ^ 14 + 4 * 2 ^ 9))), by unfold Claim.engineAt; decide +kernel⟩,
   ⟨0, 7, 7, up, by decide +kernel⟩⟩

theorem test_meets_EngineLoads :
    (∃ (n : Nat) (e : Nat) (p : Pass) (rest : List Pass) (j : Job) (w : BitVec 32) (s : State), Claim.engineAt s n e p rest j w ∧ iOp w = 0x21 ∧ s.stk.flips = []) ∧
    (∃ (n : Nat) (e : Nat) (p : Pass) (rest : List Pass) (j : Job) (w : BitVec 32) (s : State), Claim.engineAt s n e p rest j w ∧ iOp w = 0x23 ∧ s.stk.flips = []) ∧
    (∃ (n : Nat) (e : Nat) (p : Pass) (rest : List Pass) (j : Job) (w : BitVec 32) (s : State), Claim.engineAt s n e p rest j w ∧ iOp w = 0x22 ∧ s.stk.flips = []) ∧
    (∃ (n : Nat) (e : Nat) (p : Pass) (rest : List Pass) (j : Job) (w : BitVec 32) (s : State), Claim.engineAt s n e p rest j w ∧ iOp w = 0x20 ∧ s.stk.flips = [] ∧ j.gArr = 0) ∧
    (∃ (n : Nat) (e : Nat) (p : Pass) (rest : List Pass) (j : Job) (w : BitVec 32) (s : State), Claim.engineAt s n e p rest j w ∧ iOp w = 0x20 ∧ s.stk.flips = [] ∧ j.gArr ≠ 0) :=
  ⟨⟨7, 7, pRun, [], jRun, BitVec.ofNat 32 (0x21 * 2 ^ 26 + 3 * 2 ^ 22 + 1 * 2 ^ 18 + 2 * 2 ^ 14 + 4 * 2 ^ 9), engAt ((jRun)) ((pRun)) ((BitVec.ofNat 32 (0x21 * 2 ^ 26 + 3 * 2 ^ 22 + 1 * 2 ^ 18 + 2 * 2 ^ 14 + 4 * 2 ^ 9))), by unfold Claim.engineAt; decide +kernel⟩,
   ⟨7, 7, pRun, [], jRun, BitVec.ofNat 32 (0x23 * 2 ^ 26 + 3 * 2 ^ 22 + 1 * 2 ^ 18 + 2 * 2 ^ 14 + 4 * 2 ^ 9), engAt ((jRun)) ((pRun)) ((BitVec.ofNat 32 (0x23 * 2 ^ 26 + 3 * 2 ^ 22 + 1 * 2 ^ 18 + 2 * 2 ^ 14 + 4 * 2 ^ 9))), by unfold Claim.engineAt; decide +kernel⟩,
   ⟨7, 7, pRun, [], jRun, BitVec.ofNat 32 (0x22 * 2 ^ 26 + 3 * 2 ^ 22 + 1 * 2 ^ 18 + 2 * 2 ^ 14 + 4 * 2 ^ 9), engAt ((jRun)) ((pRun)) ((BitVec.ofNat 32 (0x22 * 2 ^ 26 + 3 * 2 ^ 22 + 1 * 2 ^ 18 + 2 * 2 ^ 14 + 4 * 2 ^ 9))), by unfold Claim.engineAt; decide +kernel⟩,
   ⟨7, 7, pRun, [], jRun, BitVec.ofNat 32 (0x20 * 2 ^ 26 + 3 * 2 ^ 22 + 1 * 2 ^ 18 + 2 * 2 ^ 14 + 4 * 2 ^ 9), engAt ((jRun)) ((pRun)) ((BitVec.ofNat 32 (0x20 * 2 ^ 26 + 3 * 2 ^ 22 + 1 * 2 ^ 18 + 2 * 2 ^ 14 + 4 * 2 ^ 9))), by unfold Claim.engineAt; decide +kernel⟩,
   ⟨7, 7, pRun, [], { jRun with rec_ := jrec 0xFFFF (16) }, BitVec.ofNat 32 (0x20 * 2 ^ 26 + 3 * 2 ^ 22 + 1 * 2 ^ 18 + 2 * 2 ^ 14 + 4 * 2 ^ 9), engAt (({ jRun with rec_ := jrec 0xFFFF (16) })) ((pRun)) ((BitVec.ofNat 32 (0x20 * 2 ^ 26 + 3 * 2 ^ 22 + 1 * 2 ^ 18 + 2 * 2 ^ 14 + 4 * 2 ^ 9))), by unfold Claim.engineAt; decide +kernel⟩⟩

theorem test_meets_EngineStores :
    (∃ (n : Nat) (e : Nat) (p : Pass) (rest : List Pass) (j : Job) (w : BitVec 32) (s : State), Claim.engineAt s n e p rest j w ∧ iOp w = 0x28) ∧
    (∃ (n : Nat) (e : Nat) (p : Pass) (rest : List Pass) (j : Job) (w : BitVec 32) (s : State), Claim.engineAt s n e p rest j w ∧ iOp w = 0x2B) ∧
    (∃ (n : Nat) (e : Nat) (p : Pass) (rest : List Pass) (j : Job) (w : BitVec 32) (sc : Nat → Nat) (s : State), Claim.engineAt s n e p rest j w ∧ iOp w = 0x29 ∧ (∀ k, sc k = momentScale (magMax ((((List.range 32).map (fun m => p.lane (iA w) (32 * k + m))).filter (fun v => (f32 v).isFin)).map (fun v => numMag (f32 v).abs))))) ∧
    (∃ (n : Nat) (e : Nat) (p : Pass) (rest : List Pass) (j : Job) (w : BitVec 32) (us : Nat → List Unit7) (s : State), Claim.engineAt s n e p rest j w ∧ iOp w = 0x2A ∧ (∀ k, us k = (chunks (if j.cArr = 1 then 16 else 32) ((List.range 32).map (fun i => f32 (p.lane (iA w) (32 * k + i))))).map (copyBlock j.cFmt j.cArr (if takesScale j.cFmt j.cArr then some j.scale else none)))) :=
  ⟨⟨7, 7, pRun, [], jRun, BitVec.ofNat 32 (0x28 * 2 ^ 26 + 3 * 2 ^ 22 + 1 * 2 ^ 18 + 2 * 2 ^ 14 + 4 * 2 ^ 9), engAt ((jRun)) ((pRun)) ((BitVec.ofNat 32 (0x28 * 2 ^ 26 + 3 * 2 ^ 22 + 1 * 2 ^ 18 + 2 * 2 ^ 14 + 4 * 2 ^ 9))), by unfold Claim.engineAt; decide +kernel⟩,
   ⟨7, 7, pRun, [], jRun, BitVec.ofNat 32 (0x2B * 2 ^ 26 + 3 * 2 ^ 22 + 1 * 2 ^ 18 + 2 * 2 ^ 14 + 4 * 2 ^ 9), engAt ((jRun)) ((pRun)) ((BitVec.ofNat 32 (0x2B * 2 ^ 26 + 3 * 2 ^ 22 + 1 * 2 ^ 18 + 2 * 2 ^ 14 + 4 * 2 ^ 9))), by unfold Claim.engineAt; decide +kernel⟩,
   ⟨7, 7, pRun, [], jRun, BitVec.ofNat 32 (0x29 * 2 ^ 26 + 3 * 2 ^ 22 + 1 * 2 ^ 18 + 2 * 2 ^ 14 + 4 * 2 ^ 9), (fun k => momentScale (magMax ((((List.range 32).map (fun m => ((pRun) : Pass).lane (iA ((BitVec.ofNat 32 (0x29 * 2 ^ 26 + 3 * 2 ^ 22 + 1 * 2 ^ 18 + 2 * 2 ^ 14 + 4 * 2 ^ 9)))) (32 * k + m))).filter (fun v => (f32 v).isFin)).map (fun v => numMag (f32 v).abs)))), engAt ((jRun)) ((pRun)) ((BitVec.ofNat 32 (0x29 * 2 ^ 26 + 3 * 2 ^ 22 + 1 * 2 ^ 18 + 2 * 2 ^ 14 + 4 * 2 ^ 9))), by refine ⟨?_, ?_, fun _ => rfl⟩ <;> first | decide +kernel | (unfold Claim.engineAt; decide +kernel)⟩,
   ⟨7, 7, pRun, [], jRun, BitVec.ofNat 32 (0x2A * 2 ^ 26 + 3 * 2 ^ 22 + 1 * 2 ^ 18 + 2 * 2 ^ 14 + 4 * 2 ^ 9), (fun k => (chunks (if ((jRun) : Job).cArr = 1 then 16 else 32) ((List.range 32).map (fun i => f32 (((pRun) : Pass).lane (iA ((BitVec.ofNat 32 (0x2A * 2 ^ 26 + 3 * 2 ^ 22 + 1 * 2 ^ 18 + 2 * 2 ^ 14 + 4 * 2 ^ 9)))) (32 * k + i))))).map (copyBlock ((jRun) : Job).cFmt ((jRun) : Job).cArr (if takesScale ((jRun) : Job).cFmt ((jRun) : Job).cArr then some ((jRun) : Job).scale else none))), engAt ((jRun)) ((pRun)) ((BitVec.ofNat 32 (0x2A * 2 ^ 26 + 3 * 2 ^ 22 + 1 * 2 ^ 18 + 2 * 2 ^ 14 + 4 * 2 ^ 9))), by refine ⟨?_, ?_, fun _ => rfl⟩ <;> first | decide +kernel | (unfold Claim.engineAt; decide +kernel)⟩⟩

theorem test_meets_PassesEnd :
    (∃ (n : Nat) (e : Nat) (p : Pass) (rest : List Pass) (j : Job) (w : BitVec 32) (s : State), Claim.engineAt s n e p rest j w ∧ iOp w = 0x3F ∧ p.poisonAt = none ∧ p.disagree = false ∧ n < 8 ∧ p.repeats = 0) ∧
    (∃ (n : Nat) (e : Nat) (a : Nat) (p : Pass) (rest : List Pass) (j : Job) (w : BitVec 32) (s : State), Claim.engineAt s n e p rest j w ∧ iOp w = 0x3F ∧ p.poisonAt = none ∧ p.disagree = false ∧ p.repeats = 0 ∧ p.pres0 = true ∧ p.pres1 = false ∧ p.snap = [] ∧ a = hdrAt j p.no 0 ∧ a % 8 = 0 ∧ stkPresent s a = true ∧ placeLost s (physOf s (backing s false a)) = false ∧ s.stk.flips = []) ∧
    (∃ (n : Nat) (e : Nat) (p : Pass) (rest : List Pass) (j : Job) (w : BitVec 32) (s : State), Claim.engineAt s n e p rest j w ∧ iOp w = 0x3F ∧ p.poisonAt = none ∧ p.disagree = false ∧ n < 8 ∧ p.repeats ≠ 0 ∧ p.firstEng < 8) ∧
    (∃ (n : Nat) (e : Nat) (a : Nat) (p : Pass) (rest : List Pass) (j : Job) (w : BitVec 32) (s : State), Claim.engineAt s n e p rest j w ∧ iOp w = 0x3F ∧ p.poisonAt = some a ∧ n < 8) ∧
    (∃ (n : Nat) (e : Nat) (p : Pass) (rest : List Pass) (j : Job) (w : BitVec 32) (s : State), Claim.engineAt s n e p rest j w ∧ iOp w = 0x3F ∧ p.poisonAt = none ∧ p.disagree = true ∧ p.repeats = 0) ∧
    (∃ (n : Nat) (e : Nat) (p : Pass) (rest : List Pass) (j : Job) (w : BitVec 32) (s : State), Claim.engineAt s n e p rest j w ∧ iOp w = 0x3F ∧ p.poisonAt = none ∧ p.disagree = true ∧ n < 8 ∧ p.repeats ≠ 0) :=
  ⟨⟨7, 7, pRun, [], jRun, BitVec.ofNat 32 (0x3F * 2 ^ 26 + 3 * 2 ^ 22 + 1 * 2 ^ 18 + 2 * 2 ^ 14 + 4 * 2 ^ 9), engAt ((jRun)) ((pRun)) ((BitVec.ofNat 32 (0x3F * 2 ^ 26 + 3 * 2 ^ 22 + 1 * 2 ^ 18 + 2 * 2 ^ 14 + 4 * 2 ^ 9))), by unfold Claim.engineAt; decide +kernel⟩,
   ⟨7, 7, hdrAt ((jRun)) (({ pRun with pres1 := false }) : Pass).no 0, { pRun with pres1 := false }, [], jRun, BitVec.ofNat 32 (0x3F * 2 ^ 26 + 3 * 2 ^ 22 + 1 * 2 ^ 18 + 2 * 2 ^ 14 + 4 * 2 ^ 9), engAt ((jRun)) (({ pRun with pres1 := false })) ((BitVec.ofNat 32 (0x3F * 2 ^ 26 + 3 * 2 ^ 22 + 1 * 2 ^ 18 + 2 * 2 ^ 14 + 4 * 2 ^ 9))), by unfold Claim.engineAt; decide +kernel⟩,
   ⟨7, 7, { pRun with repeats := 1, firstEng := 3 }, [], jRun, BitVec.ofNat 32 (0x3F * 2 ^ 26 + 3 * 2 ^ 22 + 1 * 2 ^ 18 + 2 * 2 ^ 14 + 4 * 2 ^ 9), engAt ((jRun)) (({ pRun with repeats := 1, firstEng := 3 })) ((BitVec.ofNat 32 (0x3F * 2 ^ 26 + 3 * 2 ^ 22 + 1 * 2 ^ 18 + 2 * 2 ^ 14 + 4 * 2 ^ 9))), by unfold Claim.engineAt; decide +kernel⟩,
   ⟨7, 7, 0x500000, { pRun with poisonAt := some 0x500000 }, [], jRun, BitVec.ofNat 32 (0x3F * 2 ^ 26 + 3 * 2 ^ 22 + 1 * 2 ^ 18 + 2 * 2 ^ 14 + 4 * 2 ^ 9), engAt ((jRun)) (({ pRun with poisonAt := some 0x500000 })) ((BitVec.ofNat 32 (0x3F * 2 ^ 26 + 3 * 2 ^ 22 + 1 * 2 ^ 18 + 2 * 2 ^ 14 + 4 * 2 ^ 9))), by unfold Claim.engineAt; decide +kernel⟩,
   ⟨7, 7, { pRun with disagree := true }, [], jRun, BitVec.ofNat 32 (0x3F * 2 ^ 26 + 3 * 2 ^ 22 + 1 * 2 ^ 18 + 2 * 2 ^ 14 + 4 * 2 ^ 9), engAt ((jRun)) (({ pRun with disagree := true })) ((BitVec.ofNat 32 (0x3F * 2 ^ 26 + 3 * 2 ^ 22 + 1 * 2 ^ 18 + 2 * 2 ^ 14 + 4 * 2 ^ 9))), by unfold Claim.engineAt; decide +kernel⟩,
   ⟨7, 7, { pRun with disagree := true, repeats := 1 }, [], jRun, BitVec.ofNat 32 (0x3F * 2 ^ 26 + 3 * 2 ^ 22 + 1 * 2 ^ 18 + 2 * 2 ^ 14 + 4 * 2 ^ 9), engAt ((jRun)) (({ pRun with disagree := true, repeats := 1 })) ((BitVec.ofNat 32 (0x3F * 2 ^ 26 + 3 * 2 ^ 22 + 1 * 2 ^ 18 + 2 * 2 ^ 14 + 4 * 2 ^ 9))), by unfold Claim.engineAt; decide +kernel⟩⟩

theorem test_meets_PassesStart :
    (∃ (n : Nat) (e : Nat) (j : Job) (w0 : Word) (s : State), n < 8 ∧ Claim.takesPass s n e = true ∧ engineOn s n e = true ∧ Claim.nextJob (bdOf s n) = some j ∧ Claim.passInputs s j j.next w0) ∧
    (∃ (n : Nat) (e : Nat) (j : Job) (s : State), n < 8 ∧ Claim.takesPass s n e = true ∧ engineOn s n e = true ∧ Claim.nextJob (bdOf s n) = some j ∧ s.stk.flips = [] ∧ stkPeek s (j.pBase + ((passRow j j.next / 32) * j.perRow + passBlk j j.next) * 4) 8 = cleanBytes (List.replicate 8 0#8)) ∧
    (∃ (n : Nat) (e : Nat) (a : Nat) (j : Job) (s : State), n < 8 ∧ Claim.takesPass s n e = true ∧ engineOn s n e = true ∧ Claim.nextJob (bdOf s n) = some j ∧ s.stk.flips = [] ∧ a = j.pBase + ((passRow j j.next / 32) * j.perRow + passBlk j j.next) * 4 ∧ anyPoison (stkPeek s a 8) = true) ∧
    (∃ (n : Nat) (e : Nat) (s : State), (Claim.takesPass s n e = false ∨ engineOn s n e = false ∨ Claim.nextJob (bdOf s n) = none)) ∧
    (∃ (n : Nat) (e : Nat) (f : Nat) (p : Pass) (qs : List Pass) (rs : List Pass) (j : Job) (w0 : Word) (s : State), n < 8 ∧ (bdOf s n).redo = qs ++ p :: rs ∧ qs.all (fun q => q.firstEng != e) = true ∧ p.firstEng = e ∧ nextEngine s n e = some f ∧ Claim.takesPass s n f = true ∧ (bdOf s n).jobs.find? (fun j => j.no == p.job) = some j ∧ Claim.passInputs s j p.no w0) ∧
    (∃ (n : Nat) (e : Nat) (s : State), ((bdOf s n).redo.all (fun q => q.firstEng != e) = true ∨ running s = false ∨ stackCritical s n = true)) :=
  ⟨⟨7, 7, { jRun with next := 0 }, dw [(48, 1)], { up with stk := { mem := SMap.putList 0#8 (SMap.put 0#8 [] (physOf up 0x600000) 1#8) (physOf up 0x500000) (leBytes 8 (2 ^ 48)) }, bn := [(7, { jobs := [({ jRun with next := 0 })] })] }, by unfold Claim.passInputs; decide +kernel⟩,
   ⟨7, 7, { jRun with next := 0 }, { up with stk := {}, bn := [(7, { jobs := [({ jRun with next := 0 })] })] }, by decide +kernel⟩,
   ⟨7, 7, 0x600000, { jRun with next := 0 }, { up with stk := { poison := [(physOf up 0x600000 / 64, true)] }, bn := [(7, { jobs := [({ jRun with next := 0 })] })] }, by decide +kernel⟩,
   ⟨7, 7, up, by decide +kernel⟩,
   ⟨7, 7, 0, { job := 1, no := 0, firstEng := 7 }, [], [], jRun, dw [(48, 1)], { up with stk := { mem := SMap.putList 0#8 (SMap.put 0#8 [] (physOf up 0x600000) 1#8) (physOf up 0x500000) (leBytes 8 (2 ^ 48)) }, bn := [(7, { jobs := [(jRun)], redo := [({ job := 1, no := 0, firstEng := 7 })] })] }, by unfold Claim.passInputs; decide +kernel⟩,
   ⟨7, 7, up, by decide +kernel⟩⟩

theorem test_meets_UpdateJobs :
    (∃ (ring : Nat) (n : Nat) (a : Nat) (f : Frame) (j : Job) (s : State), Claim.taken s ring 0x0303 f { ops := [maskBits 2 0, maskBits 47 0] } ∧ n = bits f.w1 2 0 ∧ a = bits f.w2 47 0 ∧ assist s 3 = false ∧ stkWaits s a 256 = false ∧ s.stk.flips = [] ∧ j = { no := (bdOf s n).jobNo + 1, recAt := a, rec_ := rawBytes (stkPeek s a 256), cmd := Claim.refOf s ring f } ∧ Claim.jobRecord s n a j = true ∧ (bdOf s n).jobs.length < 32) ∧
    (∃ (ring : Nat) (n : Nat) (f : Frame) (s : State), Claim.taken s ring 0x0303 f { ops := [maskBits 2 0, maskBits 47 0] } ∧ n = bits f.w1 2 0 ∧ stkWaits s (bits f.w2 47 0) 256 = false ∧ (assist s 3 = true ∨ bits f.w2 47 0 % 8 ≠ 0) ∧ Claim.ringOpen s (cplOf s ring) = true) ∧
    (∃ (f : Frame) (s : State), stkWaits s (bits f.w2 47 0) 256 = true) ∧
    (∃ (n : Nat) (k : Nat) (b : BaseDie) (j : Job) (s : State), n < 8 ∧ bdOf s n = b ∧ firstWaiting b = k ∧ b.jobs[k]? = some j ∧ running s = true ∧ startsHeld s b = false ∧ j.lost = false ∧ (s.watch.met.contains (n, j.no) || startMet s j.startWord j.startVal) = true ∧ (b.jobs.take k).any (mastersOverlap j) = false ∧ (j.group = 0xFFFF ∨ memberCheck s j.group = 0)) ∧
    (∃ (n : Nat) (k : Nat) (b : BaseDie) (j : Job) (s : State), n < 8 ∧ bdOf s n = b ∧ firstWaiting b = k ∧ b.jobs[k]? = some j ∧ running s = true ∧ startsHeld s b = false ∧ j.lost = false ∧ (s.watch.met.contains (n, j.no) || startMet s j.startWord j.startVal) = true ∧ (b.jobs.take k).any (mastersOverlap j) = false ∧ j.group ≠ 0xFFFF ∧ memberCheck s j.group ≠ 0) ∧
    (∃ (n : Nat) (k : Nat) (b : BaseDie) (j : Job) (s : State), bdOf s n = b ∧ firstWaiting b = k ∧ b.jobs[k]? = some j ∧ (running s = false ∨ startsHeld s b = true ∨ j.lost = true ∨ (s.watch.met.contains (n, j.no) || startMet s j.startWord j.startVal) = false ∨ (b.jobs.take k).any (mastersOverlap j) = true)) ∧
    (∃ (n : Nat) (j : Job) (s : State), n < 8 ∧ (bdOf s n).jobs.find? (fun j => j.lost || (j.started && (j.aborted || decide (j.done = j.passes)))) = some j ∧ (running s = true ∨ j.lost = true) ∧ stkWaits s j.recAt 256 = false ∧ flagWaits s j.doneWord = false ∧ j.member = none ∧ j.copyOn = false ∧ nth 0 j.cnts 3 = 0 ∧ s.stk.flips = [] ∧ (j.doneWord = 0 ∨ j.doneWord % 8 = 0 ∧ stkPresent s j.doneWord = true ∧ placeLost s (physOf s (backing s false j.doneWord)) = false ∧ linePoisoned s j.doneWord = false) ∧ j.cmd.ring < 8 ∧ bit j.cmd.w0 18 = false ∧ Claim.ringOpen s (cplOf s j.cmd.ring) = true) ∧
    (∃ (n : Nat) (s : State), (bdOf s n).jobs.find? (fun j => j.lost || (j.started && (j.aborted || decide (j.done = j.passes)))) = none) :=
  ⟨⟨7, 0, 0x20000000, fr 0x303 0#64 0x20000000#64, { no := (bdOf ((ringsOn { withRegs [(reg .MEM_LOC_BASE 0, 1#64), (reg .MEM_LOC_SIZE 0, 25#64)] with stk := { mem := stkMem 0x20000000 (jrec 0xFFFF) }, bn := [(0, { prog := [(0, 0xFC000000#32)] })] })) 0).jobNo + 1, recAt := 0x20000000, rec_ := rawBytes (stkPeek ((ringsOn { withRegs [(reg .MEM_LOC_BASE 0, 1#64), (reg .MEM_LOC_SIZE 0, 25#64)] with stk := { mem := stkMem 0x20000000 (jrec 0xFFFF) }, bn := [(0, { prog := [(0, 0xFC000000#32)] })] })) 0x20000000 256), cmd := Claim.refOf ((ringsOn { withRegs [(reg .MEM_LOC_BASE 0, 1#64), (reg .MEM_LOC_SIZE 0, 25#64)] with stk := { mem := stkMem 0x20000000 (jrec 0xFFFF) }, bn := [(0, { prog := [(0, 0xFC000000#32)] })] })) 7 ((fr 0x303 0#64 0x20000000#64)) }, ringsOn { withRegs [(reg .MEM_LOC_BASE 0, 1#64), (reg .MEM_LOC_SIZE 0, 25#64)] with stk := { mem := stkMem 0x20000000 (jrec 0xFFFF) }, bn := [(0, { prog := [(0, 0xFC000000#32)] })] }, by unfold Claim.taken; decide +kernel⟩,
   ⟨7, 7, fr 0x303 7#64 0x20000000#64, ringsOn (withRegs [(reg .MBX_ASSIST, 8#64)]), by unfold Claim.taken; decide +kernel⟩,
   ⟨fr 0x303 7#64 0#64, ringsOn (withRegs ((List.range 8).map (fun n => (reg .STK_TEMP n, 0x300#64)))), by decide +kernel⟩,
   ⟨7, 0, { jobs := [({ jRun with started := false })] }, { jRun with started := false }, { up with bn := [(7, ({ jobs := [({ jRun with started := false })] }))] }, by decide +kernel⟩,
   ⟨7, 0, { jobs := [({ jRun with started := false, rec_ := jrec 5 })] }, { jRun with started := false, rec_ := jrec 5 }, { up with bn := [(7, ({ jobs := [({ jRun with started := false, rec_ := jrec 5 })] }))] }, by decide +kernel⟩,
   ⟨7, 0, { jobs := [({ jRun with started := false })] }, { jRun with started := false }, { up with bn := [(7, ({ jobs := [({ jRun with started := false })] }))], blt := { advWait := [none] } }, by decide +kernel⟩,
   ⟨7, { jRun with next := 32, done := 32 }, ringsOn { up with bn := [(7, { jobs := [({ jRun with next := 32, done := 32 })] })], cox := { running := [cmd7] } }, by decide +kernel⟩,
   ⟨7, up, by decide +kernel⟩⟩

theorem test_meets_ProgramsLoad :
    (∃ (ring : Nat) (f : Frame) (d : PBytes) (ws : List (BitVec 32)) (s : State), Claim.taken s ring 0x0302 f { ops := [maskBits 15 0], buf := true } ∧ s.stk.flips = [] ∧ bufLen f % 4 = 0 ∧ bits f.w1 15 8 + bufLen f / 4 ≤ 256 ∧ (∀ k, k < 8 → (bits f.w1 7 0).testBit k = true → (bdOf s k).jobs = []) ∧ bufOk f (bufLen f) s = true ∧ d = (if bit f.w7 32 then stkPeek s f.w6.toNat (bufLen f) else cleanBytes ((List.range (bufLen f)).map (fun i => nth 0#8 f.buf i))) ∧ anyPoison d = false ∧ ws = (chunks 4 (rawBytes d)).map (fun c => BitVec.ofNat 32 (leNat c)) ∧ ws.all bnWordOk = true ∧ bit f.w0 18 = false ∧ Claim.ringOpen s (cplOf s ring) = true) ∧
    (∃ (ring : Nat) (f : Frame) (s : State), Claim.taken s ring 0x0302 f { ops := [maskBits 15 0], buf := true } ∧ (bufLen f % 4 ≠ 0 ∨ 256 < bits f.w1 15 8 + bufLen f / 4) ∧ Claim.ringOpen s (cplOf s ring) = true) :=
  ⟨⟨7, frb 0x302 (dw [(0, 0x81), (8, 254)]) (leBytes 4 0x04400000 ++ leBytes 4 0xFC000000), cleanBytes ((List.range 8).map (fun i => nth 0#8 ((frb 0x302 (dw [(0, 0x81), (8, 254)]) (leBytes 4 0x04400000 ++ leBytes 4 0xFC000000)) : Frame).buf i)), [0x04400000#32, 0xFC000000#32], ringsOn, by refine ⟨?_, ?_, ?_, ?_, ?_, ?_, rfl, ?_, ?_, ?_, ?_, ?_⟩ <;> first | decide +kernel | (unfold Claim.taken; decide +kernel)⟩,
   ⟨7, frb 0x302 (dw [(0, 0x81), (8, 254)]) [1#8], ringsOn, by unfold Claim.taken; decide +kernel⟩⟩

theorem test_meets_WindowAccesses_1 :
    (∃ (t : Nat) (off : Nat) (len : Nat) (s : State), Claim.windowOpen s t ∧ off + len ≤ winTop ∧ s.flitErr = [] ∧ (tileOf s t).soft = []) ∧
    (∃ (t : Nat) (off : Nat) (len : Nat) (o : Nat) (s : State), Claim.windowOpen s t ∧ Claim.onePacket off len ∧ off + len ≤ winTop ∧ off ≤ o ∧ o < off + len) ∧
    (∃ (t : Nat) (off : Nat) (data : List Byte) (s : State), Claim.windowOpen s t ∧ off + data.length ≤ winTop ∧ s.flitErr = [] ∧ (wordsOf off data.length).all (fun w => winWritable (tileOf s t) (max w off)) = true) ∧
    (∃ (t : Nat) (off : Nat) (data : List Byte) (s : State), Claim.windowOpen s t ∧ Claim.onePacket off data.length ∧ off + data.length ≤ winTop ∧ s.flitErr = [] ∧ (wordsOf off data.length).all (fun w => winWritable (tileOf s t) (max w off)) = false) ∧
    (∃ (t : Nat) (off : Nat) (data : List Byte) (s : State), t < numTiles ∧ tileState s t = 2 ∧ Claim.onePacket off data.length ∧ off < 0x100000) ∧
    (∃ (t : Nat) (off : Nat) (s : State), t < numTiles ∧ tileState s t = 2 ∧ off < 0x100000) ∧
    (∃ (t : Nat) (off : Nat) (data : List Byte) (s : State), Claim.onePacket off data.length ∧ (t < numTiles → tileState s t ≠ 2) ∧ (numTiles ≤ t ∨ tileState s t = 4 ∨ winTop < off + data.length)) ∧
    (∃ (t : Nat) (off : Nat) (len : Nat) (s : State), Claim.onePacket off len ∧ (t < numTiles → tileState s t ≠ 2) ∧ (numTiles ≤ t ∨ tileState s t = 4 ∨ winTop < off + len)) :=
  ⟨⟨1151, 0xF3FFC, 4, lt tRun, by unfold Claim.windowOpen; decide +kernel⟩,
   ⟨1151, 0xBFFFC, 4, 0xBFFFE, up, by unfold Claim.onePacket Claim.windowOpen; decide +kernel⟩,
   ⟨1151, 0xBFFFF, [0xAB#8], up, by unfold Claim.windowOpen; decide +kernel⟩,
   ⟨1151, 0xF403E, [1#8, 2#8], up, by unfold Claim.onePacket Claim.windowOpen; decide +kernel⟩,
   ⟨1151, 0x80000, [0xAB#8], withRegs [(reg .TILE_STATE 1151, 2#64)], by unfold Claim.onePacket; decide +kernel⟩,
   ⟨1151, 0x80000, withRegs [(reg .TILE_STATE 1151, 2#64)], by decide +kernel⟩,
   ⟨1151, 0xF7000, [1#8, 2#8], up, by unfold Claim.onePacket; decide +kernel⟩,
   ⟨1151, 0xF7000, 2, up, by unfold Claim.onePacket; decide +kernel⟩⟩

theorem test_meets_WindowAccesses_2 :
    ∃ (off : Nat) (data : List Byte), 64 < off % 64 + data.length :=
  ⟨0xF403F, [1#8, 2#8], by decide +kernel⟩

theorem test_meets_ScrubsAndCodeBases :
    (∃ (t : Nat) (o : Nat) (s : State), t < numTiles ∧ tileState s t ≠ 4 ∧ o < 0xC0000 ∧ (tileOf s t).soft = []) ∧
    (∃ (t : Nat) (s : State), (numTiles ≤ t ∨ tileState s t = 4)) ∧
    (∃ (t : Nat) (v : Word) (s : State), t < numTiles ∧ tileState s t ≠ 2 ∧ bits v 5 0 + bits v 11 8 + 1 ≤ 64) ∧
    (∃ (t : Nat) (v : Word) (s : State), t < numTiles ∧ tileState s t ≠ 2 ∧ 64 < bits v 5 0 + bits v 11 8 + 1) ∧
    (∃ (t : Nat) (s : State), t < numTiles ∧ tileState s t = 2) ∧
    (∃ (t : Nat) (px : Nat) (py : Nat) (e : Nat) (s : State), tileAt s (px, py) = some t ∧ SMap.get 0 s.flitErr (posKey px py) = e ∧ e ≠ 0) :=
  ⟨⟨1151, 0xBFFFF, lt tRun, by decide +kernel⟩,
   ⟨1152, up, by decide +kernel⟩,
   ⟨1151, dw [(0, 63)], up, by decide +kernel⟩,
   ⟨1151, dw [(0, 63), (8, 1)], up, by decide +kernel⟩,
   ⟨1151, withRegs [(reg .TILE_STATE 1151, 2#64)], by decide +kernel⟩,
   ⟨0, 0, 0, 1, { withRaw [(reg .TILE_MAP 0, 0#64)] with flitErr := [(posKey 0 0, 1)] }, by decide +kernel⟩⟩

theorem test_meets_MapMoves :
    (∃ (t : Nat) (s : State), (ownScanDue s t = true ∨ quiet s t = false ∨ tileState s t = 2 ∨ tileState s t = 4)) ∧
    (∃ (t : Nat) (px : Nat) (py : Nat) (s : State), spareAsked s t = false ∧ (retirement s t = none ∨ spareFresh s (px, py) = false ∨ nearestSpare s t (px, py) = false)) ∧
    (∃ (t : Nat) (s : State), t < numTiles ∧ tileState s t = 2 ∧ (tileOf s t).held = [] ∧ spareAsked s t = false ∧ retirement s t = none) ∧
    (∃ (t : Nat) (off : Nat) (q : Req) (data : List Byte) (s : State), t < numTiles ∧ tileState s t = 2 ∧ (tileOf s t).held = [⟨q, off, data.length, true, data, false, false⟩] ∧ off + data.length ≤ winTop ∧ (wordsOf off data.length).all (fun w => winWritable (tileOf s t) (max w off)) = true ∧ spareAsked s t = false ∧ retirement s t = none) ∧
    (∃ (t : Nat) (c : CmdRef) (s : State), t < numTiles ∧ tileState s t = 2 ∧ (tileOf s t).held = [] ∧ s.cox.moveCmd = [(t, c)] ∧ retirement s t = none ∧ bit c.w0 18 = false ∧ Claim.ringOpen s (cplOf s c.ring) = true) ∧
    (∃ (t : Nat) (acks : Nat) (s : State), (tileState s t ≠ 2 ∨ acks ≠ 1248)) ∧
    (∃ (px : Nat) (py : Nat), px < 48 ∧ py < 26) ∧
    (∃ (px : Nat) (py : Nat), (48 ≤ px ∨ 26 ≤ py)) :=
  ⟨⟨1151, withRegs [(reg .TILE_STATE 1151, 1#64)] (tileAt_ 1151 { scan := 1 } { up with cox := { proposals := [{ num := 0, kind := 4, a := 1151, b := 1, decided := true }] } }), by decide +kernel⟩,
   ⟨1151, 47, 25, withRegs [(reg .TILE_STATE 1151, 1#64)] (tileAt_ 1151 {} { up with cox := { proposals := [{ num := 0, kind := 4, a := 1151, b := 2, decided := true }] } }), by decide +kernel⟩,
   ⟨1151, withRegs [(reg .TILE_STATE 1151, 2#64)], by decide +kernel⟩,
   ⟨1151, 0x80000, .host, [0xAB#8], tileAt_ 1151 { held := [{ req := .host, off := 0x80000, len := 1, write := true, data := [0xAB#8] }] } (withRegs [(reg .TILE_STATE 1151, 2#64)]), by decide +kernel⟩,
   ⟨1151, { cmd7 with w0 := 0x701#64 }, ringsOn { (withRegs [(reg .TILE_STATE 1151, 2#64)]) with cox := { moveCmd := [(1151, ({ cmd7 with w0 := 0x701#64 }))], running := [({ cmd7 with w0 := 0x701#64 })] } }, by decide +kernel⟩,
   ⟨1151, 1248, up, by decide +kernel⟩,
   ⟨47, 25, by decide +kernel⟩,
   ⟨48, 0, by decide +kernel⟩⟩

theorem test_meets_GlFieldsAreReadOnly :
    ∃ (q : Req) (off : Nat) (size : Nat) (n : RegName) (i : Nat) (j : Nat) (s : State), s.gate.st ≠ .off ∧ mayReach q = true ∧ (size = 4 ∨ size = 8) ∧ off % size = 0 ∧ regAt (off / 8 * 8) = some (n, i, j) ∧ isGl n (off / 8 * 8) = true :=
  ⟨.host, (reg .GATE_STAT).off + 4, 4, .GATE_STAT, 0, 0, up, by decide +kernel⟩

theorem test_meets_RegisterWidths_1 :
    (∃ (q : Req) (off : Nat) (n : RegName) (i : Nat) (j : Nat) (s : State), s.gate.st ≠ .off ∧ mayReach q = true ∧ onHold s off = none ∧ off % 8 = 0 ∧ placeAt off = some (.reg n i j) ∧ isGl n off = false ∧ Claim.ownEffect.contains n = false) ∧
    (∃ (q : Req) (off : Nat) (n : RegName) (i : Nat) (j : Nat) (s : State), s.gate.st ≠ .off ∧ mayReach q = true ∧ onHold s off = none ∧ off % 4 = 0 ∧ placeAt (off / 8 * 8) = some (.reg n i j) ∧ isGl n (off / 8 * 8) = false ∧ Claim.ownEffect.contains n = false) ∧
    (∃ (off : Nat) (size : Nat) (p : RegPlace) (s : State), s.gate.st ≠ .off ∧ onHold s off = none ∧ off < 0x4000000 ∧ (size = 4 ∨ size = 8) ∧ off % size = 0 ∧ placeAt (off / 8 * 8) = some p ∧ s.flitErr = [] ∧ (Claim.isCounter (off / 8 * 8) = false ∨ pmcTiles s = [])) ∧
    (∃ (k : Nat) (w : Nat) (s : State), s.gate.st ≠ .off ∧ k < 163776 ∧ w < 8) ∧
    (∃ (q : Req) (off : Nat) (len : Nat) (s : State), s.gate.st ≠ .off ∧ mayReach q = true ∧ ((len ≠ 4 ∧ len ≠ 8) ∨ off % len ≠ 0) ∧ onHold s off = none) ∧
    (∃ (q : Req) (off : Nat) (t : Nat) (s : State), s.gate.st ≠ .off ∧ mayReach q = true ∧ onHold s off = some t) ∧
    (∃ (off : Nat) (t : Nat) (s : State), s.gate.st ≠ .off ∧ off < 0x4000000 ∧ onHold s off = some t) ∧
    (∃ (q : Req) (off : Nat) (len : Nat) (t : Nat) (s : State), s.gate.st ≠ .off ∧ mayReach q = true ∧ ((len ≠ 4 ∧ len ≠ 8) ∨ off % len ≠ 0) ∧ onHold s off = some t) :=
  ⟨⟨.host, (reg .SCHED_STEP_NEXT).off, .SCHED_STEP_NEXT, 0, 0, up, by decide +kernel⟩,
   ⟨.host, (reg .SCHED_NEXT).off + 4, .SCHED_NEXT, 0, 0, withRegs [(reg .SCHED_NEXT, 0x1122334455667788#64)], by decide +kernel⟩,
   ⟨(reg .SCHED_NEXT).off + 4, 4, .reg .SCHED_NEXT 0 0, withRegs [(reg .SCHED_NEXT, 0x1122334455667788#64)], by decide +kernel⟩,
   ⟨163775, 7, { up with rec_ := { log := [(163775, [1#64, 2#64, 3#64, 4#64, 5#64, 6#64, 7#64, 8#64])] } }, by decide +kernel⟩,
   ⟨.host, 0xFFFFFC, 8, up, by decide +kernel⟩,
   ⟨.host, (reg .TILE_SEQ_CODE 1151).off, 1151, withRegs [(reg .TILE_STATE 1151, 2#64)], by decide +kernel⟩,
   ⟨(reg .TILE_SEQ_CODE 1151).off, 1151, withRegs [(reg .TILE_STATE 1151, 2#64)], by decide +kernel⟩,
   ⟨.host, (reg .TILE_SEQ_CODE 1151).off + 2, 4, 1151, withRegs [(reg .TILE_STATE 1151, 2#64)], by decide +kernel⟩⟩

theorem test_meets_RegisterWidths_2 :
    ∃ (s : State), s.gate.st = .off :=
  ⟨inState .off, by decide +kernel⟩

theorem test_meets_UnmappedRegisters :
    (∃ (q : Req) (off : Nat) (size : Nat) (s : State), s.gate.st ≠ .off ∧ mayReach q = true ∧ onHold s off = none ∧ (size = 4 ∨ size = 8) ∧ off % size = 0 ∧ (placeAt (off / 8 * 8) = none ∨ 0x2200000 ≤ off)) ∧
    (∃ (off : Nat) (size : Nat) (s : State), s.gate.st ≠ .off ∧ onHold s off = none ∧ off < 0x4000000 ∧ (size = 4 ∨ size = 8) ∧ off % size = 0 ∧ (placeAt (off / 8 * 8) = none ∨ 0x2200000 ≤ off) ∧ s.flitErr = []) ∧
    (∃ (off : Nat) (s : State), s.gate.st ≠ .off ∧ off < 0x4000000) :=
  ⟨⟨.host, 0x2200000, 4, up, by decide +kernel⟩,
   ⟨0x2200000, 4, up, by decide +kernel⟩,
   ⟨0x3FFFFFF, up, by decide +kernel⟩⟩

theorem test_meets_UnmappedWindows :
    (∃ (t : Nat) (off : Nat) (data : List Byte) (s : State), s.gate.st ≠ .off ∧ Claim.onePacket off data.length ∧ off + data.length ≤ 0x100000 ∧ t * 0x100000 + off + data.length ≤ 0x80000000 ∧ (t < numTiles → tileState s t ≠ 2) ∧ (numTiles ≤ t ∨ winTop < off + data.length)) ∧
    (∃ (t : Nat) (off : Nat) (len : Nat) (s : State), s.gate.st ≠ .off ∧ Claim.onePacket off len ∧ off + len ≤ 0x100000 ∧ t * 0x100000 + off + len ≤ 0x80000000 ∧ (t < numTiles → tileState s t ≠ 2) ∧ (numTiles ≤ t ∨ winTop < off + len)) :=
  ⟨⟨1152, 0, [1#8, 2#8], up, by unfold Claim.onePacket; decide +kernel⟩,
   ⟨1152, 0, 2, up, by unfold Claim.onePacket; decide +kernel⟩⟩

theorem test_meets_PcieWindows_1 :
    (∃ (off : Nat) (len : Nat) (dpa : Nat) (s : State), isUp s = true ∧ off + len ≤ 2 ^ (30 + rbits s (reg .PCIE_BAR2_SIZE) 3 0) ∧ dpa = rbits s (reg .PCIE_BAR2_BASE) 47 30 * 2 ^ 30 + off ∧ (linesOf dpa len).all (fun l => stkPresent s l) = true ∧ stkWaits s dpa len = false ∧ s.stk.flips = [] ∧ s.flitErr = []) ∧
    (∃ (off : Nat) (dpa : Nat) (data : List Byte) (s : State), isUp s = true ∧ off + data.length ≤ 2 ^ (30 + rbits s (reg .PCIE_BAR2_SIZE) 3 0) ∧ dpa = rbits s (reg .PCIE_BAR2_BASE) 47 30 * 2 ^ 30 + off ∧ 0 < data.length ∧ dpa % 64 + data.length ≤ 64 ∧ stkPresent s dpa = true ∧ stkWaits s dpa data.length = false ∧ placeLost s (physOf s (backing s false dpa)) = false ∧ s.stk.flips = []) ∧
    (∃ (off : Nat) (len : Nat) (dpa : Nat) (s : State), isUp s = true ∧ off + len ≤ 2 ^ (30 + rbits s (reg .PCIE_BAR2_SIZE) 3 0) ∧ dpa = rbits s (reg .PCIE_BAR2_BASE) 47 30 * 2 ^ 30 + off ∧ stkWaits s dpa len = true) ∧
    (∃ (off : Nat) (len : Nat) (s : State), s.gate.st = .dry ∧ off + len ≤ 2 ^ (30 + rbits s (reg .PCIE_BAR2_SIZE) 3 0)) ∧
    (∃ (t : Nat) (off : Nat) (data : List Byte) (s : State), s.gate.st ≠ .off ∧ Claim.windowOpen s t ∧ 0 < data.length ∧ off + data.length ≤ winTop ∧ s.flitErr = [] ∧ (wordsOf off data.length).all (fun w => winWritable (tileOf s t) (max w off)) = true) ∧
    (∃ (t : Nat) (off : Nat) (len : Nat) (s : State), s.gate.st ≠ .off ∧ Claim.windowOpen s t ∧ 0 < len ∧ off + len ≤ winTop ∧ s.flitErr = [] ∧ (tileOf s t).soft = []) ∧
    (∃ (off : Nat) (data : List Byte) (s : State), s.gate.st ≠ .off ∧ off + data.length ≤ 0x80000000 ∧ 64 < off % 64 + data.length) ∧
    (∃ (off : Nat) (data : List Byte) (s : State), s.gate.st ≠ .off ∧ off + data.length ≤ 0x80000000) :=
  ⟨⟨0x3FFFFFF8, 8, 0x3FFFFFF8, up, by decide +kernel⟩,
   ⟨0x3FFFFFF8, 0x3FFFFFF8, [1#8, 2#8], up, by decide +kernel⟩,
   ⟨0, 8, 0, withRegs ((List.range 8).map (fun n => (reg .STK_TEMP n, 0x300#64))), by decide +kernel⟩,
   ⟨0x3FFFFFF8, 8, {}, by decide +kernel⟩,
   ⟨1151, 0xBFFFF, [0xAB#8], up, by unfold Claim.windowOpen; decide +kernel⟩,
   ⟨1151, 0xF3FFC, 4, lt tRun, by unfold Claim.windowOpen; decide +kernel⟩,
   ⟨0x47FFFFFF, List.replicate 66 1#8, up, by decide +kernel⟩,
   ⟨0x47FFFFFF, List.replicate 66 1#8, up, by decide +kernel⟩⟩

theorem test_meets_PcieWindows_2 :
    (∃ (off : Nat) (dpa : Nat) (data : List Byte) (s : State), s.gate.st ≠ .off ∧ off + data.length ≤ 2 ^ (30 + rbits s (reg .PCIE_BAR2_SIZE) 3 0) ∧ dpa = rbits s (reg .PCIE_BAR2_BASE) 47 30 * 2 ^ 30 + off) ∧
    (∃ (q : Req) (v : Word) (s : State), s.gate.st ≠ .off ∧ mayReach q = true ∧ (bits v 47 30 * 2 ^ 30) % 2 ^ (30 + rbits s (reg .PCIE_BAR2_SIZE) 3 0) = 0 ∧ bits v 47 30 * 2 ^ 30 < stackTop) ∧
    (∃ (q : Req) (v : Word) (s : State), s.gate.st ≠ .off ∧ mayReach q = true ∧ (stackTop ≤ bits v 47 30 * 2 ^ 30 ∨ (bits v 47 30 * 2 ^ 30) % 2 ^ (30 + rbits s (reg .PCIE_BAR2_SIZE) 3 0) ≠ 0)) ∧
    (∃ (n : Nat) (s : State), s.gate.st ≠ .off ∧ n ≤ 9) ∧
    (∃ (s : State), s.gate.st = .off) :=
  ⟨⟨0x3FFFFFF8, 0x3FFFFFF8, [], up, by decide +kernel⟩,
   ⟨.host, dw [(30, 383)], withRegs [(reg .PCIE_BAR2_SIZE, 0#64)], by decide +kernel⟩,
   ⟨.host, dw [(30, 384)], up, by decide +kernel⟩,
   ⟨9, up, by decide +kernel⟩,
   ⟨inState .off, by decide +kernel⟩⟩

theorem test_meets_FlitsReceived_1 :
    (∃ (l : Nat) (n : Nat) (raw : List Byte) (s : State), Claim.linkIdle s l ∧ (linkOf s l).nakOut = false ∧ (linkOf s l).retry.length < 512 ∧ (n ≠ 0 ∨ rawFails raw = true)) ∧
    (∃ (raw : List Byte), rawFails raw = false) ∧
    (∃ (k : Nat) (l : Nat) (f : Flit) (s : State), k < 6 ∧ Claim.linkIdle s l ∧ (linkOf s l).nakOut = false ∧ flitOk (Claim.flitOf k l f).2 f = false) ∧
    (∃ (l : Nat) (s : State), linkTakes s l = false) ∧
    (∃ (l : Nat) (f : Flit) (s : State), linkTakes s l = true ∧ (linkOf s l).waitQ = [] ∧ flitOk 0 f = true ∧ (linkOf s l).ackDue = false) ∧
    (∃ (l : Nat) (f : Flit) (s : State), Claim.linkIdle s l ∧ flitOk 3 f = true ∧ f.seq = (linkOf s l).rxExp) ∧
    (∃ (l : Nat) (f : Flit) (s : State), Claim.linkIdle s l ∧ flitOk 3 f = true ∧ f.seq ≠ (linkOf s l).rxExp) ∧
    (∃ (l : Nat) (f : Flit) (s : State), Claim.linkIdle s l ∧ flitOk 4 f = true ∧ f.seq = (linkOf s l).rxExp) :=
  ⟨⟨46, 2, [], port 3, by unfold Claim.linkIdle; decide +kernel⟩,
   ⟨List.replicate 268 0#8 ++ leBytes 4 (crc32c (List.replicate 268 0#8)).toNat, rawFails_sealed _ (by decide +kernel) (by decide +kernel)⟩,
   ⟨0, 46, spoilt {}, port 3, by refine ⟨?_, ?_, ?_, spoilt_fails {}⟩ <;> first | decide +kernel | (unfold Claim.linkIdle; decide +kernel)⟩,
   ⟨46, port 1, by decide +kernel⟩,
   ⟨46, Flit.sealed 0 { ack := 5, ackValid := true, credA := (1, 7), credB := (2, 4095), seq := 1 }, port 3 { retry := [{ seq := 5, kind := 1, bytes := cleanBytes [1#8] }, { seq := 6, kind := 1 }] }, by refine ⟨?_, ?_, flitOk_sealed _ _, ?_⟩ <;> decide +kernel⟩,
   ⟨46, Flit.sealed 3 { ack := 5, ackValid := true, credA := (1, 7), credB := (2, 4095), seq := 1 }, port 3 { retry := [{ seq := 5, kind := 1, bytes := cleanBytes [1#8] }], nakOut := true }, by refine ⟨?_, flitOk_sealed _ _, ?_⟩ <;> first | decide +kernel | (unfold Claim.linkIdle; decide +kernel)⟩,
   ⟨46, Flit.sealed 3 { ack := 5, ackValid := true, credA := (1, 7), credB := (2, 4095), seq := 2 }, port 3, by refine ⟨?_, flitOk_sealed _ _, ?_⟩ <;> first | decide +kernel | (unfold Claim.linkIdle; decide +kernel)⟩,
   ⟨46, Flit.sealed 4 { ack := 5, ackValid := true, credA := (1, 7), credB := (2, 4095), seq := 1 }, port 3 { retry := [{ seq := 5, kind := 1, bytes := cleanBytes [1#8] }, { seq := 6, kind := 1 }] }, by refine ⟨?_, flitOk_sealed _ _, ?_⟩ <;> first | decide +kernel | (unfold Claim.linkIdle; decide +kernel)⟩⟩

theorem test_meets_FlitsReceived_2 :
    (∃ (l : Nat) (s : State), linkTakes s l = true) ∧
    (∃ (l : Nat), l < 48) :=
  ⟨⟨46, port 6 { nakOut := true }, by decide +kernel⟩,
   ⟨47, by decide +kernel⟩⟩

theorem test_meets_PacketsAssemble_1 :
    (∃ (l : Nat) (f : Flit) (s : State), Claim.dataTaken l f s ∧ f.last = false) ∧
    (∃ (l : Nat) (f : Flit) (s : State), Claim.dataTaken l f s ∧ f.last = true ∧ f.dst = ownId s ∧ bit (pktHead (Claim.packet (linkOf s l) f) 0) 10 = false ∧ [0x01, 0x02, 0x20, 0x21].contains (pktKind (Claim.packet (linkOf s l) f)) = true ∧ s.fab.rx.all (fun p => bits p.w0 7 0 != 0x10) = true) ∧
    (∃ (l : Nat) (m : Nat) (second : Bool) (first : Bool) (f : Flit) (s : State), Claim.dataTaken l f s ∧ f.last = true ∧ f.dst ≠ ownId s ∧ bit (pktHead (Claim.packet (linkOf s l) f) 0) 10 = false ∧ nextHop s (some (l / 16)) f.src f.dst (pktTag (Claim.packet (linkOf s l) f)) = .out m second first ∧ m ≠ l ∧ (linkOf s m).waitQ = []) ∧
    (∃ (l : Nat) (f : Flit) (s : State), Claim.dataTaken l f s ∧ f.last = true ∧ f.dst ≠ ownId s ∧ bit (pktHead (Claim.packet (linkOf s l) f) 0) 10 = false ∧ nextHop s (some (l / 16)) f.src f.dst (pktTag (Claim.packet (linkOf s l) f)) = .none ∧ pktKind (Claim.packet (linkOf s l) f) = 0x20) ∧
    (∃ (l : Nat) (m : Nat) (second : Bool) (first : Bool) (f : Flit) (s : State), Claim.dataTaken l f s ∧ f.last = true ∧ f.dst ≠ ownId s ∧ bit (pktHead (Claim.packet (linkOf s l) f) 0) 10 = false ∧ nextHop s (some (l / 16)) f.src f.dst (pktTag (Claim.packet (linkOf s l) f)) = .none ∧ pktKind (Claim.packet (linkOf s l) f) = 0x01 ∧ nextHop s none (ownId s) f.src (pktTag (Claim.packet (linkOf s l) f)) = .out m second first ∧ (linkOf s m).waitQ = []) ∧
    (∃ (l : Nat) (f : Flit) (s : State), Claim.dataTaken l f s ∧ f.last = true ∧ f.dst = ownId s ∧ bit (pktHead (Claim.packet (linkOf s l) f) 0) 10 = true ∧ bits (pktHead (Claim.packet (linkOf s l) f) 0) 49 44 < 48 ∧ bits (pktHead (Claim.packet (linkOf s l) f) 0) 49 44 / 16 = l / 16 ∧ bits (pktHead (Claim.packet (linkOf s l) f) 0) 49 44 ≠ l ∧ (linkOf s (bits (pktHead (Claim.packet (linkOf s l) f) 0) 49 44)).window = some (bits (pktHead (Claim.packet (linkOf s l) f) 0) 61 50) ∧ coordOf f.dst (l / 16) = ownCoord s (l / 16)) ∧
    (∃ (l : Nat) (f : Flit) (s : State), Claim.dataTaken l f s ∧ f.last = true ∧ f.dst = ownId s ∧ bit (pktHead (Claim.packet (linkOf s l) f) 0) 10 = false ∧ [0x01, 0x02, 0x10, 0x20, 0x21].contains (pktKind (Claim.packet (linkOf s l) f)) = false) ∧
    (∃ (l : Nat) (f : Flit) (s : State), Claim.linkIdle s l ∧ flitOk 1 f = true ∧ f.seq = (linkOf s l).rxExp ∧ vcBuffer (f.vc % 8) ≤ vcUsed (linkOf s l) (f.vc % 8)) :=
  ⟨⟨46, Flit.sealed 1 { seq := 1, vc := 1, last := false, dst := 0, src := 256, body := [1#8] }, port 3, ⟨by unfold Claim.dataTaken Claim.linkIdle; exact ⟨by decide +kernel, by decide +kernel, flitOk_sealed _ _, by decide +kernel, by decide +kernel⟩, by decide +kernel⟩⟩,
   ⟨46, Flit.sealed 1 { seq := 1, vc := 1, last := true, dst := 0, src := 256, body := [0x01#8] }, port 3, by refine ⟨by unfold Claim.dataTaken Claim.linkIdle; exact ⟨by decide +kernel, by decide +kernel, flitOk_sealed _ _, by decide +kernel, by decide +kernel⟩, ?_, ?_, ?_, ?_, ?_⟩ <;> decide +kernel⟩,
   ⟨14, 46, false, false, Flit.sealed 1 { seq := 1, vc := 1, last := true, dst := 256, src := 1, body := [1#8] }, withRegs [(reg .FAB_COORD, dw [(24, 1), (32, 1)]), (reg .LNK_STAT 14, 3#64), (reg .LNK_CTL 14, 1#64)] (port 3), by refine ⟨by unfold Claim.dataTaken Claim.linkIdle; exact ⟨by decide +kernel, by decide +kernel, flitOk_sealed _ _, by decide +kernel, by decide +kernel⟩, ?_, ?_, ?_, ?_, ?_, ?_⟩ <;> decide +kernel⟩,
   ⟨46, Flit.sealed 1 { seq := 1, vc := 1, last := true, dst := 512, src := 256, body := [0x20#8] }, port 3, by refine ⟨by unfold Claim.dataTaken Claim.linkIdle; exact ⟨by decide +kernel, by decide +kernel, flitOk_sealed _ _, by decide +kernel, by decide +kernel⟩, ?_, ?_, ?_, ?_, ?_⟩ <;> decide +kernel⟩,
   ⟨46, 46, false, false, Flit.sealed 1 { seq := 1, vc := 1, last := true, dst := 512, src := 256, body := [1#8] }, port 3, by refine ⟨by unfold Claim.dataTaken Claim.linkIdle; exact ⟨by decide +kernel, by decide +kernel, flitOk_sealed _ _, by decide +kernel, by decide +kernel⟩, ?_, ?_, ?_, ?_, ?_, ?_, ?_⟩ <;> decide +kernel⟩,
   ⟨46, Flit.sealed 1 { seq := 1, vc := 1, last := true, dst := 0, src := 256, body := leBytes 8 (sumNat [1, 1 * 2 ^ 10, 45 * 2 ^ 44, 77 * 2 ^ 50]) }, (fun s : State => setLink 45 { linkOf s 45 with window := some 77 } s) (port 3), by refine ⟨by unfold Claim.dataTaken Claim.linkIdle; exact ⟨by decide +kernel, by decide +kernel, flitOk_sealed _ _, by decide +kernel, by decide +kernel⟩, ?_, ?_, ?_, ?_, ?_, ?_, ?_, ?_⟩ <;> decide +kernel⟩,
   ⟨46, Flit.sealed 1 { seq := 1, vc := 1, last := true, dst := 0, src := 256, body := [0x77#8] }, port 3, by refine ⟨by unfold Claim.dataTaken Claim.linkIdle; exact ⟨by decide +kernel, by decide +kernel, flitOk_sealed _ _, by decide +kernel, by decide +kernel⟩, ?_, ?_, ?_, ?_⟩ <;> decide +kernel⟩,
   ⟨46, Flit.sealed 1 { seq := 1, vc := 1, last := true, dst := 0, src := 256, body := [1#8] }, port 3 { accCr := [(1, 128)] }, by refine ⟨?_, flitOk_sealed _ _, ?_, ?_⟩ <;> first | decide +kernel | (unfold Claim.linkIdle; decide +kernel)⟩⟩

theorem test_meets_PacketsAssemble_2 :
    ∃ (l : Nat) (f : Flit) (s : State), Claim.linkIdle s l ∧ lnkState s l = 7 ∧ flitOk 1 f = true ∧ f.seq = (linkOf s l).rxExp ∧ vcUsed (linkOf s l) (f.vc % 8) < vcBuffer (f.vc % 8) :=
  ⟨46, Flit.sealed 1 { seq := 1, vc := 1, last := true, dst := 0, src := 256, body := [1#8] }, port 7, by refine ⟨?_, ?_, flitOk_sealed _ _, ?_, ?_⟩ <;> first | decide +kernel | (unfold Claim.linkIdle; decide +kernel)⟩

theorem test_meets_LinkTimers_1 :
    (∃ (l : Nat) (s : State), Claim.linkIdle s l ∧ (linkOf s l).retry.length < 512) ∧
    (∃ (l : Nat) (s : State), linkTakes s l = true ∧ (linkOf s l).waitQ = [] ∧ 512 ≤ (linkOf s l).retry.length) ∧
    (∃ (l : Nat) (s : State), (linkTakes s l = false ∨ (linkOf s l).waitQ.any (fun f => f.kind == 3) = true)) ∧
    (∃ (l : Nat) (s : State), linkTakes s l = true ∧ lnkState s l ≠ 5 ∧ (linkOf s l).retry ≠ [] ∧ rbits s (reg .LNK_STAT l) 10 9 < 2) ∧
    (∃ (l : Nat) (s : State), linkTakes s l = true ∧ lnkState s l ≠ 5 ∧ (linkOf s l).retry ≠ [] ∧ 2 ≤ rbits s (reg .LNK_STAT l) 10 9) ∧
    (∃ (l : Nat) (s : State), (linkTakes s l = false ∨ lnkState s l = 5 ∨ (linkOf s l).retry = [])) ∧
    (∃ (l : Nat) (s : State), l < 48 ∧ outputsOn s = true ∧ lnkState s l = 5 ∧ mayTrain s l = true) ∧
    (∃ (l : Nat) (s : State), l < 48 ∧ outputsOn s = true ∧ lnkState s l = 5 ∧ gateBlocks s l = true) :=
  ⟨⟨46, port 3, by unfold Claim.linkIdle; decide +kernel⟩,
   ⟨46, port 3 { retry := List.replicate 512 { seq := 5, kind := 1 } }, by decide +kernel⟩,
   ⟨46, port 1, by decide +kernel⟩,
   ⟨46, port 3 { retry := [{ seq := 5, kind := 1, bytes := cleanBytes [1#8] }] }, by decide +kernel⟩,
   ⟨46, port 1027 { retry := [{ seq := 5, kind := 1, bytes := cleanBytes [1#8] }] }, by decide +kernel⟩,
   ⟨46, port 1, by decide +kernel⟩,
   ⟨46, port 5, by decide +kernel⟩,
   ⟨46, withRegs [(reg .GATE_LINK_MASK, 0#64)] (port 5), by decide +kernel⟩⟩

theorem test_meets_LinkTimers_2 :
    (∃ (l : Nat) (s : State), lnkState s l ≠ 5) ∧
    (∃ (l : Nat) (s : State), l < 48 ∧ outputsOn s = true ∧ lnkState s l = 6 ∧ (linkOf s l).soakBad = false) ∧
    (∃ (l : Nat) (s : State), l < 48 ∧ outputsOn s = true ∧ lnkState s l = 6 ∧ (linkOf s l).soakBad = true) ∧
    (∃ (l : Nat) (s : State), lnkState s l ≠ 6) :=
  ⟨⟨46, port 3, by decide +kernel⟩,
   ⟨46, port 6, by decide +kernel⟩,
   ⟨46, port 6 { soakBad := true }, by decide +kernel⟩,
   ⟨46, port 3, by decide +kernel⟩⟩

theorem test_meets_LinksTrainAndDegrade_1 :
    (∃ (l : Nat) (lanes : Nat) (s : State), l < 48 ∧ outputsOn s = true ∧ bit (rget s (reg .GATE_LINK_MASK)) l = true ∧ lnkState s l = 1 ∧ 1 ≤ lanes ∧ lanes ≤ 3 ∧ (linkOf s l).waitQ = []) ∧
    (∃ (l : Nat) (lanes : Nat) (s : State), (lnkState s l ≠ 1 ∨ lanes = 0 ∨ 3 < lanes)) ∧
    (∃ (l : Nat) (f : Flit) (s : State), Claim.ctlTaken l f s ∧ lnkState s l = 2 ∧ nth 0#8 f.body 0 = 1#8 ∧ (peerIdentity s l).map idFields ≠ some (idFields f.body)) ∧
    (∃ (l : Nat) (f : Flit) (s : State), Claim.ctlTaken l f s ∧ lnkState s l = 2 ∧ nth 0#8 f.body 0 = 1#8 ∧ (peerIdentity s l).map idFields = some (idFields f.body)) ∧
    (∃ (l : Nat) (f : Flit) (s : State), Claim.ctlTaken l f s ∧ nth 0#8 f.body 0 ≠ 1#8 ∧ nth 0#8 f.body 0 ≠ 2#8) ∧
    (∃ (l : Nat) (f : Flit) (s : State), Claim.ctlTaken l f s ∧ lnkState s l = 4 ∧ nth 0#8 f.body 0 = 2#8 ∧ (nth 0#8 f.body 1 = 129#8 ∨ nth 0#8 f.body 1 = 130#8)) ∧
    (∃ (l : Nat) (pair : Nat) (f : Flit) (s : State), Claim.ctlTaken l f s ∧ lnkState s l = 3 ∧ nth 0#8 f.body 0 = 2#8 ∧ (pair = 1 ∨ pair = 2) ∧ nth 0#8 f.body 1 = BitVec.ofNat 8 pair) ∧
    (∃ (l : Nat) (pair : Nat) (f : Flit) (s : State), Claim.ctlTaken l f s ∧ lnkState s l = 4 ∧ (linkOf s l).degAnswered = false ∧ nth 0#8 f.body 0 = 2#8 ∧ (pair = 1 ∨ pair = 2) ∧ nth 0#8 f.body 1 = BitVec.ofNat 8 pair) :=
  ⟨⟨46, 1, port 1, by decide +kernel⟩,
   ⟨46, 3, port 3, by decide +kernel⟩,
   ⟨46, Flit.sealed 5 { seq := 1, body := [1#8, 2#8] }, port 2, by refine ⟨by unfold Claim.ctlTaken Claim.linkIdle; exact ⟨by decide +kernel, flitOk_sealed _ _, by decide +kernel⟩, ?_, ?_, ?_⟩ <;> decide +kernel⟩,
   ⟨46, Flit.sealed 5 { seq := 1, body := (peerIdentity (port 2) 46).getD [] }, port 2, by refine ⟨by unfold Claim.ctlTaken Claim.linkIdle; exact ⟨by decide +kernel, flitOk_sealed _ _, by decide +kernel⟩, ?_, ?_, ?_⟩ <;> decide +kernel⟩,
   ⟨46, Flit.sealed 5 { seq := 1, body := [3#8] }, port 3, by refine ⟨by unfold Claim.ctlTaken Claim.linkIdle; exact ⟨by decide +kernel, flitOk_sealed _ _, by decide +kernel⟩, ?_, ?_⟩ <;> decide +kernel⟩,
   ⟨46, Flit.sealed 5 { seq := 1, body := [2#8, 129#8] }, port 4, by refine ⟨by unfold Claim.ctlTaken Claim.linkIdle; exact ⟨by decide +kernel, flitOk_sealed _ _, by decide +kernel⟩, ?_, ?_, ?_⟩ <;> decide +kernel⟩,
   ⟨46, 1, Flit.sealed 5 { seq := 1, body := [2#8, 1#8] }, port 3, by refine ⟨by unfold Claim.ctlTaken Claim.linkIdle; exact ⟨by decide +kernel, flitOk_sealed _ _, by decide +kernel⟩, ?_, ?_, ?_, ?_⟩ <;> decide +kernel⟩,
   ⟨46, 1, Flit.sealed 5 { seq := 1, body := [2#8, 1#8] }, port 4 { degPair := 2 }, by refine ⟨by unfold Claim.ctlTaken Claim.linkIdle; exact ⟨by decide +kernel, flitOk_sealed _ _, by decide +kernel⟩, ?_, ?_, ?_, ?_, ?_⟩ <;> decide +kernel⟩⟩

theorem test_meets_LinksTrainAndDegrade_2 :
    (∃ (l : Nat) (f : Flit) (s : State), Claim.ctlTaken l f s ∧ nth 0#8 f.body 0 = 2#8 ∧ (nth 0#8 f.body 1 = 0#8 ∨ nth 0#8 f.body 1 = 3#8)) ∧
    (∃ (l : Nat) (syms : List Nat) (s : State), linkTakes s l = true ∧ (∀ i, i < 4 → nth 0 syms i ≤ rbits s (reg .LNK_DEGRADE_THR l) 15 0)) ∧
    (∃ (l : Nat) (a : Nat) (syms : List Nat) (s : State), linkTakes s l = true ∧ lnkState s l = 3 ∧ rbits s (reg .LNK_STAT l) 4 3 = 3 ∧ rbits s (reg .LNK_DEGRADE_THR l) 15 0 ≠ 0 ∧ a < 4 ∧ rbits s (reg .LNK_DEGRADE_THR l) 15 0 < nth 0 syms a ∧ (∀ i, i < 4 → i / 2 ≠ a / 2 → nth 0 syms i ≤ rbits s (reg .LNK_DEGRADE_THR l) 15 0)) ∧
    (∃ (l : Nat) (s : State), linkTakes s l = true ∧ lnkState s l = 4 ∧ (linkOf s l).degAnswered = true ∧ (linkOf s l).retry = []) ∧
    (∃ (l : Nat) (s : State), linkTakes s l = true ∧ lnkState s l = 4 ∧ (linkOf s l).drained = true ∧ ((linkOf s l).degPair = 1 ∨ (linkOf s l).degPair = 2) ∧ (linkOf s l).waitQ = []) ∧
    (∃ (l : Nat) (s : State), linkTakes s l = false) ∧
    (∃ (l : Nat) (s : State), (linkTakes s l = false ∨ lnkState s l ≠ 4 ∨ (linkOf s l).degAnswered = false ∨ (linkOf s l).retry ≠ [])) ∧
    (∃ (l : Nat) (s : State), (linkTakes s l = false ∨ lnkState s l ≠ 4 ∨ (linkOf s l).drained = false)) :=
  ⟨⟨46, Flit.sealed 5 { seq := 1, body := [2#8, 0#8] }, port 3, by refine ⟨by unfold Claim.ctlTaken Claim.linkIdle; exact ⟨by decide +kernel, flitOk_sealed _ _, by decide +kernel⟩, ?_, ?_⟩ <;> decide +kernel⟩,
   ⟨46, [0, 0, 0, 0], port 3, by decide +kernel⟩,
   ⟨46, 0, (List.replicate 4 0).set 0 101, withRegs [(reg .LNK_DEGRADE_THR 46, 100#64), (reg .LNK_STAT 46, 0x1B#64)] (port 3), by decide +kernel⟩,
   ⟨46, port 4 { degAnswered := true }, by decide +kernel⟩,
   ⟨46, port 4 { drained := true, degPair := 2 }, by decide +kernel⟩,
   ⟨46, port 1, by decide +kernel⟩,
   ⟨46, port 1, by decide +kernel⟩,
   ⟨46, port 1, by decide +kernel⟩⟩

theorem test_meets_PacketsTakeEffect_1 :
    (∃ (p : RxPkt) (t : Nat) (off : Nat) (s : State), Claim.received s 0x01 p ∧ bit p.w0 9 = false ∧ bits p.w1 47 0 = winBase + t * 0x100000 + off ∧ Claim.windowOpen s t ∧ 0 < p.data.length ∧ off + p.data.length ≤ winTop ∧ (wordsOf off p.data.length).all (fun w => winWritable (tileOf s t) (max w off)) = true ∧ s.flitErr = [] ∧ anyPoison p.data = false) ∧
    (∃ (p : RxPkt) (t : Nat) (off : Nat) (s : State), Claim.received s 0x01 p ∧ bits p.w1 47 0 = winBase + t * 0x100000 + off ∧ off + p.data.length ≤ winTop ∧ t < numTiles ∧ tileState s t = 2) ∧
    (∃ (p : RxPkt) (a : Nat) (s : State), Claim.received s 0x01 p ∧ bit p.w0 9 = false ∧ a = bits p.w1 47 0 ∧ a % 64 + p.data.length ≤ 64 ∧ 0 < p.data.length ∧ a < stackTop ∧ stkWaits s a p.data.length = false ∧ stkPresent s a = true ∧ placeLost s (physOf s (backing s false a)) = false ∧ s.flitErr = [] ∧ s.stk.flips = [] ∧ anyPoison p.data = false) ∧
    (∃ (p : RxPkt) (s : State), Claim.received s 0x01 p ∧ bit p.w0 9 = false ∧ winBase + 0x48000000 ≤ bits p.w1 47 0) ∧
    (∃ (p : RxPkt) (m : Nat) (second : Bool) (first : Bool) (s : State), Claim.received s 0x01 p ∧ bit p.w0 9 = true ∧ winBase + 0x48000000 ≤ bits p.w1 47 0 ∧ nextHop s none (ownId s) p.src (bits p.w0 43 28) = .out m second first ∧ (linkOf s m).waitQ = []) ∧
    (∃ (s : State), s.fab.rx = []) ∧
    (∃ (p : RxPkt) (w : PutWait) (s : State), Claim.received s 0x02 p ∧ s.fab.puts = [w] ∧ w.dst = p.src ∧ w.tag = bits p.w0 43 28 ∧ bits p.w0 15 12 = 0 ∧ w.cmd.ring < 8 ∧ bit w.cmd.w0 18 = false ∧ Claim.ringOpen s (cplOf s w.cmd.ring) = true) ∧
    (∃ (p : RxPkt) (w : PutWait) (st : Nat) (s : State), Claim.received s 0x02 p ∧ s.fab.puts = [w] ∧ w.dst = p.src ∧ w.tag = bits p.w0 43 28 ∧ bits p.w0 15 12 = st ∧ 1 ≤ st ∧ st ≤ 3 ∧ w.cmd.ring < 8 ∧ Claim.ringOpen s (cplOf s w.cmd.ring) = true) :=
  ⟨⟨pkt 1#64 (w64 (winBase + 1151 * 0x100000 + 0xBFFFF)) [0xAB#8], 1151, 0xBFFFF, { up with fab := { rx := [(pkt 1#64 (w64 (winBase + 1151 * 0x100000 + 0xBFFFF)) [0xAB#8])] } }, by unfold Claim.received Claim.windowOpen; decide +kernel⟩,
   ⟨pkt 1#64 (w64 (winBase + 1151 * 0x100000 + 0xBFFFF)) [0xAB#8], 1151, 0xBFFFF, (fun s : State => { s with fab := { s.fab with rx := [(pkt 1#64 (w64 (winBase + 1151 * 0x100000 + 0xBFFFF)) [0xAB#8])] } }) (withRegs [(reg .TILE_STATE 1151, 2#64)]), by unfold Claim.received; decide +kernel⟩,
   ⟨pkt 1#64 0x5FFFFFFFFE#64 [0xAB#8, 0xCD#8], 0x5FFFFFFFFE, (fun s : State => { s with fab := { s.fab with rx := [(pkt 1#64 0x5FFFFFFFFE#64 [0xAB#8, 0xCD#8])] } }) (up), by unfold Claim.received; decide +kernel⟩,
   ⟨pkt 1#64 (w64 (winBase + 0x48000000)) [0xAB#8], (fun s : State => { s with fab := { s.fab with rx := [(pkt 1#64 (w64 (winBase + 0x48000000)) [0xAB#8])] } }) (up), by unfold Claim.received; decide +kernel⟩,
   ⟨pkt (dw [(0, 1), (9, 1), (28, 9)]) (w64 (winBase + 0x48000000)) [0xAB#8], 46, false, false, (fun s : State => { s with fab := { s.fab with rx := [(pkt (dw [(0, 1), (9, 1), (28, 9)]) (w64 (winBase + 0x48000000)) [0xAB#8])] } }) (port 3), by unfold Claim.received; decide +kernel⟩,
   ⟨up, by decide +kernel⟩,
   ⟨pkt (dw [(0, 2), (28, 9)]) 0#64 [], { tag := 9, dst := 256, cmd := { cmd7 with w0 := 0x404#64 } }, ringsOn { up with fab := { rx := [(pkt (dw [(0, 2), (28, 9)]) 0#64 [])], puts := [{ tag := 9, dst := 256, cmd := { cmd7 with w0 := 0x404#64 } }] }, cox := { running := [{ cmd7 with w0 := 0x404#64 }] } }, by unfold Claim.received; decide +kernel⟩,
   ⟨pkt (dw [(0, 2), (12, 1), (28, 9)]) 0#64 [], { tag := 9, dst := 256, cmd := { cmd7 with w0 := 0x404#64 } }, 1, ringsOn { up with fab := { rx := [(pkt (dw [(0, 2), (12, 1), (28, 9)]) 0#64 [])], puts := [({ tag := 9, dst := 256, cmd := { cmd7 with w0 := 0x404#64 } })] }, cox := { running := [{ cmd7 with w0 := 0x404#64 }] } }, by unfold Claim.received; decide +kernel⟩⟩

theorem test_meets_PacketsTakeEffect_2 :
    (∃ (p : RxPkt) (s : State), Claim.received s 0x20 p ∧ bits p.w1 1 0 < 3) ∧
    (∃ (p : RxPkt) (w : PutWait) (s : State), Claim.received s 0x21 p ∧ bits p.w1 23 16 = 0x01 ∧ s.fab.puts = [w] ∧ w.dst = bits p.w1 11 0 ∧ w.tag = bits p.w0 43 28 ∧ w.cmd.ring < 8 ∧ Claim.ringOpen s (cplOf s w.cmd.ring) = true) ∧
    (∃ (d : Nat) (c : Nat) (l : Nat) (s : State), d < 3 ∧ outputsOn s = true ∧ groupSize s d = 2 ∧ ownCoord s d = 1 - c ∧ c < 2 ∧ liveBond s d c = [l] ∧ (linkOf s (linkOfRole s d l)).waitQ = [] ∧ (∀ k, k < 3 → coordOf (ownId s) k = ownCoord s k)) ∧
    (∃ (d : Nat) (s : State), (3 ≤ d ∨ outputsOn s = false ∨ (∀ j, j < 15 → (portOffset (groupSize s d) j).isSome = true → lnkState s (linkOfRole s d j) = 3))) :=
  ⟨⟨pkt 0x20#64 (dw [(0, 2), (4, 1), (16, 0x8001)]) [], { up with fab := { rx := [(pkt 0x20#64 (dw [(0, 2), (4, 1), (16, 0x8001)]) [])] } }, by unfold Claim.received; decide +kernel⟩,
   ⟨pkt (dw [(0, 0x21), (28, 9)]) (dw [(0, 256), (16, 1)]) [], { tag := 9, dst := 256, cmd := { cmd7 with w0 := 0x404#64 } }, ringsOn { up with fab := { rx := [(pkt (dw [(0, 0x21), (28, 9)]) (dw [(0, 256), (16, 1)]) [])], puts := [{ tag := 9, dst := 256, cmd := { cmd7 with w0 := 0x404#64 } }] }, cox := { running := [{ cmd7 with w0 := 0x404#64 }] } }, by unfold Claim.received; decide +kernel⟩,
   ⟨2, 1, 14, port 3, by decide +kernel⟩,
   ⟨3, up, by decide +kernel⟩⟩

theorem test_meets_FramesRefusedHeldOrQuiet_1 :
    (∃ (ring : Nat) (f : Frame) (s : State), cmdReady s ring f = true ∧ catalogue.contains (bits f.w0 15 0) = false ∧ Claim.ringOpen s (cplOf s ring) = true) ∧
    (∃ (k : Nat) (ring : Nat) (f : Frame) (s : State), k < 44 ∧ (cmdReady s ring f = false ∨ bits f.w0 15 0 ≠ (Claim.mailForm k).1)) ∧
    (∃ (k : Nat) (ring : Nat) (f : Frame) (s : State), k < 44 ∧ cmdReady s ring f = true ∧ bits f.w0 15 0 = (Claim.mailForm k).1 ∧ groupOn s ring (Claim.mailForm k).1 = false ∧ Claim.frameWaits (Claim.mailForm k) f s = false ∧ Claim.ringOpen s (cplOf s ring) = true) ∧
    (∃ (k : Nat) (ring : Nat) (f : Frame) (s : State), k < 44 ∧ cmdReady s ring f = true ∧ bits f.w0 15 0 = (Claim.mailForm k).1 ∧ groupOn s ring (Claim.mailForm k).1 = true ∧ frameOk f (Claim.mailForm k).2 = false ∧ Claim.frameWaits (Claim.mailForm k) f s = false ∧ Claim.ringOpen s (cplOf s ring) = true) ∧
    (∃ (k : Nat) (ring : Nat) (f : Frame) (s : State), k < 44 ∧ groupOn s ring (Claim.mailForm k).1 = true ∧ frameOk f (Claim.mailForm k).2 = true ∧ Claim.frameWaits (Claim.mailForm k) f s = true) ∧
    (∃ (ring : Nat) (f : Frame) (s : State), (cmdReady s ring f = false ∨ catalogue.contains (bits f.w0 15 0) = true)) ∧
    (∃ (ring : Nat) (f : Frame) (s : State), Claim.taken s ring 0x0A00 f { ops := [maskAll] } ∧ assist s 13 = false ∧ bit f.w0 18 = true) ∧
    (∃ (ring : Nat) (f : Frame) (s : State), cmdReady s ring f = true ∧ catalogue.contains (bits f.w0 15 0) = false ∧ cplEnabled s (cplOf s ring) = false ∧ framesAhead s ring = 0 ∧ SMap.get false s.cox.unreg (cplOf s ring) = true) :=
  ⟨⟨7, fr 0x0E00 (0#64), ringsOn, by decide +kernel⟩,
   ⟨0, 7, fr 0x0E00, ringsOn, by decide +kernel⟩,
   ⟨0, 7, fr 0x100, withRegs [(reg .MBX_CMD_CFG 7, 0x0000170#64)] ringsOn, by decide +kernel⟩,
   ⟨0, 7, { w0 := w64 0x100, w5 := 5#64 }, ringsOn, by decide +kernel⟩,
   ⟨0, 7, { w0 := 0x100#64, w6 := 0#64, w7 := 0x100000040#64 }, ringsOn (withRegs ((List.range 8).map (fun n => (reg .STK_TEMP n, 0x300#64)))), by decide +kernel⟩,
   ⟨7, fr 0x0E00, up, by decide +kernel⟩,
   ⟨7, fr 0x40A00 5#64, ringsOn, by unfold Claim.taken; decide +kernel⟩,
   ⟨7, fr 0x0E00 (0#64), (fun s : State => { s with cox := { s.cox with unreg := [(7, true)] } }) (withRegs [(reg .MBX_CPL_CFG 7, 0x700#64)] ringsOn), by decide +kernel⟩⟩

theorem test_meets_FramesRefusedHeldOrQuiet_2 :
    (∃ (ring : Nat) (f : Frame) (s : State), cmdReady s ring f = true ∧ catalogue.contains (bits f.w0 15 0) = false ∧ cplEnabled s (cplOf s ring) = false ∧ framesAhead s ring = 0 ∧ SMap.get false s.cox.unreg (cplOf s ring) = false) ∧
    (∃ (ring : Nat) (f : Frame) (s : State), cmdReady s ring f = true ∧ catalogue.contains (bits f.w0 15 0) = false ∧ framesAhead s ring ≠ 0) :=
  ⟨⟨7, fr 0x0E00 (0#64), withRegs [(reg .MBX_CPL_CFG 7, 0x700#64)] ringsOn, by decide +kernel⟩,
   ⟨7, fr 0x0E00 (0#64), (fun s : State => { s with cox := { s.cox with running := [⟨7, 4, 0x0600#64⟩] } }) (ringsOn), by decide +kernel⟩⟩

theorem test_meets_ConfigurationCommands_1 :
    (∃ (ring : Nat) (f : Frame) (s : State), Claim.taken s ring 0x0101 f ({ ops := [maskBits 0 0] }) ∧ bit f.w0 18 = false ∧ Claim.ringOpen s (cplOf s ring) = true ∧ s.cox.lock = none) ∧
    (∃ (ring : Nat) (f : Frame) (s : State), Claim.taken s ring 0x0102 f ({ ops := [maskBits 15 0], buf := true }) ∧ bit f.w0 18 = false ∧ Claim.ringOpen s (cplOf s ring) = true ∧ s.cox.lock = none ∧ bit f.w7 32 = false ∧ bits f.w1 15 0 + bufLen f ≤ cfgLen) ∧
    (∃ (ring : Nat) (f : Frame) (s : State), Claim.taken s ring 0x0103 f ({ ops := [maskBits 16 0], buf := true }) ∧ bit f.w0 18 = false ∧ Claim.ringOpen s (cplOf s ring) = true ∧ bit f.w7 32 = false ∧ bits f.w1 15 0 + bufLen f ≤ cfgLen) ∧
    (∃ (ring : Nat) (f : Frame) (s : State), Claim.taken s ring 0x0100 f ({ buf := true }) ∧ bit f.w0 18 = false ∧ Claim.ringOpen s (cplOf s ring) = true ∧ bit f.w7 32 = false ∧ 64 ≤ bufLen f) ∧
    (∃ (ring : Nat) (f : Frame) (s : State), Claim.taken s ring 0x0301 f ({ ops := [maskBits 3 0] }) ∧ bit f.w0 18 = false ∧ Claim.ringOpen s (cplOf s ring) = true ∧ s.cox.lock = none) ∧
    (∃ (ring : Nat) (f : Frame) (s : State), Claim.taken s ring 0x0300 f ({ ops := [maskBits 3 0, maskAll, maskBits 5 0] }) ∧ bit f.w0 18 = false ∧ Claim.ringOpen s (cplOf s ring) = true ∧ s.cox.lock = none ∧ f.w2.toNat % 2 ^ 17 = 0 ∧ f.w2.toNat < stackTop ∧ localsOk (SMap.putList 0#8 s.cox.staging (0x240 + 16 * bits f.w1 3 0) (leBytes 8 (f.w2.toNat + 1) ++ leBytes 8 (bits f.w3 5 0))) = true) ∧
    (∃ (ring : Nat) (f : Frame) (s : State), Claim.taken s ring 0x0400 f ({ ops := [maskBits 3 0, 0xFFFFFF1#64] }) ∧ bit f.w0 18 = false ∧ Claim.ringOpen s (cplOf s ring) = true ∧ s.cox.lock = none) ∧
    (∃ (ring : Nat) (f : Frame) (s : State), Claim.taken s ring 0x0401 f ({ ops := [maskBits 3 0] }) ∧ bit f.w0 18 = false ∧ Claim.ringOpen s (cplOf s ring) = true ∧ s.cox.lock = none) :=
  ⟨⟨7, fr 0x0101 (1#64), ringsOn, by unfold Claim.taken; decide +kernel⟩,
   ⟨7, frb 0x0102 (w64 (cfgLen - 2)) [1#8, 2#8], ringsOn, by unfold Claim.taken; decide +kernel⟩,
   ⟨7, frb 0x0103 (w64 (cfgLen - 2 + 65536)) [] 2, ringsOn, by unfold Claim.taken; decide +kernel⟩,
   ⟨7, frb 0x0100 0#64 [] 64, ringsOn, by unfold Claim.taken; decide +kernel⟩,
   ⟨7, fr 0x0301 (15#64), ringsOn, by unfold Claim.taken; decide +kernel⟩,
   ⟨7, fr 0x0300 15#64 0x5F00000000#64 20#64, ringsOn, by unfold Claim.taken; decide +kernel⟩,
   ⟨7, fr 0x0400 15#64 0xFFFFFF1#64, ringsOn, by unfold Claim.taken; decide +kernel⟩,
   ⟨7, fr 0x0401 (15#64), ringsOn, by unfold Claim.taken; decide +kernel⟩⟩

theorem test_meets_ConfigurationCommands_2 :
    (∃ (ring : Nat) (f : Frame) (s : State), Claim.taken s ring 0x0405 f ({ ops := [0xFF3#64] }) ∧ bit f.w0 18 = false ∧ Claim.ringOpen s (cplOf s ring) = true ∧ assist s 9 = true ∧ routeFormOk s (bits f.w1 1 0) (bits f.w1 7 4) = true ∧ routeFormOk s (bits f.w1 1 0) (bits f.w1 11 8) = true ∧ bits f.w1 11 8 ≠ bits f.w1 7 4) ∧
    (∃ (ring : Nat) (f : Frame) (s : State), Claim.taken s ring 0x0406 f ({ ops := [0xF3#64] }) ∧ bit f.w0 18 = false ∧ Claim.ringOpen s (cplOf s ring) = true ∧ assist s 9 = true ∧ routeFormOk s (bits f.w1 1 0) (bits f.w1 7 4) = true) ∧
    (∃ (ring : Nat) (f : Frame) (s : State), Claim.taken s ring 0x0A00 f ({ ops := [maskAll] }) ∧ bit f.w0 18 = false ∧ Claim.ringOpen s (cplOf s ring) = true ∧ assist s 13 = false) ∧
    (∃ (ring : Nat) (f : Frame) (s : State), Claim.taken s ring 0x0A00 f ({ ops := [maskAll] }) ∧ Claim.ringOpen s (cplOf s ring) = true ∧ assist s 13 = true) ∧
    (∃ (k : Nat) (r : CmdRef) (ring : Nat) (f : Frame) (s : State), [1, 2, 15, 16, 20, 21].contains k = true ∧ Claim.taken s ring (Claim.mailForm k).1 f (Claim.mailForm k).2 ∧ Claim.ringOpen s (cplOf s ring) = true ∧ s.cox.lock = some r) ∧
    (∃ (ring : Nat) (f : Frame) (s : State), Claim.taken s ring 0x0102 f ({ ops := [maskBits 15 0], buf := true }) ∧ Claim.ringOpen s (cplOf s ring) = true ∧ s.cox.lock = none ∧ cfgLen < bits f.w1 15 0 + bufLen f) ∧
    (∃ (ring : Nat) (f : Frame) (s : State), Claim.taken s ring 0x0103 f ({ ops := [maskBits 16 0], buf := true }) ∧ Claim.ringOpen s (cplOf s ring) = true ∧ cfgLen < bits f.w1 15 0 + bufLen f) ∧
    (∃ (ring : Nat) (f : Frame) (s : State), Claim.taken s ring 0x0100 f ({ buf := true }) ∧ Claim.ringOpen s (cplOf s ring) = true ∧ bufLen f < 64) :=
  ⟨⟨7, fr 0x0405 (dw [(0, 2), (4, 15), (8, 14)]), ringsOn (withRegs [(reg .FAB_COORD, dw [(32, 15)]), (reg .MBX_ASSIST, 0x200#64)]), by unfold Claim.taken; decide +kernel⟩,
   ⟨7, fr 0x0406 (dw [(0, 2), (4, 15)]), ringsOn (withRegs [(reg .FAB_COORD, dw [(32, 15)]), (reg .MBX_ASSIST, 0x200#64)]), by unfold Claim.taken; decide +kernel⟩,
   ⟨7, fr 0x0A00 (0xFFFFFFFFFFFFFFFF#64), ringsOn, by unfold Claim.taken; decide +kernel⟩,
   ⟨7, fr 0x0A00 (5#64), ringsOn (withRegs [(reg .MBX_ASSIST, 0x2000#64)]), by unfold Claim.taken; decide +kernel⟩,
   ⟨1, cmd7, 7, fr 0x101, (fun s : State => { s with cox := { s.cox with lock := some cmd7 } }) (ringsOn), by unfold Claim.taken; decide +kernel⟩,
   ⟨7, frb 0x102 (w64 (cfgLen - 1)) [1#8, 2#8], ringsOn, by unfold Claim.taken; decide +kernel⟩,
   ⟨7, frb 0x103 (w64 (cfgLen - 1)) [] 2, ringsOn, by unfold Claim.taken; decide +kernel⟩,
   ⟨7, frb 0x100 0#64 [] 63, ringsOn, by unfold Claim.taken; decide +kernel⟩⟩

theorem test_meets_ConfigurationCommands_3 :
    (∃ (ring : Nat) (f : Frame) (s : State), Claim.taken s ring 0x0300 f ({ ops := [maskBits 3 0, maskAll, maskBits 5 0] }) ∧ Claim.ringOpen s (cplOf s ring) = true ∧ s.cox.lock = none ∧ (f.w2.toNat % 2 ^ 17 ≠ 0 ∨ stackTop ≤ f.w2.toNat)) ∧
    (∃ (ring : Nat) (f : Frame) (s : State), Claim.taken s ring 0x0405 f ({ ops := [0xFF3#64] }) ∧ Claim.ringOpen s (cplOf s ring) = true ∧ assist s 9 = false) ∧
    (∃ (ring : Nat) (f : Frame) (s : State), Claim.taken s ring 0x0405 f ({ ops := [0xFF3#64] }) ∧ Claim.ringOpen s (cplOf s ring) = true ∧ assist s 9 = true ∧ (routeFormOk s (bits f.w1 1 0) (bits f.w1 7 4) = false ∨ routeFormOk s (bits f.w1 1 0) (bits f.w1 11 8) = false ∨ bits f.w1 11 8 = bits f.w1 7 4)) ∧
    (∃ (ring : Nat) (f : Frame) (s : State), Claim.taken s ring 0x0406 f ({ ops := [0xF3#64] }) ∧ Claim.ringOpen s (cplOf s ring) = true ∧ assist s 9 = false) ∧
    (∃ (ring : Nat) (f : Frame) (s : State), Claim.taken s ring 0x0406 f ({ ops := [0xF3#64] }) ∧ Claim.ringOpen s (cplOf s ring) = true ∧ assist s 9 = true ∧ routeFormOk s (bits f.w1 1 0) (bits f.w1 7 4) = false) :=
  ⟨⟨7, fr 0x300 15#64 0x10000#64 20#64, ringsOn, by unfold Claim.taken; decide +kernel⟩,
   ⟨7, fr 0x405 (0x120#64), ringsOn, by unfold Claim.taken; decide +kernel⟩,
   ⟨7, fr 0x405 (dw [(0, 3), (4, 1), (8, 2)]), ringsOn (withRegs [(reg .FAB_COORD, dw [(32, 15)]), (reg .MBX_ASSIST, 0x200#64)]), by unfold Claim.taken; decide +kernel⟩,
   ⟨7, fr 0x406 (0x20#64), ringsOn, by unfold Claim.taken; decide +kernel⟩,
   ⟨7, fr 0x406 (dw [(0, 3), (4, 1)]), ringsOn (withRegs [(reg .FAB_COORD, dw [(32, 15)]), (reg .MBX_ASSIST, 0x200#64)]), by unfold Claim.taken; decide +kernel⟩⟩

theorem test_meets_GroupAndRepairCommands_1 :
    (∃ (g : Nat) (ring : Nat) (f : Frame) (s : State), Claim.taken s ring 0x0210 f ({ ops := [maskBits 8 0 ||| maskBits 63 32] }) ∧ Claim.ringOpen s (cplOf s ring) = true ∧ 1 ≤ bits f.w1 8 0 ∧ bits f.w1 8 0 ≤ 256 ∧ freeSlot s = some g ∧ (∀ i, i < 32 → (bits f.w1 63 32).testBit i = true → shrValid s i = true ∧ restoring s i = false)) ∧
    (∃ (ring : Nat) (f : Frame) (s : State), Claim.taken s ring 0x0210 f ({ ops := [maskBits 8 0 ||| maskBits 63 32] }) ∧ Claim.ringOpen s (cplOf s ring) = true ∧ (bits f.w1 8 0 = 0 ∨ 256 < bits f.w1 8 0)) ∧
    (∃ (ring : Nat) (f : Frame) (s : State), Claim.taken s ring 0x0210 f ({ ops := [maskBits 8 0 ||| maskBits 63 32] }) ∧ Claim.ringOpen s (cplOf s ring) = true ∧ 1 ≤ bits f.w1 8 0 ∧ bits f.w1 8 0 ≤ 256 ∧ (List.range 32).any (fun i => (bits f.w1 63 32).testBit i && (!shrValid s i || restoring s i)) = true) ∧
    (∃ (ring : Nat) (f : Frame) (s : State), Claim.taken s ring 0x0210 f ({ ops := [maskBits 8 0 ||| maskBits 63 32] }) ∧ Claim.ringOpen s (cplOf s ring) = true ∧ 1 ≤ bits f.w1 8 0 ∧ bits f.w1 8 0 ≤ 256 ∧ bits f.w1 63 32 = 0 ∧ freeSlot s = none) ∧
    (∃ (ring : Nat) (f : Frame) (s : State), Claim.taken s ring 0x0212 f ({ ops := [maskBits 15 0] }) ∧ bit f.w0 18 = false ∧ Claim.ringOpen s (cplOf s ring) = true ∧ (cgStat s (bits f.w1 15 0) = 2 ∨ cgStat s (bits f.w1 15 0) = 3) ∧ (cgOf s (bits f.w1 15 0 % 16)).running = [] ∧ (cgOf s (bits f.w1 15 0 % 16)).jobs = 0) ∧
    (∃ (ring : Nat) (f : Frame) (s : State), Claim.taken s ring 0x0212 f ({ ops := [maskBits 15 0] }) ∧ Claim.ringOpen s (cplOf s ring) = true ∧ cgStat s (bits f.w1 15 0) ≠ 2 ∧ (cgStat s (bits f.w1 15 0) ≠ 3 ∨ (cgOf s (bits f.w1 15 0 % 16)).running ≠ [] ∨ (cgOf s (bits f.w1 15 0 % 16)).jobs ≠ 0)) ∧
    (∃ (ring : Nat) (f : Frame) (s : State), Claim.taken s ring 0x0211 f ({ ops := [maskBits 15 0] }) ∧ Claim.ringOpen s (cplOf s ring) = true ∧ (cgStat s (bits f.w1 15 0) ≠ 0 ∨ (cgOf s (bits f.w1 15 0 % 16)).internal = true)) ∧
    (∃ (ring : Nat) (f : Frame) (s : State), Claim.taken s ring 0x0211 f { ops := [maskBits 15 0] } ∧ cgStat s (bits f.w1 15 0) = 0 ∧ (cgOf s (bits f.w1 15 0 % 16)).internal = false) :=
  ⟨⟨0, 7, fr 0x0210 (256#64), ringsOn, by unfold Claim.taken; decide +kernel⟩,
   ⟨7, fr 0x210 (0#64), ringsOn, by unfold Claim.taken; decide +kernel⟩,
   ⟨7, fr 0x210 (dw [(0, 1), (63, 1)]), ringsOn, by unfold Claim.taken; decide +kernel⟩,
   ⟨7, fr 0x210 (5#64), ringsOn (withRegs ((List.range 16).map (fun g => (reg .CG_STATE g, 0#64)))), by unfold Claim.taken; decide +kernel⟩,
   ⟨7, fr 0x0212 (15#64), ringsOn (withRegs [(reg .CG_STATE 15, w64 2)]), by unfold Claim.taken; decide +kernel⟩,
   ⟨7, fr 0x0212 (15#64), ringsOn (withRegs [(reg .CG_STATE 15, w64 1)]), by unfold Claim.taken; decide +kernel⟩,
   ⟨7, fr 0x211 (15#64), ringsOn, by unfold Claim.taken; decide +kernel⟩,
   ⟨7, fr 0x0211 (15#64), ringsOn (withRegs [(reg .CG_STATE 15, w64 0)]), by unfold Claim.taken; decide +kernel⟩⟩

theorem test_meets_GroupAndRepairCommands_2 :
    (∃ (ring : Nat) (f : Frame) (s : State), Claim.taken s ring 0x0213 f ({ ops := [maskBits 4 0, maskAll, maskAll, maskBits 31 0] }) ∧ Claim.ringOpen s (cplOf s ring) = true ∧ (bits f.w4 31 0 = 0 ∨ shrPlaceOk s (bits f.w1 4 0) f.w2.toNat f.w3.toNat (bits f.w4 31 0) = false)) ∧
    (∃ (g : Nat) (ring : Nat) (f : Frame) (s : State), Claim.taken s ring 0x0213 f ({ ops := [maskBits 4 0, maskAll, maskAll, maskBits 31 0] }) ∧ Claim.ringOpen s (cplOf s ring) = true ∧ 0 < bits f.w4 31 0 ∧ shrPlaceOk s (bits f.w1 4 0) f.w2.toNat f.w3.toNat (bits f.w4 31 0) = true ∧ groupNames s (bits f.w1 4 0) = some g) ∧
    (∃ (ring : Nat) (f : Frame) (s : State), Claim.taken s ring 0x0213 f ({ ops := [maskBits 4 0, maskAll, maskAll, maskBits 31 0] }) ∧ Claim.ringOpen s (cplOf s ring) = true ∧ 0 < bits f.w4 31 0 ∧ shrPlaceOk s (bits f.w1 4 0) f.w2.toNat f.w3.toNat (bits f.w4 31 0) = true ∧ groupNames s (bits f.w1 4 0) = none ∧ restoring s (bits f.w1 4 0) = false ∧ shrValid s (bits f.w1 4 0) = true) ∧
    (∃ (ring : Nat) (f : Frame) (s : State), Claim.taken s ring 0x0213 f ({ ops := [maskBits 4 0, maskAll, maskAll, maskBits 31 0] }) ∧ bit f.w0 18 = false ∧ Claim.ringOpen s (cplOf s ring) = true ∧ 0 < bits f.w4 31 0 ∧ shrPlaceOk s (bits f.w1 4 0) f.w2.toNat f.w3.toNat (bits f.w4 31 0) = true ∧ groupNames s (bits f.w1 4 0) = none ∧ restoring s (bits f.w1 4 0) = false ∧ shrValid s (bits f.w1 4 0) = false) ∧
    (∃ (g : Nat) (ring : Nat) (f : Frame) (s : State), Claim.taken s ring 0x0214 f ({ ops := [maskBits 4 0] }) ∧ Claim.ringOpen s (cplOf s ring) = true ∧ groupNames s (bits f.w1 4 0) = some g) ∧
    (∃ (ring : Nat) (f : Frame) (s : State), Claim.taken s ring 0x0214 f ({ ops := [maskBits 4 0] }) ∧ bit f.w0 18 = false ∧ Claim.ringOpen s (cplOf s ring) = true ∧ groupNames s (bits f.w1 4 0) = none ∧ restoring s (bits f.w1 4 0) = false ∧ shrValid s (bits f.w1 4 0) = false) ∧
    (∃ (ring : Nat) (f : Frame) (s : State), Claim.taken s ring 0x0214 f ({ ops := [maskBits 4 0] }) ∧ Claim.ringOpen s (cplOf s ring) = true ∧ groupNames s (bits f.w1 4 0) = none ∧ restoring s (bits f.w1 4 0) = false ∧ shrValid s (bits f.w1 4 0) = true) ∧
    (∃ (ring : Nat) (f : Frame) (s : State), Claim.taken s ring 0x0304 f ({ ops := [maskBits 32 0] }) ∧ Claim.ringOpen s (cplOf s ring) = true ∧ assist s 8 = false) :=
  ⟨⟨7, fr 0x213 31#64 0x10000#64 0x20000#64 0#64, ringsOn, by unfold Claim.taken; decide +kernel⟩,
   ⟨0, 7, fr 0x213 31#64 0x10000#64 0x20000#64 1#64, (fun s : State => { withRegs [(reg .CG_STATE 15, 0#64), (reg .SHR_BASE 31, 1#64)] s with groups := [(15, { regions := 2 ^ 31 })] }) ringsOn, by unfold Claim.taken; decide +kernel⟩,
   ⟨7, fr 0x213 31#64 0x10000#64 0x20000#64 1#64, withRegs [(reg .SHR_BASE 31, 1#64)] ringsOn, by unfold Claim.taken; decide +kernel⟩,
   ⟨7, fr 0x0213 31#64 0x10000#64 0x5FFFFFF000#64 1#64, ringsOn, by unfold Claim.taken; decide +kernel⟩,
   ⟨0, 7, fr 0x214 31#64, (fun s : State => { withRegs [(reg .CG_STATE 15, 0#64), (reg .SHR_BASE 31, 1#64)] s with groups := [(15, { regions := 2 ^ 31 })] }) ringsOn, by unfold Claim.taken; decide +kernel⟩,
   ⟨7, fr 0x214 (31#64), ringsOn, by unfold Claim.taken; decide +kernel⟩,
   ⟨7, fr 0x0214 (31#64), ringsOn (withRegs [(reg .SHR_BASE 31, 1#64)]), by unfold Claim.taken; decide +kernel⟩,
   ⟨7, fr 0x304 (0#64), ringsOn, by unfold Claim.taken; decide +kernel⟩⟩

theorem test_meets_GroupAndRepairCommands_3 :
    (∃ (ring : Nat) (f : Frame) (s : State), Claim.taken s ring 0x0304 f ({ ops := [maskBits 32 0] }) ∧ Claim.ringOpen s (cplOf s ring) = true ∧ assist s 8 = true ∧ s.cox.proposals.find? (fun p => p.num == bits f.w1 31 0 && p.kind != 4 && !p.decided) = none) ∧
    (∃ (p : Proposal) (ring : Nat) (f : Frame) (s : State), Claim.taken s ring 0x0304 f ({ ops := [maskBits 32 0] }) ∧ bit f.w0 18 = false ∧ Claim.ringOpen s (cplOf s ring) = true ∧ assist s 8 = true ∧ s.cox.proposals.find? (fun p => p.num == bits f.w1 31 0 && p.kind != 4 && !p.decided) = some p ∧ bit f.w1 32 = false) ∧
    (∃ (p : Proposal) (ring : Nat) (f : Frame) (s : State), Claim.taken s ring 0x0304 f ({ ops := [maskBits 32 0] }) ∧ Claim.ringOpen s (cplOf s ring) = true ∧ assist s 8 = true ∧ s.cox.proposals.find? (fun p => p.num == bits f.w1 31 0 && p.kind != 4 && !p.decided) = some p ∧ bit f.w1 32 = true) :=
  ⟨⟨7, fr 0x304 (4#64), ringsOn (withRegs [(reg .MBX_ASSIST, 0x100#64)]), by unfold Claim.taken; decide +kernel⟩,
   ⟨{ num := 4, kind := 1, a := 7, b := 63, c := 5, d := 6 }, 7, fr 0x0304 (4#64), (fun s : State => { s with cox := { s.cox with proposals := [{ num := 4, kind := 1, a := 7, b := 63, c := 5, d := 6 }] } }) (ringsOn (withRegs [(reg .MBX_ASSIST, 0x180#64)])), by unfold Claim.taken; decide +kernel⟩,
   ⟨{ num := 4, kind := 1, a := 7, b := 63, c := 5, d := 6 }, 7, fr 0x0304 (dw [(0, 4), (32, 1)]), (fun s : State => { s with cox := { s.cox with proposals := [{ num := 4, kind := 1, a := 7, b := 63, c := 5, d := 6 }] } }) (ringsOn (withRegs [(reg .MBX_ASSIST, 0x180#64)])), by unfold Claim.taken; decide +kernel⟩⟩

theorem test_meets_CollectivesRun_1 :
    (∃ (ring : Nat) (a : Nat) (f : Frame) (c : Coll) (s : State), Claim.submits s ring a f ∧ anyPoison (stkPeek s a 128) = false ∧ c = Claim.collAt s ring a f ∧ collForm s c = true ∧ Claim.collPlaces s c = true ∧ s.fab.colls.length < 32 ∧ s.fab.paceHeld = []) ∧
    (∃ (ring : Nat) (f : Frame) (s : State), Claim.taken s ring 0x0402 f { ops := [maskBits 47 0] } ∧ stkWaits s (bits f.w1 47 0) 128 = false ∧ Claim.ringOpen s (cplOf s ring) = true ∧ assist s 12 = true) ∧
    (∃ (ring : Nat) (f : Frame) (s : State), Claim.taken s ring 0x0402 f { ops := [maskBits 47 0] } ∧ stkWaits s (bits f.w1 47 0) 128 = false ∧ Claim.ringOpen s (cplOf s ring) = true ∧ assist s 12 = false ∧ (stackTop < bits f.w1 47 0 + 128 ∨ (linesOf (bits f.w1 47 0) 128).all (fun l => stkPresent s l) = false)) ∧
    (∃ (ring : Nat) (a : Nat) (f : Frame) (s : State), Claim.submits s ring a f ∧ Claim.ringOpen s (cplOf s ring) = true ∧ (anyPoison (stkPeek s a 128) = true ∨ collForm s (Claim.collAt s ring a f) = false)) ∧
    (∃ (ring : Nat) (a : Nat) (f : Frame) (s : State), Claim.submits s ring a f ∧ Claim.ringOpen s (cplOf s ring) = true ∧ anyPoison (stkPeek s a 128) = false ∧ collForm s (Claim.collAt s ring a f) = true ∧ Claim.collPlaces s (Claim.collAt s ring a f) = false) ∧
    (∃ (ring : Nat) (a : Nat) (f : Frame) (s : State), Claim.submits s ring a f ∧ Claim.ringOpen s (cplOf s ring) = true ∧ anyPoison (stkPeek s a 128) = false ∧ collForm s (Claim.collAt s ring a f) = true ∧ Claim.collPlaces s (Claim.collAt s ring a f) = true ∧ 32 ≤ s.fab.colls.length) ∧
    (∃ (id : Nat) (c : Coll) (s : State), collOf s id = some c ∧ running s = true ∧ c.started = false ∧ (s.watch.met.contains (8, id) || startMet s c.startWord c.startVal) = true ∧ s.fab.colls.all (fun k => k.started || k.comm != c.comm || decide (c.seqNo ≤ k.seqNo)) = true ∧ Claim.nothingWaits s ∧ commN s c.comm 0 = 1 ∧ commN s c.comm 1 = 1 ∧ commN s c.comm 2 = 1) ∧
    (∃ (id : Nat) (c : Coll) (s : State), collOf s id = some c ∧ running s = true ∧ c.started = false ∧ (s.watch.met.contains (8, id) || startMet s c.startWord c.startVal) = true ∧ s.fab.colls.all (fun k => k.started || k.comm != c.comm || decide (c.seqNo ≤ k.seqNo)) = true ∧ Claim.nothingWaits s ∧ (∀ r, r < commSize s c.comm → r ≠ myRank s c → nextHop s none (ownId s) (rankId s c.comm r) 0 ≠ .none) ∧ (∀ q, q < 3 → partStages s c q ≠ [])) :=
  ⟨⟨7, 0x1000, fr 0x402 0x1000#64, Claim.collAt ((ringsOn (pair2 { port 3 with stk := { mem := stkMem 0x1000 (crec 1 96) } }))) 7 0x1000 ((fr 0x402 0x1000#64)), ringsOn (pair2 { port 3 with stk := { mem := stkMem 0x1000 (crec 1 96) } }), by unfold Claim.submits Claim.taken; decide +kernel⟩,
   ⟨7, fr 0x402 0x1000#64, ringsOn (withRegs [(reg .MBX_ASSIST, 0x1000#64)]), by unfold Claim.taken; decide +kernel⟩,
   ⟨7, fr 0x402 0x5FFFFFFFC0#64, ringsOn, by unfold Claim.taken; decide +kernel⟩,
   ⟨7, 0x1000, fr 0x402 0x1000#64, ringsOn, by unfold Claim.submits Claim.taken; decide +kernel⟩,
   ⟨7, 0x1000, fr 0x402 0x1000#64, ringsOn (pair2 { port 3 with stk := { mem := stkMem 0x1000 ((crec 1 96).take 16 ++ leBytes 8 0x5FFFFFFFF8 ++ (crec 1 96).drop 24) } }), by unfold Claim.submits Claim.taken; decide +kernel⟩,
   ⟨7, 0x1000, fr 0x402 0x1000#64, (fun s : State => { s with fab := { s.fab with colls := List.replicate 32 { rec_ := crec 1 96, cmd := cmd7 } } }) (ringsOn (pair2 { port 3 with stk := { mem := stkMem 0x1000 (crec 1 96) } })), by unfold Claim.submits Claim.taken; decide +kernel⟩,
   ⟨0xF0000005, { rec_ := crec 1 96, cmd := cmd7 }, withColl (({ rec_ := crec 1 96, cmd := cmd7 })) alone, by unfold Claim.nothingWaits; decide +kernel⟩,
   ⟨0xF0000005, { rec_ := crec 1 96, cmd := cmd7 }, withColl (({ rec_ := crec 1 96, cmd := cmd7 })), by unfold Claim.nothingWaits; decide +kernel⟩⟩

theorem test_meets_CollectivesRun_2 :
    (∃ (id : Nat) (s : State), (running s = false ∨ collOf s id = none)) ∧
    (∃ (id : Nat) (c : Coll) (s : State), collOf s id = some c ∧ (c.started = true ∨ (s.watch.met.contains (8, id) || startMet s c.startWord c.startVal) = false ∨ s.fab.colls.any (fun k => !k.started && k.comm == c.comm && decide (k.seqNo < c.seqNo)) = true)) ∧
    (∃ (id : Nat) (c : Coll) (s : State), collOf s id = some c ∧ c.complete = true ∧ c.lost = false ∧ c.doneWord = 0 ∧ s.fab.rx = [] ∧ c.cmd.ring < 8 ∧ bit c.cmd.w0 18 = false ∧ Claim.ringOpen s (cplOf s c.cmd.ring) = true) ∧
    (∃ (id : Nat) (c : Coll) (s : State), collOf s id = some c ∧ c.lost = true ∧ s.fab.rx = [] ∧ c.cmd.ring < 8 ∧ Claim.ringOpen s (cplOf s c.cmd.ring) = true) ∧
    (∃ (id : Nat) (c : Coll) (s : State), collOf s id = some c ∧ c.complete = false ∧ collLost s c = false) ∧
    (∃ (ring : Nat) (f : Frame) (c : Coll) (s : State), Claim.taken s ring 0x0403 f { ops := [maskBits 31 0] } ∧ collOf s (bits f.w1 31 0) = some c ∧ c.complete = false ∧ s.fab.rx = []) ∧
    (∃ (ring : Nat) (f : Frame) (s : State), Claim.taken s ring 0x0403 f ({ ops := [maskBits 31 0] }) ∧ Claim.ringOpen s (cplOf s ring) = true ∧ (match collOf s (bits f.w1 31 0) with | some c => c.complete | none => true) = true) :=
  ⟨⟨0xF0000005, up, by decide +kernel⟩,
   ⟨0xF0000005, { ({ rec_ := crec 1 96, cmd := cmd7 } : Coll) with started := true }, withColl (({ ({ rec_ := crec 1 96, cmd := cmd7 } : Coll) with started := true })), by decide +kernel⟩,
   ⟨0xF0000005, { rec_ := crec 1 96, cmd := cmd7, started := true, parts := [{ finished := true }, { finished := true }, { finished := true }] }, (fun s : State => { s with cox := { s.cox with running := [cmd7] } }) (ringsOn (withColl (({ rec_ := crec 1 96, cmd := cmd7, started := true, parts := [{ finished := true }, { finished := true }, { finished := true }] })))), by decide +kernel⟩,
   ⟨0xF0000005, { rec_ := crec 1 96, cmd := cmd7, started := true, lost := true }, (fun s : State => { s with cox := { s.cox with running := [cmd7] } }) (ringsOn (withColl (({ rec_ := crec 1 96, cmd := cmd7, started := true, lost := true })))), by decide +kernel⟩,
   ⟨0xF0000005, { rec_ := crec 3 96, cmd := cmd7, started := true, parts := [{}, {}, {}] }, withColl (({ rec_ := crec 3 96, cmd := cmd7, started := true, parts := [{}, {}, {}] })), by decide +kernel⟩,
   ⟨7, fr 0x403 (w64 0xF0000005), { rec_ := crec 1 96, cmd := cmd7 }, ringsOn (withColl (({ rec_ := crec 1 96, cmd := cmd7 }))), by unfold Claim.taken; decide +kernel⟩,
   ⟨7, fr 0x403 5#64, ringsOn, by unfold Claim.taken; decide +kernel⟩⟩

theorem test_meets_StagesAndSilence :
    (∃ (id : Nat) (q : Nat) (i : Nat) (d : Nat) (c : Coll) (s : State), collOf s id = some c ∧ running s = true ∧ c.started = true ∧ q < 3 ∧ c.parts.length = 3 ∧ (c.part q).finished = false ∧ (c.part q).stage = i ∧ (c.part q).todo = [] ∧ partStages s c q = (partStages s c q).take i ++ [(true, d)] ∧ (stageDue s c q i).all (dueHere (c.part q) i) = true ∧ c.reduces = false ∧ i < (partStages s c q).length ∧ Claim.nothingWaits s) ∧
    (∃ (id : Nat) (q : Nat) (c : Coll) (s : State), collOf s id = some c ∧ c.parts.length = 3 ∧ (c.part q).todo = [] ∧ (running s = false ∨ 3 ≤ q ∨ c.started = false ∨ (c.part q).finished = true ∨ (c.part q).stage < (partStages s c q).length ∧ (stageDue s c q (c.part q).stage).all (dueHere (c.part q) (c.part q).stage) = false)) ∧
    (∃ (p : RxPkt) (t : Nat) (o : Nat) (s : State), s.fab.rx = [p] ∧ bits p.w0 7 0 = 0x10 ∧ s.fab.staged = [] ∧ s.flitErr = [] ∧ 16 ≤ p.data.length ∧ anyPoison p.data = false ∧ stageSlot s (engineOf s (leNat (rawBytes ((p.data.drop 4).take 4)))) = some (t, o) ∧ (match collOf s (leNat (rawBytes (p.data.take 4))) with | some c => c.started | none => false) = false) ∧
    (∃ (p : RxPkt) (s : State), s.fab.rx = [p] ∧ s.fab.staged = [] ∧ stageSlot s (engineOf s (leNat (rawBytes ((p.data.drop 4).take 4)))) = none) ∧
    (∃ (g : Staged) (c : Coll) (r : Nat) (q : Nat) (i : Nat) (d : Due) (s : State), Claim.placed s g c r q i d ∧ (c.part q).stage ≤ i ∧ (c.part q).got = []) ∧
    (∃ (g : Staged) (c : Coll) (r : Nat) (q : Nat) (i : Nat) (d : Due) (s : State), Claim.placed s g c r q i d ∧ (i < (c.part q).stage ∨ (c.part q).got.any (fun x => x.1 == i && x.2.1 == d.key && x.2.2.off == d.off + (headNum g.head 4 4 - d.idx) * segEls d.fmt) = true)) ∧
    (∃ (id : Nat) (rank : Nat) (q : Nat) (i : Nat) (e : Due) (c : Coll) (s : State), collOf s id = some c ∧ c.started = true ∧ c.due ≠ 0 ∧ c.due < (epoch s).toNat ∧ s.fab.rx = [] ∧ s.fab.staged = [] ∧ q < 3 ∧ i < (partStages s c q).length ∧ (c.part q).stage ≤ i ∧ (c.part q).finished = false ∧ e ∈ stageDue s c q i ∧ e.sender = rank ∧ dueHere (c.part q) i e = false ∧ max (max (SMap.get 0 c.heard rank) (SMap.get 0 c.silent rank)) c.startAt + c.silence * 1000 ≤ (epoch s).toNat) ∧
    (∃ (id : Nat) (rank : Nat) (c : Coll) (s : State), collOf s id = some c ∧ (c.started = false ∨ c.due = 0 ∨ (epoch s).toNat ≤ c.due ∨ (epoch s).toNat < max (max (SMap.get 0 c.heard rank) (SMap.get 0 c.silent rank)) c.startAt + c.silence * 1000)) :=
  ⟨⟨0xF0000005, 0, 0, 2, { rec_ := crec 3 96, cmd := cmd7, started := true, parts := [{ got := (stageDue (pair2) { rec_ := crec 3 96, cmd := cmd7, started := true, parts := [{}, {}, {}] } 0 0).map (fun e => (0, e.key, { off := e.off, els := List.replicate e.len 0 })) }, {}, {}] }, withColl (({ rec_ := crec 3 96, cmd := cmd7, started := true, parts := [{ got := (stageDue (pair2) { rec_ := crec 3 96, cmd := cmd7, started := true, parts := [{}, {}, {}] } 0 0).map (fun e => (0, e.key, { off := e.off, els := List.replicate e.len 0 })) }, {}, {}] })), by unfold Claim.nothingWaits; decide +kernel⟩,
   ⟨0xF0000005, 0, { rec_ := crec 3 96, cmd := cmd7, started := true, parts := [{}, {}, {}] }, withColl (({ rec_ := crec 3 96, cmd := cmd7, started := true, parts := [{}, {}, {}] })), by decide +kernel⟩,
   ⟨pkt 0x10#64 0#64 (leBytes 4 0xF0000005 ++ leBytes 4 0 ++ leBytes 8 6 ++ List.replicate 64 7#8), ((stageSlot (((fun s : State => { s with fab := { s.fab with rx := [(pkt 0x10#64 0#64 (leBytes 4 0xF0000005 ++ leBytes 4 0 ++ leBytes 8 6 ++ List.replicate 64 7#8))] } }) (withRegs ((List.range 4).map (fun d => (reg .COL_STAGE d, dw [(0, d * 300), (16, 0x90000)]))) (withColl { rec_ := crec 1 96, cmd := cmd7 })))) (engineOf (((fun s : State => { s with fab := { s.fab with rx := [(pkt 0x10#64 0#64 (leBytes 4 0xF0000005 ++ leBytes 4 0 ++ leBytes 8 6 ++ List.replicate 64 7#8))] } }) (withRegs ((List.range 4).map (fun d => (reg .COL_STAGE d, dw [(0, d * 300), (16, 0x90000)]))) (withColl { rec_ := crec 1 96, cmd := cmd7 })))) 0)).getD (0, 0)).1, ((stageSlot (((fun s : State => { s with fab := { s.fab with rx := [(pkt 0x10#64 0#64 (leBytes 4 0xF0000005 ++ leBytes 4 0 ++ leBytes 8 6 ++ List.replicate 64 7#8))] } }) (withRegs ((List.range 4).map (fun d => (reg .COL_STAGE d, dw [(0, d * 300), (16, 0x90000)]))) (withColl { rec_ := crec 1 96, cmd := cmd7 })))) (engineOf (((fun s : State => { s with fab := { s.fab with rx := [(pkt 0x10#64 0#64 (leBytes 4 0xF0000005 ++ leBytes 4 0 ++ leBytes 8 6 ++ List.replicate 64 7#8))] } }) (withRegs ((List.range 4).map (fun d => (reg .COL_STAGE d, dw [(0, d * 300), (16, 0x90000)]))) (withColl { rec_ := crec 1 96, cmd := cmd7 })))) 0)).getD (0, 0)).2, (fun s : State => { s with fab := { s.fab with rx := [(pkt 0x10#64 0#64 (leBytes 4 0xF0000005 ++ leBytes 4 0 ++ leBytes 8 6 ++ List.replicate 64 7#8))] } }) (withRegs ((List.range 4).map (fun d => (reg .COL_STAGE d, dw [(0, d * 300), (16, 0x90000)]))) (withColl { rec_ := crec 1 96, cmd := cmd7 })), by decide +kernel⟩,
   ⟨pkt 0x10#64 0#64 (leBytes 4 0xF0000005 ++ leBytes 4 0 ++ leBytes 8 6 ++ List.replicate 64 7#8), (fun s : State => { s with fab := { s.fab with rx := [(pkt 0x10#64 0#64 (leBytes 4 0xF0000005 ++ leBytes 4 0 ++ leBytes 8 6 ++ List.replicate 64 7#8))] } }) (withRegs ((List.range 4).map (fun d => (reg .TILE_STATE (d * 300), 2#64))) (withRegs ((List.range 4).map (fun d => (reg .COL_STAGE d, dw [(0, d * 300), (16, 0x90000)]))))), by decide +kernel⟩,
   ⟨{ eng := engineOf (pair2) ((nth { sender := 0, key := 0, off := 0, len := 0, fmt := 0, arr := 0, idx := 0 } (stageDue (withColl (({ rec_ := crec 3 96, cmd := cmd7, started := true, parts := [{}, {}, {}] }))) (({ rec_ := crec 3 96, cmd := cmd7, started := true, parts := [{}, {}, {}] })) 0 0) 0) : Due).idx, tile := 5, off := 0x90000, len := 64, src := 256, head := leBytes 4 0xF0000005 ++ leBytes 4 ((nth { sender := 0, key := 0, off := 0, len := 0, fmt := 0, arr := 0, idx := 0 } (stageDue (withColl (({ rec_ := crec 3 96, cmd := cmd7, started := true, parts := [{}, {}, {}] }))) (({ rec_ := crec 3 96, cmd := cmd7, started := true, parts := [{}, {}, {}] })) 0 0) 0) : Due).idx ++ leBytes 8 (2 + 4 * 1 + 16 * ((nth { sender := 0, key := 0, off := 0, len := 0, fmt := 0, arr := 0, idx := 0 } (stageDue (withColl (({ rec_ := crec 3 96, cmd := cmd7, started := true, parts := [{}, {}, {}] }))) (({ rec_ := crec 3 96, cmd := cmd7, started := true, parts := [{}, {}, {}] })) 0 0) 0) : Due).fmt) }, { rec_ := crec 3 96, cmd := cmd7, started := true, parts := [{}, {}, {}] }, 1, 0, 0, nth { sender := 0, key := 0, off := 0, len := 0, fmt := 0, arr := 0, idx := 0 } (stageDue (withColl (({ rec_ := crec 3 96, cmd := cmd7, started := true, parts := [{}, {}, {}] }))) (({ rec_ := crec 3 96, cmd := cmd7, started := true, parts := [{}, {}, {}] })) 0 0) 0, (fun s : State => { s with fab := { s.fab with staged := [({ eng := engineOf (pair2) ((nth { sender := 0, key := 0, off := 0, len := 0, fmt := 0, arr := 0, idx := 0 } (stageDue (withColl (({ rec_ := crec 3 96, cmd := cmd7, started := true, parts := [{}, {}, {}] }))) (({ rec_ := crec 3 96, cmd := cmd7, started := true, parts := [{}, {}, {}] })) 0 0) 0) : Due).idx, tile := 5, off := 0x90000, len := 64, src := 256, head := leBytes 4 0xF0000005 ++ leBytes 4 ((nth { sender := 0, key := 0, off := 0, len := 0, fmt := 0, arr := 0, idx := 0 } (stageDue (withColl (({ rec_ := crec 3 96, cmd := cmd7, started := true, parts := [{}, {}, {}] }))) (({ rec_ := crec 3 96, cmd := cmd7, started := true, parts := [{}, {}, {}] })) 0 0) 0) : Due).idx ++ leBytes 8 (2 + 4 * 1 + 16 * ((nth { sender := 0, key := 0, off := 0, len := 0, fmt := 0, arr := 0, idx := 0 } (stageDue (withColl (({ rec_ := crec 3 96, cmd := cmd7, started := true, parts := [{}, {}, {}] }))) (({ rec_ := crec 3 96, cmd := cmd7, started := true, parts := [{}, {}, {}] })) 0 0) 0) : Due).fmt) })] } }) (withColl (({ rec_ := crec 3 96, cmd := cmd7, started := true, parts := [{}, {}, {}] }))), by unfold Claim.placed; decide +kernel⟩,
   ⟨{ eng := engineOf (pair2) ((nth { sender := 0, key := 0, off := 0, len := 0, fmt := 0, arr := 0, idx := 0 } (stageDue (withColl (({ rec_ := crec 3 96, cmd := cmd7, started := true, parts := [{ stage := 1 }, {}, {}] }))) (({ rec_ := crec 3 96, cmd := cmd7, started := true, parts := [{ stage := 1 }, {}, {}] })) 0 0) 0) : Due).idx, tile := 5, off := 0x90000, len := 64, src := 256, head := leBytes 4 0xF0000005 ++ leBytes 4 ((nth { sender := 0, key := 0, off := 0, len := 0, fmt := 0, arr := 0, idx := 0 } (stageDue (withColl (({ rec_ := crec 3 96, cmd := cmd7, started := true, parts := [{ stage := 1 }, {}, {}] }))) (({ rec_ := crec 3 96, cmd := cmd7, started := true, parts := [{ stage := 1 }, {}, {}] })) 0 0) 0) : Due).idx ++ leBytes 8 (2 + 4 * 1 + 16 * ((nth { sender := 0, key := 0, off := 0, len := 0, fmt := 0, arr := 0, idx := 0 } (stageDue (withColl (({ rec_ := crec 3 96, cmd := cmd7, started := true, parts := [{ stage := 1 }, {}, {}] }))) (({ rec_ := crec 3 96, cmd := cmd7, started := true, parts := [{ stage := 1 }, {}, {}] })) 0 0) 0) : Due).fmt) }, { rec_ := crec 3 96, cmd := cmd7, started := true, parts := [{ stage := 1 }, {}, {}] }, 1, 0, 0, nth { sender := 0, key := 0, off := 0, len := 0, fmt := 0, arr := 0, idx := 0 } (stageDue (withColl (({ rec_ := crec 3 96, cmd := cmd7, started := true, parts := [{ stage := 1 }, {}, {}] }))) (({ rec_ := crec 3 96, cmd := cmd7, started := true, parts := [{ stage := 1 }, {}, {}] })) 0 0) 0, (fun s : State => { s with fab := { s.fab with staged := [({ eng := engineOf (pair2) ((nth { sender := 0, key := 0, off := 0, len := 0, fmt := 0, arr := 0, idx := 0 } (stageDue (withColl (({ rec_ := crec 3 96, cmd := cmd7, started := true, parts := [{ stage := 1 }, {}, {}] }))) (({ rec_ := crec 3 96, cmd := cmd7, started := true, parts := [{ stage := 1 }, {}, {}] })) 0 0) 0) : Due).idx, tile := 5, off := 0x90000, len := 64, src := 256, head := leBytes 4 0xF0000005 ++ leBytes 4 ((nth { sender := 0, key := 0, off := 0, len := 0, fmt := 0, arr := 0, idx := 0 } (stageDue (withColl (({ rec_ := crec 3 96, cmd := cmd7, started := true, parts := [{ stage := 1 }, {}, {}] }))) (({ rec_ := crec 3 96, cmd := cmd7, started := true, parts := [{ stage := 1 }, {}, {}] })) 0 0) 0) : Due).idx ++ leBytes 8 (2 + 4 * 1 + 16 * ((nth { sender := 0, key := 0, off := 0, len := 0, fmt := 0, arr := 0, idx := 0 } (stageDue (withColl (({ rec_ := crec 3 96, cmd := cmd7, started := true, parts := [{ stage := 1 }, {}, {}] }))) (({ rec_ := crec 3 96, cmd := cmd7, started := true, parts := [{ stage := 1 }, {}, {}] })) 0 0) 0) : Due).fmt) })] } }) (withColl (({ rec_ := crec 3 96, cmd := cmd7, started := true, parts := [{ stage := 1 }, {}, {}] }))), by unfold Claim.placed; decide +kernel⟩,
   ⟨0xF0000005, 1, 0, 0, nth { sender := 0, key := 0, off := 0, len := 0, fmt := 0, arr := 0, idx := 0 } (stageDue (pair2) ({ rec_ := crec 3 96, cmd := cmd7, started := true, parts := [{}, {}, {}] }) 0 0) 0, { rec_ := crec 3 96 1000, cmd := cmd7, started := true, parts := [{}, {}, {}] }, withRegs [(reg .EPOCH_NOW, 10000000#64)] (withColl (({ rec_ := crec 3 96 1000, cmd := cmd7, started := true, parts := [{}, {}, {}] }))), by decide +kernel⟩,
   ⟨0xF0000005, 1, { rec_ := crec 1 96, cmd := cmd7 }, withColl (({ rec_ := crec 1 96, cmd := cmd7 })), by decide +kernel⟩⟩

theorem test_meets_PaceFrames_1 :
    (∃ (cause : Nat) (s : State), outputsOn s = true ∧ 1 ≤ cause ∧ cause ≤ 6 ∧ paceHolds s cause = true) ∧
    (∃ (s : State), outputsOn s = true ∧ s.fab.paceCause ≠ 0 ∧ (∀ k, k < 7 → paceHolds s k = false)) ∧
    (∃ (cause : Nat) (s : State), (outputsOn s = false ∨ 6 < cause ∨ (cause ≠ 0 ∧ paceHolds s cause = false) ∨ (cause = 0 ∧ s.fab.paceCause = 0))) ∧
    (∃ (l : Nat) (f : Flit) (s : State), Claim.paceTaken l f s ∧ collOf s (leNat ((flitBody f).take 4)) = none ∧ bit (rget s (reg .COL_COMM (leNat ((flitBody f).take 4) / 2 ^ 28))) 0 = false ∧ s.fab.paceHeld.length < 16 ∧ (linkOf s l).paceBuf.length < 16) ∧
    (∃ (l : Nat) (f : Flit) (s : State), Claim.paceTaken l f s ∧ collOf s (leNat ((flitBody f).take 4)) = none ∧ bit (rget s (reg .COL_COMM (leNat ((flitBody f).take 4) / 2 ^ 28))) 0 = false ∧ 16 ≤ s.fab.paceHeld.length ∧ (linkOf s l).paceBuf.length < 16) ∧
    (∃ (l : Nat) (f : Flit) (c : Coll) (s : State), Claim.paceTaken l f s ∧ collOf s (leNat ((flitBody f).take 4)) = some c ∧ (linkOf s l).paceBuf.length < 16 ∧ nth 0#8 (flitBody f) 7 = 9#8 ∧ assist s 14 = false) ∧
    (∃ (l : Nat) (f : Flit) (s : State), Claim.paceTaken l f s ∧ 16 ≤ (linkOf s l).paceBuf.length) ∧
    (∃ (id : Nat) (c : Coll) (s : State), collOf s id = some c ∧ amaxOf s c = none) :=
  ⟨⟨1, (fun s : State => { s with gov := { s.gov with dies := [(3, { capTherm := 700 })] } }) (withColl { rec_ := crec 3 96, cmd := cmd7, started := true, parts := [{}, {}, {}] }), by decide +kernel⟩,
   ⟨(fun s : State => { s with fab := { s.fab with paceCause := 5 } }) (withRegs ((List.range 4).map (fun d => (reg .CLK_DIE_F d, w64 1300))) (withColl { rec_ := crec 3 96, cmd := cmd7, started := true, parts := [{}, {}, {}] })), by decide +kernel⟩,
   ⟨7, up, by decide +kernel⟩,
   ⟨46, Flit.sealed 2 { seq := 1, body := leBytes 4 0xF0000005 }, port 3, by refine ⟨by unfold Claim.paceTaken Claim.linkIdle; exact ⟨by decide +kernel, flitOk_sealed _ _, by decide +kernel⟩, ?_, ?_, ?_, ?_⟩ <;> decide +kernel⟩,
   ⟨46, Flit.sealed 2 { seq := 1, body := leBytes 4 0xF0000005 }, (fun s : State => { s with fab := { s.fab with paceHeld := List.replicate 16 (5, leBytes 4 7) } }) (port 3), by refine ⟨by unfold Claim.paceTaken Claim.linkIdle; exact ⟨by decide +kernel, flitOk_sealed _ _, by decide +kernel⟩, ?_, ?_, ?_, ?_⟩ <;> decide +kernel⟩,
   ⟨46, Flit.sealed 2 { seq := 1, body := leBytes 4 0xF0000005 ++ leBytes 4 (9 * 2 ^ 24) ++ leBytes 8 5000 }, { rec_ := crec 3 96, cmd := cmd7, started := true, parts := [{}, {}, {}] }, withColl (({ rec_ := crec 3 96, cmd := cmd7, started := true, parts := [{}, {}, {}] })), by refine ⟨by unfold Claim.paceTaken Claim.linkIdle; exact ⟨by decide +kernel, flitOk_sealed _ _, by decide +kernel⟩, ?_, ?_, ?_, ?_⟩ <;> decide +kernel⟩,
   ⟨46, Flit.sealed 2 { seq := 1, body := [] }, port 3 { paceBuf := (List.range 16).map (fun i => (i, 1)) }, ⟨by unfold Claim.paceTaken Claim.linkIdle; exact ⟨by decide +kernel, flitOk_sealed _ _, by decide +kernel⟩, by decide +kernel⟩⟩,
   ⟨0xF0000005, { rec_ := crec 3 96, cmd := cmd7, started := true, amax := [(5, 7)], parts := [{}, {}, {}] }, withRegs [(reg .EPOCH_NOW, 10000000#64)] (withColl (({ rec_ := crec 3 96, cmd := cmd7, started := true, amax := [(5, 7)], parts := [{}, {}, {}] }))), by decide +kernel⟩⟩

theorem test_meets_PaceFrames_2 :
    ∃ (id : Nat) (s : State), (match collOf s id with | some c => (amaxOf s c).isSome | none => true) = true :=
  ⟨7, up, by decide +kernel⟩

theorem test_meets_PutsAreSent :
    (∃ (ring : Nat) (dst : Nat) (tag : Nat) (a : Nat) (n : Nat) (f : Frame) (s : State), Claim.puts s ring dst tag a n f ∧ bit f.w1 16 = true ∧ nextHop s none (ownId s) dst tag ≠ .none) ∧
    (∃ (ring : Nat) (dst : Nat) (tag : Nat) (a : Nat) (n : Nat) (l : Nat) (second : Bool) (first : Bool) (f : Frame) (s : State), Claim.puts s ring dst tag a n f ∧ bit f.w1 16 = false ∧ bit f.w0 18 = false ∧ nextHop s none (ownId s) dst tag = .out l second first ∧ (linkOf s l).waitQ = [] ∧ Claim.ringOpen s (cplOf s ring) = true) ∧
    (∃ (ring : Nat) (dst : Nat) (tag : Nat) (a : Nat) (n : Nat) (f : Frame) (s : State), Claim.puts s ring dst tag a n f ∧ bit f.w1 16 = false ∧ nextHop s none (ownId s) dst tag = .none ∧ Claim.ringOpen s (cplOf s ring) = true) ∧
    (∃ (ring : Nat) (dst : Nat) (tag : Nat) (a : Nat) (n : Nat) (f : Frame) (s : State), Claim.puts s ring dst tag a n f ∧ bit f.w1 16 = true ∧ nextHop s none (ownId s) dst tag = .none ∧ s.fab.puts = [] ∧ s.cox.running.contains (Claim.refOf s ring f) = false) ∧
    (∃ (ring : Nat) (f : Frame) (s : State), Claim.taken s ring 0x0404 f ({ ops := [setBit (maskBits 11 0 ||| maskBits 47 32) 16 true, maskBits 47 0, maskBits 47 0, maskBits 11 0] }) ∧ Claim.ringOpen s (cplOf s ring) = true ∧ stkWaits s (bits f.w2 47 0) (bits f.w4 11 0 + 1) = false ∧ 4080 < bits f.w4 11 0 + 1) ∧
    (∃ (ring : Nat) (f : Frame) (s : State), Claim.taken s ring 0x0404 f ({ ops := [setBit (maskBits 11 0 ||| maskBits 47 32) 16 true, maskBits 47 0, maskBits 47 0, maskBits 11 0] }) ∧ Claim.ringOpen s (cplOf s ring) = true ∧ stkWaits s (bits f.w2 47 0) (bits f.w4 11 0 + 1) = false ∧ bits f.w4 11 0 + 1 ≤ 4080 ∧ (stackTop < bits f.w2 47 0 + (bits f.w4 11 0 + 1) ∨ (linesOf (bits f.w2 47 0) (bits f.w4 11 0 + 1)).all (fun l => stkPresent s l) = false)) :=
  ⟨⟨7, 256, 9, 0x1000, 64, fr 0x404 (dw [(0, 256), (16, 1), (32, 9)]) 0x1000#64 0x2000#64 63#64, ringsOn (port 3), by unfold Claim.puts Claim.taken; decide +kernel⟩,
   ⟨7, 256, 9, 0x1000, 64, 46, false, false, fr 0x404 (dw [(0, 256), (16, 0), (32, 9)]) 0x1000#64 0x2000#64 63#64, ringsOn (port 3), by unfold Claim.puts Claim.taken; decide +kernel⟩,
   ⟨7, 256, 9, 0x1000, 64, fr 0x404 (dw [(0, 256), (16, 0), (32, 9)]) 0x1000#64 0x2000#64 63#64, ringsOn (port 5), by unfold Claim.puts Claim.taken; decide +kernel⟩,
   ⟨7, 256, 9, 0x1000, 64, fr 0x404 (dw [(0, 256), (16, 1), (32, 9)]) 0x1000#64 0x2000#64 63#64, ringsOn (port 5), by unfold Claim.puts Claim.taken; decide +kernel⟩,
   ⟨7, fr 0x404 (dw [(0, 256), (16, 0), (32, 9)]) 0x1000#64 0x2000#64 4080#64, ringsOn, by unfold Claim.taken; decide +kernel⟩,
   ⟨7, fr 0x404 (dw [(0, 256), (16, 0), (32, 9)]) 0x5FFFFFFFF8#64 0x2000#64 63#64, ringsOn, by unfold Claim.taken; decide +kernel⟩⟩

theorem test_meets_RingsTurn_1 :
    (∃ (c : Nat) (v : Nat) (s : State), c < 8 ∧ s.gate.st ≠ .off ∧ SMap.get false s.cox.stopped c = false ∧ bit (rget s (reg .MBX_CMD_CFG c)) 8 = true ∧ v < cmdFrames s c ∧ (SMap.get 0 s.cox.tails c + cmdFrames s c - rbits s (reg .MBX_CMD_HEAD c) 11 0) % cmdFrames s c + (v + cmdFrames s c - SMap.get 0 s.cox.tails c) % cmdFrames s c ≤ cmdFrames s c - 1) ∧
    (∃ (c : Nat) (v : Nat) (s : State), c < 8 ∧ s.gate.st ≠ .off ∧ SMap.get false s.cox.stopped c = false ∧ bit (rget s (reg .MBX_CMD_CFG c)) 8 = true ∧ cmdFrames s c ≤ v) ∧
    (∃ (c : Nat) (s : State), c < 8 ∧ s.gate.st ≠ .off ∧ (SMap.get false s.cox.stopped c = true ∨ bit (rget s (reg .MBX_CMD_CFG c)) 8 = false)) ∧
    (∃ (c : Nat) (s : State), (8 ≤ c ∨ s.gate.st = .off)) ∧
    (∃ (c : Nat) (v : Nat) (s : State), c < 8 ∧ s.gate.st ≠ .off ∧ v < cplFrames s c ∧ (rbits s (reg .MBX_CPL_TAIL c) 11 0 + cplFrames s c - v) % cplFrames s c ≤ SMap.get 0 s.cox.cplUsed c ∧ SMap.get [] s.cox.held c = []) ∧
    (∃ (c : Nat) (v : Nat) (f : CplFrame) (s : State), c < 8 ∧ s.gate.st ≠ .off ∧ v < cplFrames s c ∧ SMap.get [] s.cox.held c = [f] ∧ cplEnabled s c = true ∧ s.gate.switching = none ∧ (rbits s (reg .MBX_CPL_TAIL c) 11 0 + cplFrames s c - v) % cplFrames s c ≤ SMap.get 0 s.cox.cplUsed c) ∧
    (∃ (c : Nat) (v : Nat) (s : State), c < 8 ∧ s.gate.st ≠ .off ∧ cplFrames s c ≤ v) ∧
    (∃ (c : Nat) (v : Word) (s : State), c < 8 ∧ bit v 8 = true ∧ (bit (rget s (reg .MBX_CMD_CFG c)) 8 = false ∨ SMap.get false s.cox.stopped c = true)) :=
  ⟨⟨7, 63, ringsOn, by decide +kernel⟩,
   ⟨7, 64, ringsOn, by decide +kernel⟩,
   ⟨7, up, by decide +kernel⟩,
   ⟨8, up, by decide +kernel⟩,
   ⟨7, 2, (fun s : State => { withRegs [(reg .MBX_CPL_TAIL 7, 5#64)] s with cox := { s.cox with cplUsed := [(7, 4)] } }) ringsOn, by decide +kernel⟩,
   ⟨7, 0, { words := [1#64] }, (fun s : State => { s with cox := { s.cox with held := [(7, [({ words := [1#64] })])], cplUsed := [(7, 1)] } }) (withRegs [(reg .MBX_CPL_TAIL 7, 1#64)] ringsOn), by decide +kernel⟩,
   ⟨7, 64, ringsOn, by decide +kernel⟩,
   ⟨7, dw [(8, 1), (16, 0x3FF)], withRegs [(reg .MBX_CMD_HEAD 7, 5#64)], by decide +kernel⟩⟩

theorem test_meets_RingsTurn_2 :
    (∃ (c : Nat) (v : Word), c < 8 ∧ bit v 8 = false) ∧
    (∃ (c : Nat), 8 ≤ c) ∧
    (∃ (c : Nat) (v : Word) (f : CplFrame) (s : State), c < 8 ∧ bit v 16 = false ∧ SMap.get [] s.cox.held c = [f] ∧ SMap.get false s.cox.unreg c = false ∧ f.async = false) ∧
    (∃ (c : Nat) (v : Word) (s : State), c < 8 ∧ bit v 16 = true ∧ SMap.get [] s.cox.held c = []) ∧
    (∃ (c : Nat) (f : CplFrame) (s : State), c < 8 ∧ SMap.get [] s.cox.held c = [f] ∧ f.late = false) ∧
    (∃ (c : Nat) (s : State), (SMap.get [] s.cox.held c).all (fun f => f.late) = true) ∧
    (∃ (c : Nat) (s : State), c < 8 ∧ s.gate.st ≠ .off) :=
  ⟨⟨7, dw [(16, 1)], by decide +kernel⟩,
   ⟨8, by decide +kernel⟩,
   ⟨7, 0#64, { words := [1#64, 2#64] }, { up with cox := { held := [(7, [({ words := [1#64, 2#64] })])] } }, by decide +kernel⟩,
   ⟨7, dw [(16, 1)], up, by decide +kernel⟩,
   ⟨7, { words := [1#64, 2#64] }, { up with cox := { held := [(7, [({ words := [1#64, 2#64] })])] } }, by decide +kernel⟩,
   ⟨7, up, by decide +kernel⟩,
   ⟨7, ringsOn, by decide +kernel⟩⟩

theorem test_meets_RecordsAndMessages_1 :
    (∃ (code : Nat) (s : State), s.gate.st ≠ .off ∧ code / 256 ≠ 0x0E ∧ code < 65536) ∧
    (∃ (c : Nat) (ws : List Word) (s : State), c < 8 ∧ s.cox.async = [(c, ws)] ∧ s.gate.switching = none ∧ Claim.ringOpen s c = true ∧ SMap.get 0 s.cox.cplUsed c + 2 ≤ cplFrames s c) ∧
    (∃ (c : Nat) (ws : List Word) (s : State), c < 8 ∧ s.cox.async = [(c, ws)] ∧ s.gate.switching = none ∧ cplEnabled s c = false ∧ SMap.get false s.cox.unreg c = false) ∧
    (∃ (s : State), (s.cox.async = [] ∨ s.gate.switching.isSome = true)) ∧
    (∃ (c : Nat) (ws : List Word) (s : State), s.cox.async = [(c, ws)] ∧ ((cplEnabled s c = true ∧ cplFrames s c < SMap.get 0 s.cox.cplUsed c + 2) ∨ (cplEnabled s c = false ∧ SMap.get false s.cox.unreg c = true))) ∧
    (∃ (code : Nat) (s : State), (s.gate.st = .off ∨ code / 256 = 0x0E ∨ 65536 ≤ code)) ∧
    (∃ (v : Nat), 64 ≤ v) ∧
    (∃ (v : Nat) (s : State), SMap.get false s.ports.msixMerged v = true ∧ msixMasked s v = true) :=
  ⟨⟨0xFFFF, up, by decide +kernel⟩,
   ⟨7, [1#64, 2#64, 3#64, 4#64, 5#64, 6#64, 7#64, 8#64], (fun s : State => { s with cox := { s.cox with async := [(7, ([1#64, 2#64, 3#64, 4#64, 5#64, 6#64, 7#64, 8#64]))] } }) ringsOn, by decide +kernel⟩,
   ⟨7, [1#64, 2#64, 3#64, 4#64, 5#64, 6#64, 7#64, 8#64], { up with cox := { async := [(7, ([1#64, 2#64, 3#64, 4#64, 5#64, 6#64, 7#64, 8#64]))] } }, by decide +kernel⟩,
   ⟨up, by decide +kernel⟩,
   ⟨7, [1#64, 2#64, 3#64, 4#64, 5#64, 6#64, 7#64, 8#64], (fun s : State => { s with cox := { s.cox with async := [(7, ([1#64, 2#64, 3#64, 4#64, 5#64, 6#64, 7#64, 8#64]))], cplUsed := [(7, 256)] } }) ringsOn, by decide +kernel⟩,
   ⟨0x203, inState .off, by decide +kernel⟩,
   ⟨64, by decide +kernel⟩,
   ⟨63, withRegs [(msixReg 63 1, dw [(32, 1)])] { up with ports := { msixMerged := [(63, true)], msixHold := [(63, true)] } }, by decide +kernel⟩⟩

theorem test_meets_RecordsAndMessages_2 :
    (∃ (rate : Nat) (s : State), (s.gate.st = .off ∨ rate = 0 ∨ 3 < rate)) ∧
    (∃ (s : State), bit (rget s (reg .PCIE_LINK)) 8 = false) ∧
    (∃ (v : Nat) (s : State), v < 64 ∧ SMap.get false s.ports.msixPend v = true ∧ SMap.get false s.ports.msixHold v = false) ∧
    (∃ (v : Nat) (s : State), v < 64 ∧ SMap.get false s.ports.msixPend v = false) ∧
    (∃ (v : Nat) (s : State), SMap.get false s.ports.msixMerged v = true ∧ msixMasked s v = false) ∧
    (∃ (v : Nat) (s : State), SMap.get false s.ports.msixMerged v = false) ∧
    (∃ (rate : Nat) (s : State), s.gate.st ≠ .off ∧ 1 ≤ rate ∧ rate ≤ 3) ∧
    (∃ (s : State), bit (rget s (reg .PCIE_LINK)) 8 = true) :=
  ⟨⟨0, up, by decide +kernel⟩,
   ⟨up, by decide +kernel⟩,
   ⟨63, withRegs [(msixReg 63 1, 0#64)] { up with ports := { msixPend := [(63, true)] } }, by decide +kernel⟩,
   ⟨63, up, by decide +kernel⟩,
   ⟨63, withRegs [(msixReg 63 1, 0#64)] { up with ports := { msixMerged := [(63, true)], msixHold := [(63, true)] } }, by decide +kernel⟩,
   ⟨63, { up with ports := { msixHold := [(63, true)] } }, by decide +kernel⟩,
   ⟨1, up, by decide +kernel⟩,
   ⟨withRegs [(reg .PCIE_LINK, 0x100#64)], by decide +kernel⟩⟩

theorem test_meets_WorkCommands_1 :
    (∃ (ring : Nat) (t : Nat) (f : Frame) (s : State), Claim.taken s ring 0x0200 f { ops := [maskBits 10 0 ||| maskBits 21 16], buf := true } ∧ bit f.w0 18 = false ∧ Claim.ringOpen s (cplOf s ring) = true ∧ t = bits f.w1 10 0 ∧ t < numTiles ∧ tileState s t = 0 ∧ s.gate.st = .underway ∧ bits f.w1 21 16 = 0 ∧ bit f.w7 32 = false ∧ 64 ≤ bufLen f ∧ dMalformed ((List.range 8).map (Claim.bufWord f)) = false ∧ (tileOf s t).dq.length < 64) ∧
    (∃ (ring : Nat) (f : Frame) (s : State), Claim.taken s ring 0x0200 f ({ ops := [maskBits 10 0 ||| maskBits 21 16], buf := true }) ∧ Claim.ringOpen s (cplOf s ring) = true ∧ (numTiles ≤ bits f.w1 10 0 ∨ tileState s (bits f.w1 10 0) ≠ 2) ∧ s.gate.st ≠ .rigged ∧ s.gate.st ≠ .underway) ∧
    (∃ (ring : Nat) (f : Frame) (s : State), Claim.taken s ring 0x0200 f ({ ops := [maskBits 10 0 ||| maskBits 21 16], buf := true }) ∧ Claim.ringOpen s (cplOf s ring) = true ∧ s.gate.st = .underway ∧ (numTiles ≤ bits f.w1 10 0 ∨ tileState s (bits f.w1 10 0) = 4)) ∧
    (∃ (ring : Nat) (f : Frame) (s : State), Claim.taken s ring 0x0200 f ({ ops := [maskBits 10 0 ||| maskBits 21 16], buf := true }) ∧ Claim.ringOpen s (cplOf s ring) = true ∧ s.gate.st = .underway ∧ bits f.w1 10 0 < numTiles ∧ tileState s (bits f.w1 10 0) = 0 ∧ bufLen f < 64 * (bits f.w1 21 16 + 1)) ∧
    (∃ (ring : Nat) (f : Frame) (s : State), Claim.taken s ring 0x0200 f ({ ops := [maskBits 10 0 ||| maskBits 21 16], buf := true }) ∧ Claim.ringOpen s (cplOf s ring) = true ∧ s.gate.st = .underway ∧ bits f.w1 10 0 < numTiles ∧ tileState s (bits f.w1 10 0) = 0 ∧ bits f.w1 21 16 = 0 ∧ bit f.w7 32 = false ∧ 64 ≤ bufLen f ∧ dMalformed ((List.range 8).map (Claim.bufWord f)) = true) ∧
    (∃ (ring : Nat) (f : Frame) (s : State), Claim.taken s ring 0x0200 f ({ ops := [maskBits 10 0 ||| maskBits 21 16], buf := true }) ∧ Claim.ringOpen s (cplOf s ring) = true ∧ s.gate.st = .underway ∧ bits f.w1 10 0 < numTiles ∧ tileState s (bits f.w1 10 0) = 1 ∧ bits f.w1 21 16 = 0 ∧ bit f.w7 32 = false ∧ 64 ≤ bufLen f ∧ dMalformed ((List.range 8).map (Claim.bufWord f)) = false) ∧
    (∃ (ring : Nat) (f : Frame) (s : State), Claim.taken s ring 0x0201 f ({}) ∧ Claim.ringOpen s (cplOf s ring) = true ∧ s.gate.st ≠ .underway) ∧
    (∃ (s : State), (s.gate.st ≠ .easy ∨ s.fab.colls ≠ [] ∨ (List.range 8).all (fun n => (bdOf s n).jobs.isEmpty) = false ∨ s.tiles.any (fun e => !(e.2.seq == .idle) || !e.2.dq.isEmpty) = true)) :=
  ⟨⟨7, 1151, frb 0x200 1151#64 (leBytes 8 0xFFFF000000 ++ List.replicate 56 0#8), ringsOn, by unfold Claim.taken; decide +kernel⟩,
   ⟨7, frb 0x200 1151#64 (leBytes 8 0xFFFF000000 ++ List.replicate 56 0#8), ringsOn (inState .hold), by unfold Claim.taken; decide +kernel⟩,
   ⟨7, frb 0x200 1152#64 (leBytes 8 0xFFFF000000 ++ List.replicate 56 0#8), ringsOn, by unfold Claim.taken; decide +kernel⟩,
   ⟨7, frb 0x200 (dw [(0, 1151), (16, 1)]) (leBytes 8 0xFFFF000000 ++ List.replicate 56 0#8), ringsOn, by unfold Claim.taken; decide +kernel⟩,
   ⟨7, frb 0x200 1151#64 (leBytes 8 0xFFFFFF000000 ++ List.replicate 48 0#8 ++ List.replicate 8 0xFF#8), ringsOn, by unfold Claim.taken; decide +kernel⟩,
   ⟨7, frb 0x200 1151#64 (leBytes 8 0xFFFF000000 ++ List.replicate 56 0#8), withRegs [(reg .TILE_STATE 1151, 1#64)] ringsOn, by unfold Claim.taken; decide +kernel⟩,
   ⟨7, fr 0x201 (0#64), ringsOn (inState .hold), by unfold Claim.taken; decide +kernel⟩,
   ⟨up, by decide +kernel⟩⟩

theorem test_meets_WorkCommands_2 :
    (∃ (ring : Nat) (f : Frame) (s : State), Claim.taken s ring 0x0201 f {} ∧ Claim.ringOpen s (cplOf s ring) = true ∧ s.gate.st = .underway) ∧
    (∃ (c : CmdRef) (s : State), s.gate.st = .easy ∧ s.tiles.all (fun e => e.2.seq == .idle && e.2.dq.isEmpty && e.2.drained && e.2.steal.answer.isNone) = true ∧ (List.range 8).all (fun n => (bdOf s n).jobs.isEmpty) = true ∧ s.fab.colls = [] ∧ s.cox.drain = some c ∧ c.ring < 8 ∧ bit c.w0 18 = false ∧ Claim.ringOpen s (cplOf s c.ring) = true) ∧
    (∃ (ring : Nat) (f : Frame) (s : State), Claim.taken s ring 0x0202 f {} ∧ bit f.w0 18 = false ∧ Claim.ringOpen s (cplOf s ring) = true ∧ s.gate.st = .rigged ∧ s.gate.frozen = true) ∧
    (∃ (ring : Nat) (f : Frame) (s : State), Claim.taken s ring 0x0202 f ({}) ∧ Claim.ringOpen s (cplOf s ring) = true ∧ (s.gate.frozen = false ∨ s.gate.st ≠ .rigged)) ∧
    (∃ (ring : Nat) (f : Frame) (s : State), Claim.taken s ring 0x0203 f {} ∧ s.gate.frozen = true) ∧
    (∃ (ring : Nat) (f : Frame) (s : State), Claim.taken s ring 0x0203 f ({}) ∧ Claim.ringOpen s (cplOf s ring) = true ∧ s.gate.frozen = false) :=
  ⟨⟨7, fr 0x201 (0#64), ringsOn, by unfold Claim.taken; decide +kernel⟩,
   ⟨{ cmd7 with w0 := 0x201#64 }, ringsOn { gate := { st := .easy, coxValid := true, checkOk := true, boot := 2 }, cox := { drain := some (({ cmd7 with w0 := 0x201#64 })), running := [({ cmd7 with w0 := 0x201#64 })] } }, by decide +kernel⟩,
   ⟨7, fr 0x202 (0#64), ringsOn { gate := { st := .rigged, frozen := true, coxValid := true, checkOk := true, boot := 2 }, tiles := [(0, tRun)] }, by unfold Claim.taken; decide +kernel⟩,
   ⟨7, fr 0x202 (0#64), ringsOn, by unfold Claim.taken; decide +kernel⟩,
   ⟨7, fr 0x203 (0#64), ringsOn { gate := { st := .rigged, frozen := true, coxValid := true, checkOk := true, boot := 2 }, tiles := [(0, tRun)] }, by unfold Claim.taken; decide +kernel⟩,
   ⟨7, fr 0x203 (0#64), ringsOn, by unfold Claim.taken; decide +kernel⟩⟩

theorem test_meets_PowerAndNumericsCommands_1 :
    (∃ (ring : Nat) (f : Frame) (s : State), Claim.taken s ring 0x0500 f { ops := [maskBits 3 0 ||| maskBits 26 16] } ∧ bit f.w0 18 = false ∧ Claim.ringOpen s (cplOf s ring) = true ∧ assist s 14 = true) ∧
    (∃ (ring : Nat) (f : Frame) (s : State), Claim.taken s ring 0x0500 f ({ ops := [maskBits 3 0 ||| maskBits 26 16] }) ∧ Claim.ringOpen s (cplOf s ring) = true ∧ assist s 14 = false) ∧
    (∃ (ring : Nat) (f : Frame) (s : State), Claim.taken s ring 0x0501 f { ops := [maskBits 15 0] } ∧ bit f.w0 18 = false ∧ Claim.ringOpen s (cplOf s ring) = true ∧ bit (rget s (reg .GOV_MIRROR)) 0 = false) ∧
    (∃ (ring : Nat) (f : Frame) (s : State), Claim.taken s ring 0x0600 f {} ∧ s.blt.advWait.length < 16) ∧
    (∃ (ring : Nat) (f : Frame) (s : State), Claim.taken s ring 0x0600 f {} ∧ Claim.ringOpen s (cplOf s ring) = true ∧ s.blt.advWait.length = 16) ∧
    (∃ (ring : Nat) (a : Nat) (n : Nat) (f : Frame) (s : State), Claim.taken s ring 0x0601 f { ops := [maskBits 11 0 ||| maskBits 27 16], buf := true } ∧ bit f.w0 18 = false ∧ Claim.ringOpen s (cplOf s ring) = true ∧ a = bits f.w1 11 0 ∧ n = bits f.w1 27 16 + 1 ∧ a + n ≤ 4096 ∧ 16 * n ≤ bufLen f ∧ bit f.w7 32 = false) ∧
    (∃ (ring : Nat) (f : Frame) (s : State), Claim.taken s ring 0x0601 f ({ ops := [maskBits 11 0 ||| maskBits 27 16], buf := true }) ∧ Claim.ringOpen s (cplOf s ring) = true ∧ (4096 < bits f.w1 11 0 + (bits f.w1 27 16 + 1) ∨ bufLen f < 16 * (bits f.w1 27 16 + 1))) ∧
    (∃ (ring : Nat) (f : Frame) (s : State), Claim.taken s ring 0x0602 f ({ ops := [maskBits 11 0 ||| maskBits 27 16], buf := true }) ∧ Claim.ringOpen s (cplOf s ring) = true ∧ 4096 < bits f.w1 11 0 + (bits f.w1 27 16 + 1)) :=
  ⟨⟨7, fr 0x500 (dw [(0, 15), (16, 1300)]), ringsOn (withRegs [(reg .MBX_ASSIST, 0x4000#64)]), by unfold Claim.taken; decide +kernel⟩,
   ⟨7, fr 0x500 (0#64), ringsOn, by unfold Claim.taken; decide +kernel⟩,
   ⟨7, fr 0x501 (0xFFFF#64), ringsOn, by unfold Claim.taken; decide +kernel⟩,
   ⟨7, fr 0x600 (0#64), ringsOn, by unfold Claim.taken; decide +kernel⟩,
   ⟨7, fr 0x600 (0#64), ringsOn { up with blt := { advWait := List.replicate 16 none } }, by unfold Claim.taken; decide +kernel⟩,
   ⟨7, 4095, 1, frb 0x601 4095#64 (List.replicate 16 0xFF#8), ringsOn, by unfold Claim.taken; decide +kernel⟩,
   ⟨7, frb 0x601 (dw [(0, 4095), (16, 1)]) (List.replicate 32 0#8), ringsOn, by unfold Claim.taken; decide +kernel⟩,
   ⟨7, frb 0x602 (dw [(0, 4095), (16, 1)]) [] 128, ringsOn, by unfold Claim.taken; decide +kernel⟩⟩

theorem test_meets_PowerAndNumericsCommands_2 :
    (∃ (ring : Nat) (f : Frame) (s : State), Claim.taken s ring 0x0602 f ({ ops := [maskBits 11 0 ||| maskBits 27 16], buf := true }) ∧ Claim.ringOpen s (cplOf s ring) = true ∧ bits f.w1 11 0 + (bits f.w1 27 16 + 1) ≤ 4096 ∧ bufLen f < 64 * (bits f.w1 27 16 + 1)) ∧
    (∃ (ring : Nat) (f : Frame) (s : State), Claim.taken s ring 0x0602 f ({ ops := [maskBits 11 0 ||| maskBits 27 16], buf := true }) ∧ bit f.w0 18 = false ∧ Claim.ringOpen s (cplOf s ring) = true ∧ bit f.w7 32 = false ∧ bits f.w1 11 0 + bits f.w1 27 16 + 1 ≤ 4096 ∧ 64 * (bits f.w1 27 16 + 1) ≤ bufLen f) :=
  ⟨⟨7, frb 0x602 0#64 [] 63, ringsOn, by unfold Claim.taken; decide +kernel⟩,
   ⟨7, frb 0x602 4095#64 [] 64, ringsOn, by unfold Claim.taken; decide +kernel⟩⟩

theorem test_meets_SparingCommands_1 :
    (∃ (ring : Nat) (t : Nat) (f : Frame) (s : State), Claim.taken s ring 0x0700 f { ops := [maskBits 10 0] } ∧ Claim.ringOpen s (cplOf s ring) = true ∧ t = bits f.w1 10 0 ∧ t < numTiles ∧ isHeat s t = false ∧ tileState s t = 0) ∧
    (∃ (ring : Nat) (f : Frame) (s : State), Claim.taken s ring 0x0700 f ({ ops := [maskBits 10 0] }) ∧ Claim.ringOpen s (cplOf s ring) = true ∧ bits f.w1 10 0 < numTiles ∧ (isHeat s (bits f.w1 10 0) = true ∨ tileState s (bits f.w1 10 0) ≠ 0)) ∧
    (∃ (ring : Nat) (f : Frame) (s : State), Claim.taken s ring 0x0700 f ({ ops := [maskBits 10 0] }) ∧ Claim.ringOpen s (cplOf s ring) = true ∧ numTiles ≤ bits f.w1 10 0) ∧
    (∃ (ring : Nat) (f : Frame) (s : State), Claim.taken s ring 0x0701 f ({ ops := [maskBits 10 0 ||| maskBits 21 16 ||| maskBits 28 24 ||| maskBits 31 31] }) ∧ Claim.ringOpen s (cplOf s ring) = true ∧ (numTiles ≤ bits f.w1 10 0 ∨ tileState s (bits f.w1 10 0) = 4 ∨ (bit f.w1 31 = true ∧ (usableSpares s (dieOfTile (bits f.w1 10 0))).isEmpty = true) ∨ (bit f.w1 31 = false ∧ (usableSpares s (dieOfTile (bits f.w1 10 0))).contains (bits f.w1 21 16, bits f.w1 28 24) = false))) ∧
    (∃ (ring : Nat) (f : Frame) (s : State), Claim.taken s ring 0x0702 f ({ ops := [maskBits 32 0] }) ∧ Claim.ringOpen s (cplOf s ring) = true ∧ assist s 7 = true ∧ s.cox.proposals.find? (fun p => p.num == bits f.w1 31 0 && p.kind == 4 && !p.decided) = none) ∧
    (∃ (ring : Nat) (f : Frame) (s : State), Claim.taken s ring 0x0703 f ({ ops := [maskBits 33 0] }) ∧ Claim.ringOpen s (cplOf s ring) = true ∧ (s.cox.quars.find? (fun q => q.1 % 2 ^ 32 == bits f.w1 31 0) = none ∨ bits f.w1 33 32 = 3)) ∧
    (∃ (ring : Nat) (f : Frame) (s : State), Claim.taken s ring 0x0702 f ({ ops := [maskBits 32 0] }) ∧ Claim.ringOpen s (cplOf s ring) = true ∧ assist s 7 = false) ∧
    (∃ (p : Proposal) (ring : Nat) (f : Frame) (s : State), Claim.taken s ring 0x0702 f ({ ops := [maskBits 32 0] }) ∧ bit f.w0 18 = false ∧ Claim.ringOpen s (cplOf s ring) = true ∧ assist s 7 = true ∧ s.cox.proposals.find? (fun p => p.num == bits f.w1 31 0 && p.kind == 4 && !p.decided) = some p ∧ bit f.w1 32 = false ∧ (tileOf s p.a).scan ≠ 4) :=
  ⟨⟨7, 1151, fr 0x700 (1151#64), ringsOn, by unfold Claim.taken; decide +kernel⟩,
   ⟨7, fr 0x700 (1151#64), ringsOn (withRegs [(reg .TILE_STATE 1151, 8#64)]), by unfold Claim.taken; decide +kernel⟩,
   ⟨7, fr 0x700 (1152#64), ringsOn, by unfold Claim.taken; decide +kernel⟩,
   ⟨7, fr 0x701 (1152#64), ringsOn, by unfold Claim.taken; decide +kernel⟩,
   ⟨7, fr 0x702 (4#64), ringsOn (withRegs [(reg .MBX_ASSIST, 0x80#64)]), by unfold Claim.taken; decide +kernel⟩,
   ⟨7, fr 0x703 (4#64), ringsOn, by unfold Claim.taken; decide +kernel⟩,
   ⟨7, fr 0x702 (4#64), ringsOn, by unfold Claim.taken; decide +kernel⟩,
   ⟨{ num := 4, kind := 4, a := 1151 }, 7, fr 0x702 (4#64), (fun s : State => { s with cox := { s.cox with proposals := [{ num := 4, kind := 4, a := 1151 }] } }) (ringsOn (withRegs [(reg .MBX_ASSIST, 0x180#64)])), by unfold Claim.taken; decide +kernel⟩⟩

theorem test_meets_SparingCommands_2 :
    (∃ (q : Nat × Nat × Nat × Nat) (ring : Nat) (f : Frame) (s : State), Claim.taken s ring 0x0703 f ({ ops := [maskBits 33 0] }) ∧ bit f.w0 18 = false ∧ Claim.ringOpen s (cplOf s ring) = true ∧ s.cox.quars.find? (fun q => q.1 % 2 ^ 32 == bits f.w1 31 0) = some q ∧ bits f.w1 33 32 = 2) ∧
    (∃ (ring : Nat) (f : Frame) (q : Nat × Nat × Nat × Nat) (s : State), Claim.taken s ring 0x0703 f { ops := [maskBits 33 0] } ∧ bit f.w0 18 = false ∧ Claim.ringOpen s (cplOf s ring) = true ∧ s.cox.quars.find? (fun q => q.1 % 2 ^ 32 == bits f.w1 31 0) = some q ∧ bits f.w1 33 32 = 1 ∧ q.2.2.1 < numTiles ∧ (tileOf s q.2.2.1).charges = []) :=
  ⟨⟨(5, 3, 1151, 9), 7, fr 0x703 (dw [(0, 5), (32, 2)]), (fun s : State => { withRegs [(reg .ERR_QUAR_USED, 0xFF#64)] s with cox := { s.cox with quars := [(5, 3, 1151, 9)] } }) ringsOn, by unfold Claim.taken; decide +kernel⟩,
   ⟨7, fr 0x703 (dw [(0, 5), (32, 1)]), (5, 3, 1151, 9), (fun s : State => { withRegs [(reg .ERR_QUAR_USED, 0xFF#64)] s with cox := { s.cox with quars := [(5, 3, 1151, 9)] } }) ringsOn, by unfold Claim.taken; decide +kernel⟩⟩

theorem test_meets_CounterAndFirmwareCommands_1 :
    (∃ (ring : Nat) (a : Nat) (n : Nat) (f : Frame) (s : State), Claim.taken s ring 0x0800 f { ops := [maskBits 10 0 ||| maskBits 26 16], buf := true } ∧ a = bits f.w1 10 0 ∧ n = bits f.w1 26 16 + 1 ∧ a ≠ 0x7FF ∧ a + n ≤ numTiles ∧ 128 * n ≤ bufLen f ∧ bit f.w7 32 = false) ∧
    (∃ (ring : Nat) (f : Frame) (s : State), Claim.taken s ring 0x0800 f ({ ops := [maskBits 10 0 ||| maskBits 26 16], buf := true }) ∧ Claim.ringOpen s (cplOf s ring) = true ∧ bits f.w1 10 0 ≠ 0x7FF ∧ numTiles < bits f.w1 10 0 + (bits f.w1 26 16 + 1)) ∧
    (∃ (ring : Nat) (f : Frame) (s : State), Claim.taken s ring 0x0801 f ({ ops := [maskBits 3 0, maskBits 47 0] }) ∧ Claim.ringOpen s (cplOf s ring) = true ∧ (bits f.w2 47 0 % 4096 ≠ 0 ∨ stackTop < bits f.w2 47 0 + 4096 * 2 ^ bits f.w1 3 0)) ∧
    (∃ (ring : Nat) (f : Frame) (s : State), Claim.taken s ring 0x0900 f ({ buf := true }) ∧ Claim.ringOpen s (cplOf s ring) = true ∧ bufLen f < 64) ∧
    (∃ (ring : Nat) (f : Frame) (s : State), Claim.taken s ring 0x0901 f ({ ops := [maskBits 0 0] }) ∧ Claim.ringOpen s (cplOf s ring) = true ∧ s.gate.staging.isSome = true) ∧
    (∃ (ring : Nat) (f : Frame) (s : State), Claim.taken s ring 0x0901 f ({ ops := [maskBits 0 0] }) ∧ Claim.ringOpen s (cplOf s ring) = true ∧ s.gate.staging = none ∧ bit f.w1 0 = true ∧ s.ports.update = 1) ∧
    (∃ (ring : Nat) (f : Frame) (s : State), Claim.taken s ring 0x0801 f ({ ops := [maskBits 3 0, maskBits 47 0] }) ∧ bit f.w0 18 = false ∧ Claim.ringOpen s (cplOf s ring) = true ∧ bits f.w2 47 0 % 4096 = 0 ∧ bits f.w2 47 0 + 4096 * 2 ^ bits f.w1 3 0 ≤ stackTop) ∧
    (∃ (ring : Nat) (f : Frame) (s : State), Claim.taken s ring 0x0900 f ({ buf := true }) ∧ bit f.w0 18 = false ∧ Claim.ringOpen s (cplOf s ring) = true ∧ bit f.w7 32 = false ∧ 64 ≤ bufLen f) :=
  ⟨⟨7, 1151, 1, frb 0x800 1151#64 [] 128, ringsOn, by unfold Claim.taken; decide +kernel⟩,
   ⟨7, frb 0x800 (dw [(0, 1151), (16, 1)]) [] 256, ringsOn, by unfold Claim.taken; decide +kernel⟩,
   ⟨7, fr 0x801 0#64 0x1001#64, ringsOn, by unfold Claim.taken; decide +kernel⟩,
   ⟨7, frb 0x900 0#64 [] 63, ringsOn, by unfold Claim.taken; decide +kernel⟩,
   ⟨7, fr 0x901 (0#64), (fun s : State => { s with gate := { s.gate with staging := some (true, none) } }) ringsOn, by unfold Claim.taken; decide +kernel⟩,
   ⟨7, fr 0x901 (1#64), (fun s : State => { s with ports := { s.ports with update := 1 } }) ringsOn, by unfold Claim.taken; decide +kernel⟩,
   ⟨7, fr 0x801 15#64 0x5FF8000000#64, ringsOn, by unfold Claim.taken; decide +kernel⟩,
   ⟨7, frb 0x900 0#64 [] 64, ringsOn, by unfold Claim.taken; decide +kernel⟩⟩

theorem test_meets_CounterAndFirmwareCommands_2 :
    (∃ (ring : Nat) (f : Frame) (s : State), Claim.taken s ring 0x0901 f { ops := [maskBits 0 0] } ∧ Claim.ringOpen s (cplOf s ring) = true ∧ s.gate.staging = none ∧ bit f.w1 0 = false) ∧
    (∃ (ring : Nat) (f : Frame) (s : State), Claim.taken s ring 0x0901 f ({ ops := [maskBits 0 0] }) ∧ Claim.ringOpen s (cplOf s ring) = true ∧ s.gate.staging = none ∧ bit f.w1 0 = true ∧ s.ports.update ≠ 1) ∧
    (∃ (ring : Nat) (f : Frame) (s : State), Claim.taken s ring 0x0902 f {} ∧ bit f.w0 18 = false ∧ Claim.ringOpen s (cplOf s ring) = true ∧ (∀ g, g < 16 → cgState s g ≠ 1)) :=
  ⟨⟨7, fr 0x901 (0#64), ringsOn, by unfold Claim.taken; decide +kernel⟩,
   ⟨7, fr 0x901 (1#64), ringsOn, by unfold Claim.taken; decide +kernel⟩,
   ⟨7, fr 0x902 (0#64), ringsOn { up with tiles := [(0, tRun)] }, by unfold Claim.taken; decide +kernel⟩⟩

theorem test_meets_ConfigurationCommits_1 :
    (∃ (ring : Nat) (g : Nat) (f : Frame) (s : State), Claim.taken s ring 0x0104 f { ops := [maskAll] } ∧ Claim.ringOpen s (cplOf s ring) = true ∧ s.cox.lock = none ∧ changesQuiescent s = false ∧ freeSlot s = some g ∧ cfgError s s.cox.staging f.w1 false = 0) ∧
    (∃ (ring : Nat) (g : Nat) (f : Frame) (s : State), Claim.taken s ring 0x0104 f { ops := [maskAll] } ∧ s.cox.lock = none ∧ changesQuiescent s = false ∧ freeSlot s = some g ∧ cfgError s s.cox.staging f.w1 false ≠ 0 ∧ s.gate.st = .underway) ∧
    (∃ (ring : Nat) (f : Frame) (s : State), Claim.taken s ring 0x0104 f ({ ops := [maskAll] }) ∧ Claim.ringOpen s (cplOf s ring) = true ∧ (s.cox.lock.isSome = true ∨ (changesQuiescent s = true ∧ (s.gate.st = .underway ∨ s.gate.st = .easy ∨ (s.gate.st = .hold ∧ s.gate.frozen = true))))) ∧
    (∃ (ring : Nat) (f : Frame) (s : State), Claim.taken s ring 0x0104 f ({ ops := [maskAll] }) ∧ Claim.ringOpen s (cplOf s ring) = true ∧ s.cox.lock = none ∧ changesQuiescent s = false ∧ freeSlot s = none) ∧
    (∃ (ring : Nat) (f : Frame) (s : State), Claim.taken s ring 0x0105 f ({}) ∧ Claim.ringOpen s (cplOf s ring) = true ∧ (s.gate.st ≠ .rigged ∨ s.gate.frozen = true ∨ s.cox.lock.isSome = true)) ∧
    (∃ (ring : Nat) (f : Frame) (s : State), Claim.taken s ring 0x0407 f ({ ops := [0xF3#64] }) ∧ Claim.ringOpen s (cplOf s ring) = true ∧ (bits f.w1 1 0 = 3 ∨ bits f.w1 7 4 = 15)) ∧
    (∃ (ring : Nat) (f : Frame) (s : State), Claim.taken s ring 0x0407 f ({ ops := [0xF3#64] }) ∧ Claim.ringOpen s (cplOf s ring) = true ∧ bits f.w1 1 0 < 3 ∧ bits f.w1 7 4 < 15 ∧ bit (rget s (reg .GATE_LINK_MASK)) (bits f.w1 1 0 * 16 + 15) = false) ∧
    (∃ (ring : Nat) (f : Frame) (s : State), Claim.taken s ring 0x0407 f ({ ops := [0xF3#64] }) ∧ Claim.ringOpen s (cplOf s ring) = true ∧ bits f.w1 1 0 < 3 ∧ bits f.w1 7 4 < 15 ∧ bit (rget s (reg .GATE_LINK_MASK)) (bits f.w1 1 0 * 16 + 15) = true ∧ bit (rget s (reg .LNK_CTL (bits f.w1 1 0 * 16 + 15))) 2 = true) :=
  ⟨⟨7, 0, fr 0x104 (shortDigest (cfgAll cfgMin)), ringsOn { up with cox := { staging := cfgMin, active := cfgMin } }, by unfold Claim.taken; decide +kernel⟩,
   ⟨7, 0, fr 0x104 0#64, ringsOn, by unfold Claim.taken; decide +kernel⟩,
   ⟨7, fr 0x104 (0#64), (fun s : State => { s with cox := { s.cox with lock := some cmd7 } }) (ringsOn), by unfold Claim.taken; decide +kernel⟩,
   ⟨7, fr 0x104 (0#64), (fun s : State => { s with cox := { s.cox with staging := cfgMin, active := cfgMin } }) (ringsOn (withRegs ((List.range 16).map (fun g => (reg .CG_STATE g, 0#64))))), by unfold Claim.taken; decide +kernel⟩,
   ⟨7, fr 0x105 (0#64), ringsOn, by unfold Claim.taken; decide +kernel⟩,
   ⟨7, fr 0x407 (3#64), ringsOn, by unfold Claim.taken; decide +kernel⟩,
   ⟨7, fr 0x407 (0x22#64), ringsOn (withRegs [(reg .GATE_LINK_MASK, 0#64)]), by unfold Claim.taken; decide +kernel⟩,
   ⟨7, fr 0x407 (0x22#64), ringsOn (withRegs [(reg .LNK_CTL 47, 0xE5#64)]), by unfold Claim.taken; decide +kernel⟩⟩

theorem test_meets_ConfigurationCommits_2 :
    (∃ (ring : Nat) (f : Frame) (s : State), Claim.taken s ring 0x0408 f ({ ops := [maskBits 1 0] }) ∧ Claim.ringOpen s (cplOf s ring) = true ∧ bits f.w1 1 0 = 3) ∧
    (∃ (ring : Nat) (f : Frame) (s : State), Claim.taken s ring 0x0408 f ({ ops := [maskBits 1 0] }) ∧ Claim.ringOpen s (cplOf s ring) = true ∧ bits f.w1 1 0 < 3 ∧ bit (rget s (reg .LNK_CTL (bits f.w1 1 0 * 16 + 15))) 2 = false) ∧
    (∃ (s : State), s.cox.lock = none) ∧
    (∃ (c : CmdRef) (d : Word) (s : State), s.cox.lock = some c ∧ d = shortDigest (cfgAll s.gate.buf) ∧ cfgError s s.gate.buf d true = 0) ∧
    (∃ (c : CmdRef) (d : Word) (s : State), s.cox.lock = some c ∧ d = shortDigest (cfgAll s.gate.buf) ∧ cfgError s s.gate.buf d true ≠ 0 ∧ s.gate.st = .moored) ∧
    (∃ (ring : Nat) (f : Frame) (s : State), Claim.taken s ring 0x0105 f {} ∧ bit f.w0 18 = false ∧ Claim.ringOpen s (cplOf s ring) = true ∧ s.gate.st = .rigged ∧ s.gate.frozen = false ∧ s.cox.lock = none) ∧
    (∃ (ring : Nat) (d : Nat) (j : Nat) (f : Frame) (s : State), Claim.taken s ring 0x0407 f { ops := [0xF3#64] } ∧ d = bits f.w1 1 0 ∧ j = bits f.w1 7 4 ∧ d < 3 ∧ j < 15 ∧ bit (rget s (reg .GATE_LINK_MASK)) (d * 16 + 15) = true ∧ bit (rget s (reg .LNK_CTL (d * 16 + 15))) 2 = false) ∧
    (∃ (ring : Nat) (d : Nat) (f : Frame) (s : State), Claim.taken s ring 0x0408 f { ops := [maskBits 1 0] } ∧ d = bits f.w1 1 0 ∧ d < 3 ∧ bit (rget s (reg .LNK_CTL (d * 16 + 15))) 2 = true) :=
  ⟨⟨7, fr 0x408 (3#64), ringsOn, by unfold Claim.taken; decide +kernel⟩,
   ⟨7, fr 0x408 (2#64), ringsOn, by unfold Claim.taken; decide +kernel⟩,
   ⟨up, by decide +kernel⟩,
   ⟨{ cmd7 with w0 := 0x104#64 }, shortDigest (cfgAll cfgMin), ringsOn { gate := { st := .moored, coxValid := true, boot := 2, buf := cfgMin }, cox := { staging := cfgMin, lock := some ({ cmd7 with w0 := 0x104#64 }) } }, by refine ⟨?_, rfl, ?_⟩ <;> decide +kernel⟩,
   ⟨{ cmd7 with w0 := 0x104#64 }, shortDigest (cfgAll []), ringsOn { gate := { st := .moored, coxValid := true, boot := 2 }, cox := { lock := some ({ cmd7 with w0 := 0x104#64 }) } }, by refine ⟨?_, rfl, ?_, ?_⟩ <;> decide +kernel⟩,
   ⟨7, fr 0x105 (0#64), ringsOn (inState .rigged), by unfold Claim.taken; decide +kernel⟩,
   ⟨7, 2, 14, fr 0x407 (dw [(0, 2), (4, 14)]), ringsOn, by refine ⟨?_, rfl, ?_, ?_, ?_, ?_, ?_⟩ <;> first | decide +kernel | (unfold Claim.taken; decide +kernel)⟩,
   ⟨7, 2, fr 0x408 (2#64), ringsOn (withRegs [(reg .LNK_CTL 47, 0xE5#64), (reg .LNK_STAT 47, 3#64)]), by refine ⟨?_, rfl, ?_, ?_⟩ <;> first | decide +kernel | (unfold Claim.taken; decide +kernel)⟩⟩

theorem test_meets_ScansRun_1 :
    (∃ (px : Nat) (py : Nat) (t : Nat) (s : State), Claim.sweepAt s px py ∧ tileAt s (px, py) = some t ∧ tileState s t = 0) ∧
    (∃ (px : Nat) (py : Nat) (t : Nat) (s : State), Claim.sweepAt s px py ∧ tileAt s (px, py) = some t ∧ tileState s t ≠ 0) ∧
    (∃ (px : Nat) (py : Nat) (s : State), (isUp s = false ∨ s.gate.switching.isSome = true ∨ 48 ≤ px ∨ 26 ≤ py ∨ scanRoom s (dieOfPos px py) = false)) ∧
    (∃ (t : Nat) (s : State), t < numTiles ∧ (tileOf s t).scan = 1 ∧ tileState s t = 1 ∧ quiet s t = true ∧ s.gate.switching = none ∧ scanStreams s (dieOfTile t) = true) ∧
    (∃ (t : Nat) (s : State), (numTiles ≤ t ∨ (tileOf s t).scan ≠ 1 ∨ quiet s t = false ∨ s.gate.switching.isSome = true ∨ scanStreams s (dieOfTile t) = false)) ∧
    (∃ (t : Nat) (s : State), t < numTiles ∧ (tileOf s t).scan = 1 ∧ tileState s t = 1 ∧ quiet s t = false) ∧
    (∃ (t : Nat) (s : State), (numTiles ≤ t ∨ (tileOf s t).scan ≠ 1 ∨ tileState s t ≠ 1 ∨ quiet s t = true)) ∧
    (∃ (t : Nat) (s : State), Claim.scanning s t 2 ∧ (tileOf s t).scanCmd = none) :=
  ⟨⟨46, 25, 0, withRaw [(reg .ERR_SCAN_POS, dw [(0, 46), (8, 25)]), (reg .TILE_MAP 0, dw [(0, 46), (8, 25)])], by unfold Claim.sweepAt; decide +kernel⟩,
   ⟨46, 25, 0, withRaw [(reg .ERR_SCAN_POS, dw [(0, 46), (8, 25)]), (reg .TILE_STATE 0, 1#64), (reg .TILE_MAP 0, dw [(0, 46), (8, 25)])], by unfold Claim.sweepAt; decide +kernel⟩,
   ⟨48, 0, up, by decide +kernel⟩,
   ⟨1151, tileAt_ 1151 { scan := 1 } (withRegs [(reg .TILE_STATE 1151, 1#64)]), by decide +kernel⟩,
   ⟨1152, up, by decide +kernel⟩,
   ⟨1151, tileAt_ 1151 { tRun with scan := 1 } (withRegs [(reg .TILE_STATE 1151, 1#64)]), by decide +kernel⟩,
   ⟨1152, up, by decide +kernel⟩,
   ⟨1151, tileAt_ 1151 { scan := 2 } (withRegs [(reg .TILE_TAINT 1151 5, 9#64), (reg .TILE_STATE 1151, 3#64)]), by unfold Claim.scanning; decide +kernel⟩⟩

theorem test_meets_ScansRun_2 :
    (∃ (t : Nat) (s : State), Claim.scanning s t 2) ∧
    (∃ (t : Nat) (s : State), Claim.scanning s t 3 ∧ (tileOf s t).scanCmd = none ∧ assist s 7 = true ∧ retiring s t = false) ∧
    (∃ (t : Nat) (s : State), Claim.scanning s t 3 ∧ (tileOf s t).scanCmd = none ∧ (tileOf s t).scanInt = none) ∧
    (∃ (t : Nat) (e : Nat) (s : State), Claim.scanning s t 3 ∧ (tileOf s t).scanCmd = none ∧ (tileOf s t).scanInt = some e ∧ (epoch s).toNat < e + dayNs ∧ assist s 7 = true ∧ retiring s t = false) ∧
    (∃ (t : Nat) (s : State), t < numTiles ∧ (tileState s t ≠ 3 ∨ ((tileOf s t).scan ≠ 2 ∧ (tileOf s t).scan ≠ 3) ∨ s.gate.switching.isSome = true)) ∧
    (∃ (k : Nat) (b : Bool) (s : State), s.cox.spareScan = [(k, b)]) ∧
    (∃ (k : Nat) (s : State), s.cox.spareScan = [(k, false)]) ∧
    (∃ (k : Nat) (s : State), s.cox.spareScan = [(k, true)]) :=
  ⟨⟨1151, tileAt_ 1151 { scan := 2 } (withRegs [(reg .TILE_STATE 1151, 3#64)]), by unfold Claim.scanning; decide +kernel⟩,
   ⟨1151, tileAt_ 1151 { scan := 3 } (withRegs [(reg .MBX_ASSIST, 0x80#64), (reg .TILE_STATE 1151, 3#64)]), by unfold Claim.scanning; decide +kernel⟩,
   ⟨1151, tileAt_ 1151 { scan := 3 } (withRegs [(reg .MBX_ASSIST, 0x80#64), (reg .TILE_STATE 1151, 3#64)]), by unfold Claim.scanning; decide +kernel⟩,
   ⟨1151, 5, tileAt_ 1151 { scan := 3, scanInt := some 5 } (withRegs [(reg .TILE_STATE 1151, 3#64), (reg .MBX_ASSIST, 0x80#64), (reg .EPOCH_NOW, 9000#64)]), by unfold Claim.scanning; decide +kernel⟩,
   ⟨1151, up, by decide +kernel⟩,
   ⟨1647, true, { up with cox := { spareScan := [(1647, true)] } }, by decide +kernel⟩,
   ⟨1647, { up with cox := { spareScan := [(1647, false)] } }, by decide +kernel⟩,
   ⟨1647, { up with cox := { spareScan := [(1647, true)] } }, by decide +kernel⟩⟩

theorem test_meets_ScansRun_3 :
    ∃ (s : State), s.cox.spareScan = [] :=
  ⟨up, by decide +kernel⟩

theorem test_meets_DiesAreLost :
    (∃ (die : Nat) (s : State), die < 4 ∧ dieGone s die = false ∧ s.gate.st ≠ .off) ∧
    (∃ (die : Nat) (s : State), (4 ≤ die ∨ dieGone s die = true ∨ s.gate.st = .off)) :=
  ⟨⟨3, { up with tiles := [(0, tRun), (1151, tIdle)] }, by decide +kernel⟩,
   ⟨4, up, by decide +kernel⟩⟩

theorem test_meets_CountersAndSamples_1 :
    (∃ (t : Nat) (s : State), t < numTiles ∧ tileState s t ≠ 2 ∧ pmcLocked s = false) ∧
    (∃ (t : Nat) (s : State), t < numTiles ∧ tileState s t ≠ 2 ∧ pmcLocked s = true) ∧
    (∃ (t : Nat) (s : State), t < numTiles ∧ tileState s t = 2) ∧
    (∃ (t : Nat), numTiles ≤ t) ∧
    (∃ (s : State), pmcLocked s = false) ∧
    (∃ (s : State), pmcLocked s = true) ∧
    (∃ (s : State), s.gate.st ≠ .off ∧ bit (rget s (reg .EPOCH_FREEZE_CTL)) 0 = true ∧ (rget s (reg .EPOCH_FREEZE_AT)).toNat ≤ (epoch s).toNat) ∧
    (∃ (s : State), (s.gate.st = .off ∨ bit (rget s (reg .EPOCH_FREEZE_CTL)) 0 = false ∨ (epoch s).toNat < (rget s (reg .EPOCH_FREEZE_AT)).toNat)) :=
  ⟨⟨1151, withRegs [(reg .TILE_PMC_CTR 1151 0, 5#64), (reg .TILE_PMC_CTR 1151 1, 6#64)], by decide +kernel⟩,
   ⟨1151, withRegs [(reg .PMC_CTL, 1#64)], by decide +kernel⟩,
   ⟨1151, withRegs [(reg .TILE_STATE 1151, 2#64)], by decide +kernel⟩,
   ⟨1152, by decide +kernel⟩,
   ⟨up, by decide +kernel⟩,
   ⟨withRegs [(reg .PMC_CTL, 1#64)], by decide +kernel⟩,
   ⟨withRegs [(reg .EPOCH_FREEZE_CTL, 1#64), (reg .EPOCH_FREEZE_AT, 9#64), (reg .EPOCH_NOW, 9#64)], by decide +kernel⟩,
   ⟨up, by decide +kernel⟩⟩

theorem test_meets_CountersAndSamples_2 :
    (∃ (t : Nat) (p : Sample) (ps : List Sample) (s : State), Claim.sampleReady s t p ps ∧ sampleCap s ≤ Claim.samplesHeld s) ∧
    (∃ (t : Nat) (a : Nat) (p : Sample) (ps : List Sample) (s : State), Claim.sampleReady s t p ps ∧ Claim.samplesHeld s < sampleCap s ∧ a = Claim.sampleAddr s ∧ stkPresent s a = true ∧ stackLost s (physStack (physOf s (backing s false a))) = false) ∧
    (∃ (t : Nat) (a : Nat) (ok : Bool) (p : Sample) (ps : List Sample) (s : State), Claim.sampleReady s t p ps ∧ Claim.samplesHeld s < sampleCap s ∧ a = Claim.sampleAddr s ∧ (ok = false ∨ stkPresent s a = false ∨ stackLost s (physStack (physOf s (backing s false a))) = true)) ∧
    (∃ (t : Nat) (s : State), (tileOf s t).samples.all (fun p => (tileOf s t).inFlight p.sn) = true) :=
  ⟨⟨1151, { sn := 0, bytes := List.replicate 64 7#8 }, [], tileAt_ 1151 { samples := [({ sn := 0, bytes := List.replicate 64 7#8 })] } (withRegs [(reg .PMC_SRING_WR, 64#64)]), by unfold Claim.sampleReady; decide +kernel⟩,
   ⟨1151, Claim.sampleAddr ((tileAt_ 1151 { samples := [({ sn := 0, bytes := List.replicate 64 7#8 })] } (withRegs [(reg .PMC_SRING, dw [(12, 0)]), (reg .PMC_SRING_WR, 0xFFFFFFFF#64), (reg .PMC_SRING_RD, 0xFFFFFFFF#64)]))), { sn := 0, bytes := List.replicate 64 7#8 }, [], tileAt_ 1151 { samples := [({ sn := 0, bytes := List.replicate 64 7#8 })] } (withRegs [(reg .PMC_SRING, dw [(12, 0)]), (reg .PMC_SRING_WR, 0xFFFFFFFF#64), (reg .PMC_SRING_RD, 0xFFFFFFFF#64)]), by unfold Claim.sampleReady; decide +kernel⟩,
   ⟨1151, Claim.sampleAddr ((tileAt_ 1151 { samples := [({ sn := 0, bytes := List.replicate 64 7#8 })] } (withRegs [(reg .PMC_SRING, dw [(12, 0)]), (reg .PMC_SRING_WR, 0xFFFFFFFF#64), (reg .PMC_SRING_RD, 0xFFFFFFFF#64)]))), false, { sn := 0, bytes := List.replicate 64 7#8 }, [], tileAt_ 1151 { samples := [({ sn := 0, bytes := List.replicate 64 7#8 })] } (withRegs [(reg .PMC_SRING, dw [(12, 0)]), (reg .PMC_SRING_WR, 0xFFFFFFFF#64), (reg .PMC_SRING_RD, 0xFFFFFFFF#64)]), by unfold Claim.sampleReady; decide +kernel⟩,
   ⟨1151, up, by decide +kernel⟩⟩

theorem test_meets_TimeIsKept_1 :
    (∃ (sub : Nat) (at_ : Word) (target : Word) (e : Int) (s : State), Claim.edge s sub at_ target e ∧ assist s 13 = true) ∧
    (∃ (sub : Nat) (at_ : Word) (target : Word) (e : Int) (s : State), Claim.edge s sub at_ target e ∧ assist s 13 = false ∧ epochState s = 2 ∧ e.natAbs ≤ 5) ∧
    (∃ (sub : Nat) (at_ : Word) (target : Word) (e : Int) (s : State), Claim.edge s sub at_ target e ∧ assist s 13 = false ∧ epochState s = 2 ∧ 5 < e.natAbs ∧ e.natAbs ≤ 1000) ∧
    (∃ (sub : Nat) (at_ : Word) (target : Word) (e : Int) (s : State), Claim.edge s sub at_ target e ∧ assist s 13 = false ∧ (epochState s = 1 ∨ epochState s = 3) ∧ e.natAbs ≤ 1000000) ∧
    (∃ (sub : Nat) (at_ : Word) (target : Word) (e : Int) (s : State), Claim.edge s sub at_ target e ∧ assist s 13 = false ∧ epochState s = 0 ∧ e.natAbs ≤ 1000000) ∧
    (∃ (sub : Nat) (at_ : Word) (target : Word) (e : Int) (s : State), Claim.edge s sub at_ target e ∧ assist s 13 = false ∧ epochState s ≠ 2 ∧ 1000000 < e.natAbs) ∧
    (∃ (sub : Nat) (at_ : Word) (target : Word) (e : Int) (s : State), Claim.edge s sub at_ target e ∧ assist s 13 = false ∧ epochState s = 2 ∧ 1000 < e.natAbs ∧ s.ep.outl.length < 2) ∧
    (∃ (sub : Nat) (at_ : Word) (target : Word) (a : Int) (b : Int) (e : Int) (s : State), Claim.edge s sub at_ target e ∧ assist s 13 = false ∧ epochState s = 2 ∧ 1000 < e.natAbs ∧ e.natAbs ≤ 1000000 ∧ s.ep.outl = [a, b] ∧ (a - b).natAbs ≤ 1000 ∧ (a - e).natAbs ≤ 1000 ∧ (b - e).natAbs ≤ 1000) :=
  ⟨⟨3, epoch (((withRegs [(reg .EPOCH_STAT, 2#64), (reg .EPOCH_NEXT_SEC, 1000000000#64), (reg .EPOCH_NOW, 1000000500#64), (reg .MBX_ASSIST, 0x2000#64)]))) + w64 (3 % 10), (((withRegs [(reg .EPOCH_STAT, 2#64), (reg .EPOCH_NEXT_SEC, 1000000000#64), (reg .EPOCH_NOW, 1000000500#64), (reg .MBX_ASSIST, 0x2000#64)])) : State).ep.target.getD (rget (((withRegs [(reg .EPOCH_STAT, 2#64), (reg .EPOCH_NEXT_SEC, 1000000000#64), (reg .EPOCH_NOW, 1000000500#64), (reg .MBX_ASSIST, 0x2000#64)]))) (reg .EPOCH_NEXT_SEC)), (((epoch (((withRegs [(reg .EPOCH_STAT, 2#64), (reg .EPOCH_NEXT_SEC, 1000000000#64), (reg .EPOCH_NOW, 1000000500#64), (reg .MBX_ASSIST, 0x2000#64)]))) + w64 (3 % 10))) - (((((withRegs [(reg .EPOCH_STAT, 2#64), (reg .EPOCH_NEXT_SEC, 1000000000#64), (reg .EPOCH_NOW, 1000000500#64), (reg .MBX_ASSIST, 0x2000#64)])) : State).ep.target.getD (rget (((withRegs [(reg .EPOCH_STAT, 2#64), (reg .EPOCH_NEXT_SEC, 1000000000#64), (reg .EPOCH_NOW, 1000000500#64), (reg .MBX_ASSIST, 0x2000#64)]))) (reg .EPOCH_NEXT_SEC))))).toInt, (withRegs [(reg .EPOCH_STAT, 2#64), (reg .EPOCH_NEXT_SEC, 1000000000#64), (reg .EPOCH_NOW, 1000000500#64), (reg .MBX_ASSIST, 0x2000#64)]), by unfold Claim.edge; decide +kernel⟩,
   ⟨5, epoch (((withRegs [(reg .EPOCH_STAT, 2#64), (reg .EPOCH_NEXT_SEC, 1000000000#64), (reg .EPOCH_NOW, 1000000000#64)]))) + w64 (5 % 10), (((withRegs [(reg .EPOCH_STAT, 2#64), (reg .EPOCH_NEXT_SEC, 1000000000#64), (reg .EPOCH_NOW, 1000000000#64)])) : State).ep.target.getD (rget (((withRegs [(reg .EPOCH_STAT, 2#64), (reg .EPOCH_NEXT_SEC, 1000000000#64), (reg .EPOCH_NOW, 1000000000#64)]))) (reg .EPOCH_NEXT_SEC)), (((epoch (((withRegs [(reg .EPOCH_STAT, 2#64), (reg .EPOCH_NEXT_SEC, 1000000000#64), (reg .EPOCH_NOW, 1000000000#64)]))) + w64 (5 % 10))) - (((((withRegs [(reg .EPOCH_STAT, 2#64), (reg .EPOCH_NEXT_SEC, 1000000000#64), (reg .EPOCH_NOW, 1000000000#64)])) : State).ep.target.getD (rget (((withRegs [(reg .EPOCH_STAT, 2#64), (reg .EPOCH_NEXT_SEC, 1000000000#64), (reg .EPOCH_NOW, 1000000000#64)]))) (reg .EPOCH_NEXT_SEC))))).toInt, (withRegs [(reg .EPOCH_STAT, 2#64), (reg .EPOCH_NEXT_SEC, 1000000000#64), (reg .EPOCH_NOW, 1000000000#64)]), by unfold Claim.edge; decide +kernel⟩,
   ⟨6, epoch (((withRegs [(reg .EPOCH_STAT, 2#64), (reg .EPOCH_NEXT_SEC, 1000000000#64), (reg .EPOCH_NOW, 1000000000#64)]))) + w64 (6 % 10), (((withRegs [(reg .EPOCH_STAT, 2#64), (reg .EPOCH_NEXT_SEC, 1000000000#64), (reg .EPOCH_NOW, 1000000000#64)])) : State).ep.target.getD (rget (((withRegs [(reg .EPOCH_STAT, 2#64), (reg .EPOCH_NEXT_SEC, 1000000000#64), (reg .EPOCH_NOW, 1000000000#64)]))) (reg .EPOCH_NEXT_SEC)), (((epoch (((withRegs [(reg .EPOCH_STAT, 2#64), (reg .EPOCH_NEXT_SEC, 1000000000#64), (reg .EPOCH_NOW, 1000000000#64)]))) + w64 (6 % 10))) - (((((withRegs [(reg .EPOCH_STAT, 2#64), (reg .EPOCH_NEXT_SEC, 1000000000#64), (reg .EPOCH_NOW, 1000000000#64)])) : State).ep.target.getD (rget (((withRegs [(reg .EPOCH_STAT, 2#64), (reg .EPOCH_NEXT_SEC, 1000000000#64), (reg .EPOCH_NOW, 1000000000#64)]))) (reg .EPOCH_NEXT_SEC))))).toInt, (withRegs [(reg .EPOCH_STAT, 2#64), (reg .EPOCH_NEXT_SEC, 1000000000#64), (reg .EPOCH_NOW, 1000000000#64)]), by unfold Claim.edge; decide +kernel⟩,
   ⟨5, epoch (((fun s : State => { s with ep := { s.ep with good := 3 } }) (withRegs [(reg .EPOCH_STAT, 1#64), (reg .EPOCH_NEXT_SEC, 1000000000#64), (reg .EPOCH_NOW, 1000000000#64)]))) + w64 (5 % 10), (((fun s : State => { s with ep := { s.ep with good := 3 } }) (withRegs [(reg .EPOCH_STAT, 1#64), (reg .EPOCH_NEXT_SEC, 1000000000#64), (reg .EPOCH_NOW, 1000000000#64)])) : State).ep.target.getD (rget (((fun s : State => { s with ep := { s.ep with good := 3 } }) (withRegs [(reg .EPOCH_STAT, 1#64), (reg .EPOCH_NEXT_SEC, 1000000000#64), (reg .EPOCH_NOW, 1000000000#64)]))) (reg .EPOCH_NEXT_SEC)), (((epoch (((fun s : State => { s with ep := { s.ep with good := 3 } }) (withRegs [(reg .EPOCH_STAT, 1#64), (reg .EPOCH_NEXT_SEC, 1000000000#64), (reg .EPOCH_NOW, 1000000000#64)]))) + w64 (5 % 10))) - (((((fun s : State => { s with ep := { s.ep with good := 3 } }) (withRegs [(reg .EPOCH_STAT, 1#64), (reg .EPOCH_NEXT_SEC, 1000000000#64), (reg .EPOCH_NOW, 1000000000#64)])) : State).ep.target.getD (rget (((fun s : State => { s with ep := { s.ep with good := 3 } }) (withRegs [(reg .EPOCH_STAT, 1#64), (reg .EPOCH_NEXT_SEC, 1000000000#64), (reg .EPOCH_NOW, 1000000000#64)]))) (reg .EPOCH_NEXT_SEC))))).toInt, (fun s : State => { s with ep := { s.ep with good := 3 } }) (withRegs [(reg .EPOCH_STAT, 1#64), (reg .EPOCH_NEXT_SEC, 1000000000#64), (reg .EPOCH_NOW, 1000000000#64)]), by unfold Claim.edge; decide +kernel⟩,
   ⟨5, epoch (((withRegs [(reg .EPOCH_STAT, 0#64), (reg .EPOCH_NEXT_SEC, 1000000000#64), (reg .EPOCH_NOW, 1000000000#64)]))) + w64 (5 % 10), (((withRegs [(reg .EPOCH_STAT, 0#64), (reg .EPOCH_NEXT_SEC, 1000000000#64), (reg .EPOCH_NOW, 1000000000#64)])) : State).ep.target.getD (rget (((withRegs [(reg .EPOCH_STAT, 0#64), (reg .EPOCH_NEXT_SEC, 1000000000#64), (reg .EPOCH_NOW, 1000000000#64)]))) (reg .EPOCH_NEXT_SEC)), (((epoch (((withRegs [(reg .EPOCH_STAT, 0#64), (reg .EPOCH_NEXT_SEC, 1000000000#64), (reg .EPOCH_NOW, 1000000000#64)]))) + w64 (5 % 10))) - (((((withRegs [(reg .EPOCH_STAT, 0#64), (reg .EPOCH_NEXT_SEC, 1000000000#64), (reg .EPOCH_NOW, 1000000000#64)])) : State).ep.target.getD (rget (((withRegs [(reg .EPOCH_STAT, 0#64), (reg .EPOCH_NEXT_SEC, 1000000000#64), (reg .EPOCH_NOW, 1000000000#64)]))) (reg .EPOCH_NEXT_SEC))))).toInt, (withRegs [(reg .EPOCH_STAT, 0#64), (reg .EPOCH_NEXT_SEC, 1000000000#64), (reg .EPOCH_NOW, 1000000000#64)]), by unfold Claim.edge; decide +kernel⟩,
   ⟨1, epoch (((withRegs [(reg .EPOCH_STAT, 1#64), (reg .EPOCH_NEXT_SEC, 1000000000#64), (reg .EPOCH_NOW, 1001000000#64)]))) + w64 (1 % 10), (((withRegs [(reg .EPOCH_STAT, 1#64), (reg .EPOCH_NEXT_SEC, 1000000000#64), (reg .EPOCH_NOW, 1001000000#64)])) : State).ep.target.getD (rget (((withRegs [(reg .EPOCH_STAT, 1#64), (reg .EPOCH_NEXT_SEC, 1000000000#64), (reg .EPOCH_NOW, 1001000000#64)]))) (reg .EPOCH_NEXT_SEC)), (((epoch (((withRegs [(reg .EPOCH_STAT, 1#64), (reg .EPOCH_NEXT_SEC, 1000000000#64), (reg .EPOCH_NOW, 1001000000#64)]))) + w64 (1 % 10))) - (((((withRegs [(reg .EPOCH_STAT, 1#64), (reg .EPOCH_NEXT_SEC, 1000000000#64), (reg .EPOCH_NOW, 1001000000#64)])) : State).ep.target.getD (rget (((withRegs [(reg .EPOCH_STAT, 1#64), (reg .EPOCH_NEXT_SEC, 1000000000#64), (reg .EPOCH_NOW, 1001000000#64)]))) (reg .EPOCH_NEXT_SEC))))).toInt, (withRegs [(reg .EPOCH_STAT, 1#64), (reg .EPOCH_NEXT_SEC, 1000000000#64), (reg .EPOCH_NOW, 1001000000#64)]), by unfold Claim.edge; decide +kernel⟩,
   ⟨1, epoch (((withRegs [(reg .EPOCH_STAT, 2#64), (reg .EPOCH_NEXT_SEC, 1000000000#64), (reg .EPOCH_NOW, 1000001000#64)]))) + w64 (1 % 10), (((withRegs [(reg .EPOCH_STAT, 2#64), (reg .EPOCH_NEXT_SEC, 1000000000#64), (reg .EPOCH_NOW, 1000001000#64)])) : State).ep.target.getD (rget (((withRegs [(reg .EPOCH_STAT, 2#64), (reg .EPOCH_NEXT_SEC, 1000000000#64), (reg .EPOCH_NOW, 1000001000#64)]))) (reg .EPOCH_NEXT_SEC)), (((epoch (((withRegs [(reg .EPOCH_STAT, 2#64), (reg .EPOCH_NEXT_SEC, 1000000000#64), (reg .EPOCH_NOW, 1000001000#64)]))) + w64 (1 % 10))) - (((((withRegs [(reg .EPOCH_STAT, 2#64), (reg .EPOCH_NEXT_SEC, 1000000000#64), (reg .EPOCH_NOW, 1000001000#64)])) : State).ep.target.getD (rget (((withRegs [(reg .EPOCH_STAT, 2#64), (reg .EPOCH_NEXT_SEC, 1000000000#64), (reg .EPOCH_NOW, 1000001000#64)]))) (reg .EPOCH_NEXT_SEC))))).toInt, (withRegs [(reg .EPOCH_STAT, 2#64), (reg .EPOCH_NEXT_SEC, 1000000000#64), (reg .EPOCH_NOW, 1000001000#64)]), by unfold Claim.edge; decide +kernel⟩,
   ⟨0, epoch (((fun s : State => { s with ep := { s.ep with outl := [2000, 1800] } }) (withRegs [(reg .EPOCH_STAT, 2#64), (reg .EPOCH_NEXT_SEC, 1000000000#64), (reg .EPOCH_NOW, 1000001500#64)]))) + w64 (0 % 10), (((fun s : State => { s with ep := { s.ep with outl := [2000, 1800] } }) (withRegs [(reg .EPOCH_STAT, 2#64), (reg .EPOCH_NEXT_SEC, 1000000000#64), (reg .EPOCH_NOW, 1000001500#64)])) : State).ep.target.getD (rget (((fun s : State => { s with ep := { s.ep with outl := [2000, 1800] } }) (withRegs [(reg .EPOCH_STAT, 2#64), (reg .EPOCH_NEXT_SEC, 1000000000#64), (reg .EPOCH_NOW, 1000001500#64)]))) (reg .EPOCH_NEXT_SEC)), 2000, 1800, (((epoch (((fun s : State => { s with ep := { s.ep with outl := [2000, 1800] } }) (withRegs [(reg .EPOCH_STAT, 2#64), (reg .EPOCH_NEXT_SEC, 1000000000#64), (reg .EPOCH_NOW, 1000001500#64)]))) + w64 (0 % 10))) - (((((fun s : State => { s with ep := { s.ep with outl := [2000, 1800] } }) (withRegs [(reg .EPOCH_STAT, 2#64), (reg .EPOCH_NEXT_SEC, 1000000000#64), (reg .EPOCH_NOW, 1000001500#64)])) : State).ep.target.getD (rget (((fun s : State => { s with ep := { s.ep with outl := [2000, 1800] } }) (withRegs [(reg .EPOCH_STAT, 2#64), (reg .EPOCH_NEXT_SEC, 1000000000#64), (reg .EPOCH_NOW, 1000001500#64)]))) (reg .EPOCH_NEXT_SEC))))).toInt, (fun s : State => { s with ep := { s.ep with outl := [2000, 1800] } }) (withRegs [(reg .EPOCH_STAT, 2#64), (reg .EPOCH_NEXT_SEC, 1000000000#64), (reg .EPOCH_NOW, 1000001500#64)]), by unfold Claim.edge; decide +kernel⟩⟩

theorem test_meets_TimeIsKept_2 :
    (∃ (s : State), s.gate.st ≠ .off ∧ assist s 13 = false ∧ (epochState s = 1 ∨ epochState s = 2)) ∧
    (∃ (s : State), (s.gate.st = .off ∨ assist s 13 = true ∨ epochState s = 0 ∨ epochState s = 3)) ∧
    (∃ (s : State), s.gate.st = .off) ∧
    (∃ (s : State), assist s 13 = true) ∧
    (∃ (s : State), assist s 13 = false) ∧
    (∃ (p : Nat) (s : State), p < 26 ∧ s.gate.st ≠ .off) ∧
    (∃ (p : Nat) (s : State), p < 26 ∧ bit (rget s (reg .CLK_LOCK)) p = true) ∧
    (∃ (p : Nat) (s : State), (26 ≤ p ∨ s.gate.st = .off)) :=
  ⟨⟨withRegs [(reg .EPOCH_STAT, 1#64), (reg .EPOCH_NEXT_SEC, 1000000000#64)], by decide +kernel⟩,
   ⟨inState .off, by decide +kernel⟩,
   ⟨inState .off, by decide +kernel⟩,
   ⟨withRegs [(reg .MBX_ASSIST, 0x2000#64)], by decide +kernel⟩,
   ⟨up, by decide +kernel⟩,
   ⟨25, up, by decide +kernel⟩,
   ⟨25, withRegs [(reg .CLK_LOCK, 0x2000000#64)], by decide +kernel⟩,
   ⟨26, up, by decide +kernel⟩⟩

theorem test_meets_TimeIsKept_3 :
    ∃ (p : Nat) (s : State), (26 ≤ p ∨ bit (rget s (reg .CLK_LOCK)) p = false) :=
  ⟨26, up, by decide +kernel⟩

theorem test_meets_PowerIsLimited_1 :
    (∃ (dies : List Nat) (stackW : Nat) (linkW : Nat) (ctrlW : Nat) (a : Nat) (avg2 : Nat) (avg100 : Nat) (ws : List Nat) (above : Bool) (fell : Bool) (s : State), s.gate.st ≠ .off ∧ a = Claim.packagePower s dies stackW linkW ctrlW ∧ ws = (a :: s.gov.samples).take 10000 ∧ avg2 = sumNat (ws.take 200) / min 200 ws.length ∧ avg100 = sumNat ws / ws.length ∧ above = (decide (rbits s (reg .GATE_PWR_CEIL) 27 16 < avg2) || decide (rbits s (reg .GATE_PWR_CEIL) 11 0 < avg100)) ∧ fell = (!s.gov.lowered && decide (rbits s (reg .GOV_CTL) 23 12 < (s.gov.samples.headD a - a) * 100))) ∧
    (∃ (s : State), s.gov.clamp = true ∧ rbits s (reg .GOV_PWR) 31 16 * 100 ≤ rbits s (reg .GATE_PWR_CEIL) 27 16 * 95 ∧ rbits s (reg .GOV_PWR) 47 32 * 100 ≤ rbits s (reg .GATE_PWR_CEIL) 11 0 * 95) ∧
    (∃ (s : State), (s.gov.clamp = false ∨ rbits s (reg .GATE_PWR_CEIL) 27 16 * 95 < rbits s (reg .GOV_PWR) 31 16 * 100 ∨ rbits s (reg .GATE_PWR_CEIL) 11 0 * 95 < rbits s (reg .GOV_PWR) 47 32 * 100)) ∧
    (∃ (s : State), s.gov.clamp = true ∧ rbits s (reg .GATE_PWR_CEIL) 11 0 < rbits s (reg .GOV_PWR) 47 32 ∧ s.gate.st = .underway) ∧
    (∃ (s : State), (s.gov.clamp = false ∨ rbits s (reg .GOV_PWR) 47 32 ≤ rbits s (reg .GATE_PWR_CEIL) 11 0 ∨ s.gate.st = .moored ∨ s.gate.st = .hold)) ∧
    (∃ (s : State), s.gate.st ≠ .off) ∧
    (∃ (d : Nat) (mv : Nat) (b : Bool) (s : State), Claim.dieUp s d ∧ (b = true ∨ mv + 10 < dieVt s d ∨ dieVt s d + 10 < mv)) ∧
    (∃ (d : Nat) (mv : Nat) (s : State), Claim.dieUp s d ∧ mv ≤ dieVt s d + 10 ∧ dieVt s d ≤ mv + 10 ∧ mv < 1024) :=
  ⟨⟨[100, 200, 300, 50], 20, 1, 2, Claim.packagePower ((withRegs [(reg .GATE_PWR_CEIL, dw [(0, 1000), (16, 900)])])) (([100, 200, 300, 50])) ((20)) ((1)) ((2)), sumNat (List.take 200 (((((Claim.packagePower ((withRegs [(reg .GATE_PWR_CEIL, dw [(0, 1000), (16, 900)])])) (([100, 200, 300, 50])) ((20)) ((1)) ((2)))) :: ((withRegs [(reg .GATE_PWR_CEIL, dw [(0, 1000), (16, 900)])]) : State).gov.samples).take 10000))) / min 200 (List.length (((((Claim.packagePower ((withRegs [(reg .GATE_PWR_CEIL, dw [(0, 1000), (16, 900)])])) (([100, 200, 300, 50])) ((20)) ((1)) ((2)))) :: ((withRegs [(reg .GATE_PWR_CEIL, dw [(0, 1000), (16, 900)])]) : State).gov.samples).take 10000))), sumNat (((((Claim.packagePower ((withRegs [(reg .GATE_PWR_CEIL, dw [(0, 1000), (16, 900)])])) (([100, 200, 300, 50])) ((20)) ((1)) ((2)))) :: ((withRegs [(reg .GATE_PWR_CEIL, dw [(0, 1000), (16, 900)])]) : State).gov.samples).take 10000)) / List.length (((((Claim.packagePower ((withRegs [(reg .GATE_PWR_CEIL, dw [(0, 1000), (16, 900)])])) (([100, 200, 300, 50])) ((20)) ((1)) ((2)))) :: ((withRegs [(reg .GATE_PWR_CEIL, dw [(0, 1000), (16, 900)])]) : State).gov.samples).take 10000)), (((Claim.packagePower ((withRegs [(reg .GATE_PWR_CEIL, dw [(0, 1000), (16, 900)])])) (([100, 200, 300, 50])) ((20)) ((1)) ((2)))) :: ((withRegs [(reg .GATE_PWR_CEIL, dw [(0, 1000), (16, 900)])]) : State).gov.samples).take 10000, (decide (rbits ((withRegs [(reg .GATE_PWR_CEIL, dw [(0, 1000), (16, 900)])])) (reg .GATE_PWR_CEIL) 27 16 < ((sumNat (List.take 200 (((((Claim.packagePower ((withRegs [(reg .GATE_PWR_CEIL, dw [(0, 1000), (16, 900)])])) (([100, 200, 300, 50])) ((20)) ((1)) ((2)))) :: ((withRegs [(reg .GATE_PWR_CEIL, dw [(0, 1000), (16, 900)])]) : State).gov.samples).take 10000))) / min 200 (List.length (((((Claim.packagePower ((withRegs [(reg .GATE_PWR_CEIL, dw [(0, 1000), (16, 900)])])) (([100, 200, 300, 50])) ((20)) ((1)) ((2)))) :: ((withRegs [(reg .GATE_PWR_CEIL, dw [(0, 1000), (16, 900)])]) : State).gov.samples).take 10000)))))) || decide (rbits ((withRegs [(reg .GATE_PWR_CEIL, dw [(0, 1000), (16, 900)])])) (reg .GATE_PWR_CEIL) 11 0 < ((sumNat (((((Claim.packagePower ((withRegs [(reg .GATE_PWR_CEIL, dw [(0, 1000), (16, 900)])])) (([100, 200, 300, 50])) ((20)) ((1)) ((2)))) :: ((withRegs [(reg .GATE_PWR_CEIL, dw [(0, 1000), (16, 900)])]) : State).gov.samples).take 10000)) / List.length (((((Claim.packagePower ((withRegs [(reg .GATE_PWR_CEIL, dw [(0, 1000), (16, 900)])])) (([100, 200, 300, 50])) ((20)) ((1)) ((2)))) :: ((withRegs [(reg .GATE_PWR_CEIL, dw [(0, 1000), (16, 900)])]) : State).gov.samples).take 10000)))))), (!((withRegs [(reg .GATE_PWR_CEIL, dw [(0, 1000), (16, 900)])]) : State).gov.lowered && decide (rbits ((withRegs [(reg .GATE_PWR_CEIL, dw [(0, 1000), (16, 900)])])) (reg .GOV_CTL) 23 12 < (((withRegs [(reg .GATE_PWR_CEIL, dw [(0, 1000), (16, 900)])]) : State).gov.samples.headD ((Claim.packagePower ((withRegs [(reg .GATE_PWR_CEIL, dw [(0, 1000), (16, 900)])])) (([100, 200, 300, 50])) ((20)) ((1)) ((2)))) - ((Claim.packagePower ((withRegs [(reg .GATE_PWR_CEIL, dw [(0, 1000), (16, 900)])])) (([100, 200, 300, 50])) ((20)) ((1)) ((2))))) * 100)), withRegs [(reg .GATE_PWR_CEIL, dw [(0, 1000), (16, 900)])], by decide +kernel⟩,
   ⟨withRegs [(reg .GATE_PWR_CEIL, dw [(0, 1000), (16, 900)])] { up with gov := { clamp := true } }, by decide +kernel⟩,
   ⟨up, by decide +kernel⟩,
   ⟨withRegs [(reg .GATE_PWR_CEIL, dw [(0, 1000), (16, 900)]), (reg .GOV_PWR, dw [(32, 1001)])] { up with gov := { clamp := true } }, by decide +kernel⟩,
   ⟨up, by decide +kernel⟩,
   ⟨up, by decide +kernel⟩,
   ⟨3, 600, true, up, by unfold Claim.dieUp; decide +kernel⟩,
   ⟨3, 1023, withRaw [(reg .CLK_DIE_V 3, dw [(10, 1013)])], by unfold Claim.dieUp; decide +kernel⟩⟩

theorem test_meets_PowerIsLimited_2 :
    (∃ (d : Nat) (s : State), Claim.dieUp s d ∧ (dieG s d).stretch = false ∧ dieTarget s d < dieClock s d) ∧
    (∃ (d : Nat) (s : State), (4 ≤ d ∨ dieGone s d = true ∨ (dieG s d).stretch = true ∨ dieClock s d = dieTarget s d ∨ (dieClock s d < dieTarget s d ∧ mayRaise s d = false))) ∧
    (∃ (s : State), s.gov.shed = true) ∧
    (∃ (s : State), s.gov.shed = false) ∧
    (∃ (watts : Nat) (s : State), mgmtReady s = true ∧ (watts = 0 ∨ 400 ≤ watts ∧ watts ≤ 1500)) ∧
    (∃ (watts : Nat) (s : State), mgmtReady s = true ∧ watts ≠ 0 ∧ (watts < 400 ∨ 1500 < watts)) ∧
    (∃ (d : Nat) (mv : Nat) (n : Nat) (dies : List Nat) (amps : List Nat) (temps : List Int) (b : Bool) (c : Instr) (s : State), s.gate.st = .off ∧ (c = .powerSample dies n d mv ∨ c = .avsCurrentRead amps ∨ c = .voltageSettled d mv b ∨ c = .frequencyStep d ∨ c = .shedReqN ∨ c = .shedClockUpdate amps temps ∨ c = .facilityBudgetWrite n ∨ c = .forecastPublish d n)) :=
  ⟨⟨3, withRegs [(reg .CLK_DIE_F 3, dw [(0, 1300), (11, 1199)])], by unfold Claim.dieUp; decide +kernel⟩,
   ⟨3, withRaw [(reg .CLK_DIE_F 3, dw [(0, 600), (11, 700)]), (reg .CLK_DIE_V 3, dw [(0, 1023)])], by decide +kernel⟩,
   ⟨withRegs [(reg .GOV_STATE, 0x10#64)] { up with gov := { shed := true } }, by decide +kernel⟩,
   ⟨lt { tRun with stores := [⟨1, 0, none⟩] }, by decide +kernel⟩,
   ⟨1500, mgmt, by decide +kernel⟩,
   ⟨399, mgmt, by decide +kernel⟩,
   ⟨0, 0, 0, [], [], [], true, .powerSample [] 0 0 0, inState .off, by decide +kernel⟩⟩

theorem test_meets_LearningRule :
    (∃ (s : State) (d : Nat) (k : Nat) (f : Nat) (dur : Nat) (e : Nat) (l : Learn), l = learnOf s d k ∧ l.trying = true ∧ f + 100 = l.node ∧ dur * 1000 ≤ (SMap.get (0, 0, 0) l.recs l.node).2.1 * (1000 + rbits s (reg .GOV_CTL) 39 32) ∧ e < (SMap.get (0, 0, 0) l.recs l.node).2.2) ∧
    (∃ (s : State) (d : Nat) (k : Nat) (f : Nat) (dur : Nat) (e : Nat) (l : Learn), l = learnOf s d k ∧ l.trying = true ∧ f + 100 = l.node ∧ ((SMap.get (0, 0, 0) l.recs l.node).2.1 * (1000 + rbits s (reg .GOV_CTL) 39 32) < dur * 1000 ∨ (SMap.get (0, 0, 0) l.recs l.node).2.2 ≤ e)) ∧
    (∃ (s : State) (d : Nat) (k : Nat) (dur : Nat) (l : Learn), l = learnOf s d k ∧ 0 < (SMap.get (0, 0, 0) l.recs l.node).1 ∧ (SMap.get (0, 0, 0) l.recs l.node).2.1 * (1000 + rbits s (reg .GOV_CTL) 39 32) < dur * 1000) ∧
    (∃ (s : State) (d : Nat) (k : Nat) (dur : Nat) (l : Learn), l = learnOf s d k ∧ (SMap.get (0, 0, 0) l.recs l.node).1 = 2 ∧ l.final = false ∧ 600 < l.node ∧ dur * 1000 ≤ (SMap.get (0, 0, 0) l.recs l.node).2.1 * (1000 + rbits s (reg .GOV_CTL) 39 32)) :=
  ⟨⟨{ up with gov := { learn := [(63, { node := 1100, recs := [(1100, (3, 1000, 50))], trying := true })] } }, 3, 15, 1000, 1010, 49, { node := 1100, recs := [(1100, (3, 1000, 50))], trying := true }, by decide +kernel⟩,
   ⟨{ up with gov := { learn := [(63, { node := 1100, recs := [(1100, (3, 1000, 50))], trying := true })] } }, 3, 15, 1000, 1010, 50, { node := 1100, recs := [(1100, (3, 1000, 50))], trying := true }, by decide +kernel⟩,
   ⟨{ up with gov := { learn := [(63, { node := 1100, recs := [(1100, (3, 1000, 50))] })] } }, 3, 15, 9999, { node := 1100, recs := [(1100, (3, 1000, 50))] }, by decide +kernel⟩,
   ⟨{ up with gov := { learn := [(63, { node := 1100, recs := [(1100, (2, 1000, 50))] })] } }, 3, 15, 1000, { node := 1100, recs := [(1100, (2, 1000, 50))] }, by decide +kernel⟩⟩

theorem test_meets_HeatTagsAndStretch_1 :
    (∃ (d : Nat) (k : Nat) (notes0 : Nat) (notes1 : Nat) (colls : Nat) (tiles : List Nat) (s : State), Claim.interval s d k tiles notes0 notes1 colls ∧ k = (dieG s d).tag) ∧
    (∃ (d : Nat) (k : Nat) (notes0 : Nat) (notes1 : Nat) (colls : Nat) (tiles : List Nat) (s : State), Claim.interval s d k tiles notes0 notes1 colls ∧ k ≠ (dieG s d).tag ∧ (k ≠ (dieG s d).cand ∨ (dieG s d).candOcc = 0)) ∧
    (∃ (d : Nat) (k : Nat) (notes0 : Nat) (notes1 : Nat) (colls : Nat) (tiles : List Nat) (s : State), Claim.interval s d k tiles notes0 notes1 colls ∧ k ≠ (dieG s d).tag ∧ k = (dieG s d).cand ∧ 0 < (dieG s d).candOcc ∧ (dieG s d).candOcc < 900) ∧
    (∃ (d : Nat) (k : Nat) (j : Nat) (notes0 : Nat) (notes1 : Nat) (colls : Nat) (tiles : List Nat) (s : State), Claim.interval s d k tiles notes0 notes1 colls ∧ j = (dieG s d).tag ∧ j < 16 ∧ k ≠ j ∧ k = (dieG s d).cand ∧ 900 ≤ (dieG s d).candOcc ∧ 0 < (dieG s d).occ ∧ rbits s (reg .GOV_TAG_FIX j) 10 0 = 0 ∧ (dieG s d).mixed = false ∧ (dieG s d).occClk ≠ 0) ∧
    (∃ (d : Nat) (k : Nat) (notes0 : Nat) (notes1 : Nat) (colls : Nat) (tiles : List Nat) (s : State), Claim.interval s d k tiles notes0 notes1 colls ∧ Claim.tooStretched s d = true) ∧
    (∃ (d : Nat) (k : Nat) (notes0 : Nat) (notes1 : Nat) (colls : Nat) (tiles : List Nat) (s : State), Claim.interval s d k tiles notes0 notes1 colls ∧ Claim.tooStretched s d = false) ∧
    (∃ (d : Nat) (hot : Int) (temps : List Int) (s : State), d < 4 ∧ dieGone s d = false ∧ temps ≠ [] ∧ hot = temps.foldl max (-273) ∧ 9 ≤ (dieG s d).thermFor ∧ (rbits s (reg .GOV_TJ) 7 0 : Nat) < hot) ∧
    (∃ (d : Nat) (hot : Int) (temps : List Int) (s : State), d < 4 ∧ dieGone s d = false ∧ temps ≠ [] ∧ hot = temps.foldl max (-273) ∧ 9 ≤ (dieG s d).thermFor ∧ hot ≤ (rbits s (reg .GOV_TJ) 7 0 : Nat)) :=
  ⟨⟨3, dominantTag (((List.replicate 16 0).set 15 9)) (((2)) + ((1))) ((3)), 2, 1, 3, (List.replicate 16 0).set 15 9, (fun s : State => { s with gov := { s.gov with dies := [(3, { tag := 15, occ := 3, cand := 4, candOcc := 6, candE := 9 })] } }) (withRegs []), by unfold Claim.interval; decide +kernel⟩,
   ⟨3, dominantTag (((List.replicate 16 0).set 5 9)) (((2)) + ((1))) ((3)), 2, 1, 3, (List.replicate 16 0).set 5 9, (fun s : State => { s with gov := { s.gov with dies := [(3, { tag := 15, occ := 300, occClk := 600 })] } }) (withRegs []), by unfold Claim.interval; decide +kernel⟩,
   ⟨3, dominantTag (((List.replicate 16 0).set 5 9)) (((2)) + ((1))) ((3)), 2, 1, 3, (List.replicate 16 0).set 5 9, (fun s : State => { s with gov := { s.gov with dies := [(3, { tag := 15, cand := 5, candOcc := 800, candE := 9, occ := 300 })] } }) (withRegs []), by unfold Claim.interval; decide +kernel⟩,
   ⟨3, dominantTag (((List.replicate 16 0).set 5 9)) (((2)) + ((1))) ((3)), 15, 2, 1, 3, (List.replicate 16 0).set 5 9, (fun s : State => { s with gov := { s.gov with dies := [(3, { tag := 15, cand := 5, candOcc := 900, candE := 9, occ := 3000, occClk := 600 })] } }) (withRegs []), by unfold Claim.interval; decide +kernel⟩,
   ⟨3, dominantTag (((List.replicate 16 0).set 5 9)) (((2)) + ((1))) ((3)), 2, 1, 3, (List.replicate 16 0).set 5 9, (fun s : State => { s with ep := { s.ep with cyc := [(3, 399)] } }) ((fun s : State => { s with gov := { s.gov with dies := [(3, { tag := 5 })] } }) (withRegs [(reg .CLK_STRETCH_CNT 3, 100#64)])), by unfold Claim.interval; decide +kernel⟩,
   ⟨3, 0, 0, 0, 0, [], { up with gov := { dies := [(3, { thermFor := 9 })] } }, by unfold Claim.interval; decide +kernel⟩,
   ⟨3, 96, [-20, 96, 50], (fun s : State => { s with gov := { s.gov with dies := [(3, { thermFor := 9 })] } }) (withRegs [(reg .GOV_TJ, 95#64)]), by decide +kernel⟩,
   ⟨3, 95, [-20, 95, 50], (fun s : State => { s with gov := { s.gov with dies := [(3, { thermFor := 9 })] } }) (withRegs [(reg .GOV_TJ, 95#64)]), by decide +kernel⟩⟩

theorem test_meets_HeatTagsAndStretch_2 :
    (∃ (d : Nat) (hot : Int) (temps : List Int) (s : State), d < 4 ∧ dieGone s d = false ∧ temps ≠ [] ∧ hot = temps.foldl max (-273) ∧ (dieG s d).thermFor < 9 ∧ (decide ((rbits s (reg .GOV_TJ) 7 0 : Nat) < hot) = decide ((rbits s (reg .GOV_TJ) 7 0 : Nat) < (dieG s d).hottest))) ∧
    (∃ (d : Nat) (hot : Int) (temps : List Int) (s : State), d < 4 ∧ dieGone s d = false ∧ temps ≠ [] ∧ hot = temps.foldl max (-273) ∧ (dieG s d).thermFor < 9 ∧ (decide ((rbits s (reg .GOV_TJ) 7 0 : Nat) < hot) ≠ decide ((rbits s (reg .GOV_TJ) 7 0 : Nat) < (dieG s d).hottest))) ∧
    (∃ (d : Nat) (s : State), d < 4 ∧ dieGone s d = false ∧ (2 ≤ rbits s (reg .STK_TEMP (2 * d)) 9 8 ∧ 100000 ≤ SMap.get 0 s.stk.hot (2 * d) ∨ 2 ≤ rbits s (reg .STK_TEMP (2 * d + 1)) 9 8 ∧ 100000 ≤ SMap.get 0 s.stk.hot (2 * d + 1))) ∧
    (∃ (d : Nat) (s : State), d < 4 ∧ dieGone s d = false ∧ rbits s (reg .STK_TEMP (2 * d)) 9 8 < 2 ∧ rbits s (reg .STK_TEMP (2 * d + 1)) 9 8 < 2) ∧
    (∃ (s : State), s.gate.st ≠ .off) ∧
    (∃ (k : Nat), k < 100) ∧
    (∃ (d : Nat) (r : Nat) (uv : Nat) (s : State), d = r / 26 ∧ r < 104 ∧ dieGone s d = false ∧ s.gate.st ≠ .off ∧ uv * 200 < dieVt s d * 1000 * (200 - rbits s (reg .CLK_DROOP_THR d) 4 0)) ∧
    (∃ (r : Nat) (uv : Nat) (s : State), (104 ≤ r ∨ dieGone s (r / 26) = true ∨ s.gate.st = .off ∨ dieVt s (r / 26) * 1000 * (200 - rbits s (reg .CLK_DROOP_THR (r / 26)) 4 0) ≤ uv * 200)) :=
  ⟨⟨3, 96, [-20, 96, 50], (fun s : State => { s with gov := { s.gov with dies := [(3, { thermFor := 8, hottest := 99 })] } }) (withRegs [(reg .GOV_TJ, 95#64)]), by decide +kernel⟩,
   ⟨3, 96, [-20, 96, 50], (fun s : State => { s with gov := { s.gov with dies := [(3, { thermFor := 8 })] } }) (withRegs [(reg .GOV_TJ, 95#64)]), by decide +kernel⟩,
   ⟨3, withRegs [(reg .STK_TEMP 6, 0x200#64)] { up with stk := { hot := [(6, 100000)] } }, by decide +kernel⟩,
   ⟨3, { up with gov := { dies := [(3, { capHeat := 900 })] } }, by decide +kernel⟩,
   ⟨up, by decide +kernel⟩,
   ⟨99, by decide +kernel⟩,
   ⟨3, 103, 0, withRaw [(reg .CLK_DIE_V 3, dw [(10, 900)])], by refine ⟨rfl, ?_, ?_, ?_, ?_⟩ <;> decide +kernel⟩,
   ⟨104, 0, up, by decide +kernel⟩⟩

theorem test_meets_HeatTagsAndStretch_3 :
    (∃ (d : Nat) (uvs : List Nat) (s : State), d < 4 ∧ (dieG s d).stretch = true ∧ (dieG s d).holding = false ∧ (∀ r, r < 26 → dieVt s d * 1000 * (202 - rbits s (reg .CLK_DROOP_THR d) 4 0) < nth 0 uvs r * 200)) ∧
    (∃ (d : Nat) (r : Nat) (uvs : List Nat) (s : State), (4 ≤ d ∨ (dieG s d).stretch = false ∨ (dieG s d).holding = true ∨ (r < 26 ∧ nth 0 uvs r * 200 ≤ dieVt s d * 1000 * (202 - rbits s (reg .CLK_DROOP_THR d) 4 0)))) ∧
    (∃ (d : Nat) (n : Nat) (s : State), (dieG s d).holding = true ∧ 64 ≤ n) ∧
    (∃ (d : Nat) (n : Nat) (s : State), ((dieG s d).holding = false ∨ n < 64)) ∧
    (∃ (d : Nat) (s : State), (4 ≤ d ∨ dieGone s d = true)) :=
  ⟨⟨3, List.replicate 26 1300000, (fun s : State => { s with gov := { s.gov with dies := [(3, { stretch := true })] } }) (withRaw [(reg .CLK_DIE_V 3, dw [(10, 900)])]), by decide +kernel⟩,
   ⟨4, 0, [], up, by decide +kernel⟩,
   ⟨3, 64, (fun s : State => { s with gov := { s.gov with dies := [(3, { stretch := true, holding := true })] } }) up, by decide +kernel⟩,
   ⟨3, 64, up, by decide +kernel⟩,
   ⟨4, up, by decide +kernel⟩⟩

theorem test_meets_GateWritesAndReads_1 :
    (∃ (off : Nat) (i : Nat) (j : Nat) (n : RegName) (v : Word) (s : State), mgmtReady s = true ∧ off ≠ 0 ∧ gateWriteCode s off v = 0 ∧ regAt off = some (n, i, j)) ∧
    (∃ (off : Nat) (v : Word) (s : State), mgmtReady s = true ∧ gateWriteCode s off v ≠ 0) ∧
    (∃ (n : RegName) (i : Nat) (j : Nat) (off : Nat) (s : State), off < 0x10000 ∧ regAt off = some (n, i, j) ∧ (regInfo n).gl ≠ 0#64 ∧ s.gate.open_ = false) ∧
    (∃ (s : State), mgmtReady s = true ∧ s.gate.open_ = true) ∧
    (∃ (s : State), mgmtReady s = true ∧ s.gate.open_ = false) ∧
    (∃ (s : State), s.gate.st ≠ .off ∧ s.gate.open_ = true) ∧
    (∃ (s : State), (s.gate.st = .off ∨ s.gate.open_ = false)) ∧
    (∃ (off : Nat) (i : Nat) (j : Nat) (n : RegName) (s : State), mgmtReady s = true ∧ off < 0x10000 ∧ regAt off = some (n, i, j)) :=
  ⟨⟨(reg .GATE_PWR_CEIL).off, 0, 0, .GATE_PWR_CEIL, dw [(0, 1000), (16, 1100)], mgmt {}, by decide +kernel⟩,
   ⟨(reg .GATE_STAT).off, 0#64, mgmt {}, by decide +kernel⟩,
   ⟨.GATE_PWR_CEIL, 0, 0, (reg .GATE_PWR_CEIL).off, { gate := { open_ := false } }, by decide +kernel⟩,
   ⟨mgmt {}, by decide +kernel⟩,
   ⟨mgmt { gate := { open_ := false } }, by decide +kernel⟩,
   ⟨{}, by decide +kernel⟩,
   ⟨{ gate := { open_ := false } }, by decide +kernel⟩,
   ⟨(reg .GATE_STAT).off, 0, 0, .GATE_STAT, mgmt, by decide +kernel⟩⟩

theorem test_meets_GateWritesAndReads_2 :
    (∃ (off : Nat) (s : State), mgmtReady s = true ∧ (0x10000 ≤ off ∨ regAt off = none)) ∧
    (∃ (s : State), mgmtReady s = true) ∧
    (∃ (off : Nat) (v : Word) (c : Instr) (s : State), mgmtReady s = false ∧ (c = .gateWrite off v ∨ c = .gateLock ∨ c = .gateRead off ∨ c = .forecastRead)) :=
  ⟨⟨0x10000, mgmt, by decide +kernel⟩,
   ⟨mgmt, by decide +kernel⟩,
   ⟨8, 0#64, .gateWrite 8 0#64, up, by decide +kernel⟩⟩

theorem test_meets_ResetsClear_1 :
    (∃ (c : Instr) (octal : Bool) (s : State), (c = .powerGood octal ∧ s.gate.st = .off ∨ c = .coldRstN octal ∧ s.gate.st ≠ .off)) ∧
    (∃ (s : State), s.gate.st ≠ .off) ∧
    (∃ (s : State), s.gate.st ≠ .off ∧ (∀ g, g < 16 → cgState s g ≠ 1)) ∧
    (∃ (c : Instr) (s : State), (c = .perstN ∨ c = .hotReset ∨ c = .functionLevelReset) ∧ s.gate.st ≠ .off) ∧
    (∃ (c : Instr) (octal : Bool) (s : State), s.gate.st = .off ∧ (c = .coldRstN octal ∨ c = .warmRstN ∨ c = .perstN ∨ c = .hotReset ∨ c = .functionLevelReset)) ∧
    (∃ (rate : Nat) (width : Nat) (s : State), s.gate.st ≠ .off ∧ 0 < rate ∧ rate < 4 ∧ width < 32) ∧
    (∃ (rate : Nat) (s : State), (s.gate.st = .off ∨ rate = 0 ∨ 4 ≤ rate)) ∧
    (∃ (s : State), bit (rget s (reg .PCIE_LINK)) 8 = true) :=
  ⟨⟨.powerGood true, true, inState .off, by decide +kernel⟩,
   ⟨up, by decide +kernel⟩,
   ⟨{ up with tiles := [(0, tRun)] }, by decide +kernel⟩,
   ⟨.perstN, ringsOn, by decide +kernel⟩,
   ⟨.coldRstN true, true, inState .off, by decide +kernel⟩,
   ⟨3, 31, up, by decide +kernel⟩,
   ⟨4, up, by decide +kernel⟩,
   ⟨withRegs [(reg .PCIE_LINK, 0x100#64)], by decide +kernel⟩⟩

theorem test_meets_ResetsClear_2 :
    ∃ (s : State), bit (rget s (reg .PCIE_LINK)) 8 = false :=
  ⟨up, by decide +kernel⟩

theorem test_meets_ImagesBoot :
    (∃ (digest : Word) (header : Word) (img : Bool) (s : State), s.gate.st = .dry ∧ s.gate.boot < 2 ∧ img = (bit (rget s (reg .GATE_POLICY)) 2 != (s.gate.boot == 1)) ∧ digestAllowed s digest header = true) ∧
    (∃ (digest : Word) (header : Word) (img : Bool) (s : State), s.gate.st = .dry ∧ s.gate.boot < 2 ∧ img = (bit (rget s (reg .GATE_POLICY)) 2 != (s.gate.boot == 1)) ∧ digestAllowed s digest header = false) ∧
    (∃ (s : State), (s.gate.st ≠ .dry ∨ 2 ≤ s.gate.boot)) ∧
    (∃ (s : State), s.gate.st = .dry ∧ s.gate.boot = 2) ∧
    (∃ (s : State), (s.gate.st ≠ .dry ∨ s.gate.boot ≠ 2)) :=
  ⟨⟨5#64, 5#64, false, {}, by decide +kernel⟩,
   ⟨5#64, 6#64, false, {}, by decide +kernel⟩,
   ⟨up, by decide +kernel⟩,
   ⟨{ gate := { boot := 2 } }, by decide +kernel⟩,
   ⟨{}, by decide +kernel⟩⟩

theorem test_meets_CoxRestarts_1 :
    (∃ (b : Bool) (s : State), Claim.coxRuns s ∧ (b = false ∨ s.gate.misses = 0)) ∧
    (∃ (s : State), Claim.coxRuns s ∧ s.gate.misses = 1) ∧
    (∃ (s : State), Claim.coxRuns s ∧ 2 ≤ s.gate.misses) ∧
    (∃ (s : State), s.gate.intake = true ∧ s.gate.switching = none ∧ s.gate.staging = none ∧ s.gate.misses < 3) ∧
    (∃ (s : State), (s.gate.intake = false ∨ s.gate.switching.isSome = true ∨ s.gate.staging.isSome = true ∨ 3 ≤ s.gate.misses)) ∧
    (∃ (img : Bool) (cmd : Option CmdRef) (digest : Word) (header : Word) (s : State), s.gate.staging = some (img, cmd) ∧ digestAllowed s digest header = true) ∧
    (∃ (img : Bool) (digest : Word) (header : Word) (s : State), s.gate.staging = some (img, none) ∧ digestAllowed s digest header = false) ∧
    (∃ (img : Bool) (c : CmdRef) (digest : Word) (header : Word) (s : State), s.gate.staging = some (img, some c) ∧ digestAllowed s digest header = false ∧ c.ring < 8 ∧ Claim.ringOpen s (cplOf s c.ring) = true) :=
  ⟨⟨false, (fun s : State => { s with gate := { s.gate with misses := 1 } }) up, by unfold Claim.coxRuns; decide +kernel⟩,
   ⟨(fun s : State => { s with gate := { s.gate with misses := 1 } }) up, by unfold Claim.coxRuns; decide +kernel⟩,
   ⟨(fun s : State => { s with gate := { s.gate with misses := 2 } }) (up), by unfold Claim.coxRuns; decide +kernel⟩,
   ⟨(fun s : State => { s with gate := { s.gate with intake := true, misses := 2 } }) up, by decide +kernel⟩,
   ⟨up, by decide +kernel⟩,
   ⟨true, none, 5#64, 5#64, (fun s : State => { s with gate := { s.gate with staging := some (true, none) } }) up, by decide +kernel⟩,
   ⟨true, 5#64, 6#64, (fun s : State => { s with gate := { s.gate with staging := some (true, none) } }) up, by decide +kernel⟩,
   ⟨true, { cmd7 with w0 := 0x901#64 }, 5#64, 6#64, (fun s : State => { s with gate := { s.gate with staging := some (true, some { cmd7 with w0 := 0x901#64 }) } }) (ringsOn), by decide +kernel⟩⟩

theorem test_meets_CoxRestarts_2 :
    (∃ (s : State), s.gate.staging = none) ∧
    (∃ (img : Bool) (c : CmdRef) (s : State), s.gate.switching = some (img, some c) ∧ s.ports.activating = false ∧ c.ring < 8 ∧ bit c.w0 18 = false ∧ Claim.ringOpen { s with gate := { s.gate with switching := none } } (cplOf s c.ring) = true) ∧
    (∃ (img : Bool) (s : State), s.gate.switching = some (img, none)) ∧
    (∃ (s : State), s.gate.switching = none) ∧
    (∃ (img : Bool) (cmd : Option CmdRef) (s : State), s.gate.switching = some (img, cmd) ∧ s.gate.misses = 0) ∧
    (∃ (img : Bool) (cmd : Option CmdRef) (s : State), s.gate.switching = some (img, cmd) ∧ s.gate.misses = 1) ∧
    (∃ (s : State), Claim.coxRuns s) ∧
    (∃ (s : State), (s.gate.st = .off ∨ s.gate.boot ≠ 2 ∨ s.gate.switching.isSome = true)) :=
  ⟨⟨up, by decide +kernel⟩,
   ⟨true, { cmd7 with w0 := 0x901#64 }, (fun s : State => { s with gate := { s.gate with switching := some (true, some ({ cmd7 with w0 := 0x901#64 })), intake := true } }) ringsOn, by decide +kernel⟩,
   ⟨true, (fun s : State => { s with gate := { s.gate with switching := some (true, none), intake := true } }) up, by decide +kernel⟩,
   ⟨up, by decide +kernel⟩,
   ⟨true, some cmd7, (fun s : State => { s with gate := { s.gate with switching := some (true, some cmd7), intake := true } }) up, by decide +kernel⟩,
   ⟨true, none, (fun s : State => { s with gate := { s.gate with switching := some (true, none), misses := 1 } }) (up), by decide +kernel⟩,
   ⟨up, by unfold Claim.coxRuns; decide +kernel⟩,
   ⟨inState .off, by decide +kernel⟩⟩

theorem test_meets_Trips :
    (∃ (b : Bool) (i : Nat) (temp : Int) (s : State), Claim.tripsAt s b i temp ∧ s.gate.st = .underway) ∧
    (∃ (b : Bool) (i : Nat) (temp : Int) (s : State), Claim.tripsAt s b i temp ∧ (s.gate.st = .dry ∨ s.gate.st = .moored ∧ s.cox.lock = none)) ∧
    (∃ (b : Bool) (temp : Int) (s : State), (s.gate.st = .off ∨ s.gate.trip = true ∨ temp < ((if b then rbits s (reg .GATE_TRIP) 15 8 else rbits s (reg .GATE_TRIP) 7 0 : Nat) : Int))) ∧
    (∃ (s : State), s.gate.trip = true ∧ belowTrip s = true ∧ s.gate.st ≠ .moored) ∧
    (∃ (s : State), s.gate.trip = true ∧ belowTrip s = true ∧ s.gate.st = .moored ∧ s.gate.coxValid = true ∧ s.gate.checkOk = true) ∧
    (∃ (s : State), (s.gate.trip = false ∨ belowTrip s = false)) :=
  ⟨⟨false, 63, 125, up, by unfold Claim.tripsAt; decide +kernel⟩,
   ⟨false, 7, 125, {}, by unfold Claim.tripsAt; decide +kernel⟩,
   ⟨true, -20, up, by decide +kernel⟩,
   ⟨{ gate := { st := .hold, trip := true, thermLow := true } }, by decide +kernel⟩,
   ⟨{ gate := { st := .moored, trip := true, thermLow := true, coxValid := true, checkOk := true, boot := 2 } }, by decide +kernel⟩,
   ⟨up, by decide +kernel⟩⟩

theorem test_meets_PortAnswers_1 :
    (∃ (c : Instr) (a : Nat) (s : State), (c = .entdaa a ∨ c = .setdasa a) ∧ s.gate.st ≠ .off ∧ rbits s (reg .MGMT_STAT) 7 0 = 0 ∧ 0 < a ∧ a < 128) ∧
    (∃ (c : Instr) (a : Nat) (s : State), (c = .entdaa a ∨ c = .setdasa a) ∧ (s.gate.st = .off ∨ rbits s (reg .MGMT_STAT) 7 0 ≠ 0 ∨ a = 0 ∨ 128 ≤ a)) ∧
    (∃ (e : Nat) (s : State), s.gate.st ≠ .off ∧ 8 ≤ e ∧ e ≤ 254) ∧
    (∃ (e : Nat) (s : State), s.gate.st ≠ .off ∧ (e < 8 ∨ 254 < e)) ∧
    (∃ (s : State), s.gate.st ≠ .off) ∧
    (∃ (h : Nat) (k : Nat) (s : State), mgmtReady s = true ∧ h ≤ 21 ∧ k = max 1 h) ∧
    (∃ (h : Nat) (s : State), mgmtReady s = true ∧ 21 < h) ∧
    (∃ (id : Nat) (v : Nat) (s : State), mgmtReady s = true ∧ sensorValue s id = some v) :=
  ⟨⟨.entdaa 127, 127, up, by decide +kernel⟩,
   ⟨.entdaa 5, 5, inState .off, by decide +kernel⟩,
   ⟨254, up, by decide +kernel⟩,
   ⟨0, mgmt, by decide +kernel⟩,
   ⟨mgmt, by decide +kernel⟩,
   ⟨0, max 1 ((0)), mgmt, by decide +kernel⟩,
   ⟨22, mgmt, by decide +kernel⟩,
   ⟨0x200, 4, mgmt, by decide +kernel⟩⟩

theorem test_meets_PortAnswers_2 :
    (∃ (id : Nat) (s : State), mgmtReady s = true ∧ sensorValue s id = none) ∧
    (∃ (e : Nat) (s : State), mgmtReady s = true ∧ 0 < e ∧ e ≤ 255) ∧
    (∃ (s : State), mgmtReady s = true) ∧
    (∃ (e : Nat) (s : State), mgmtReady s = true ∧ 255 < e) ∧
    (∃ (r : List Word) (rs : List (List Word)) (s : State), mgmtReady s = true ∧ s.rec_.port = r :: rs) ∧
    (∃ (s : State), mgmtReady s = true ∧ s.rec_.port = []) ∧
    (∃ (n : Nat) (c : Instr) (s : State), s.gate.st = .off ∧ (c = .setEndpointId n ∨ c = .getEndpointId ∨ c = .getMctpVersion ∨ c = .getMessageTypeSupport ∨ c = .getVendorDefinedMessageSupport)) ∧
    (∃ (n : Nat) (c : Instr) (s : State), mgmtReady s = false ∧ (c = .getPdr n ∨ c = .getSensorReading n ∨ c = .setEventReceiver n ∨ c = .pollForPlatformEventMessage)) :=
  ⟨⟨0x202, mgmt, by decide +kernel⟩,
   ⟨255, (fun s : State => { s with rec_ := { port := [[1#64]] } }) mgmt, by decide +kernel⟩,
   ⟨(fun s : State => { s with rec_ := { port := [[1#64]] } }) mgmt, by decide +kernel⟩,
   ⟨256, mgmt, by decide +kernel⟩,
   ⟨[1#64], [[2#64]], (fun s : State => { s with rec_ := { port := [[1#64], [2#64]] } }) mgmt, by decide +kernel⟩,
   ⟨mgmt, by decide +kernel⟩,
   ⟨5, .setEndpointId 5, inState .off, by decide +kernel⟩,
   ⟨5, .getPdr 5, up, by decide +kernel⟩⟩

theorem test_meets_UpdatesAndJtag_1 :
    (∃ (c : Nat) (s : State), mgmtReady s = true ∧ s.ports.update = 0 ∧ (c = 1 ∧ s.gate.staging = none ∧ s.gate.switching = none ∨ c = 2)) ∧
    (∃ (s : State), mgmtReady s = true ∧ s.ports.update ≠ 0) ∧
    (∃ (c : Nat) (s : State), mgmtReady s = true ∧ s.ports.update = 0 ∧ (c = 0 ∨ 2 < c)) ∧
    (∃ (s : State), mgmtReady s = true ∧ s.ports.update = 0 ∧ (s.gate.staging.isSome = true ∨ s.gate.switching.isSome = true)) ∧
    (∃ (d : List Byte) (s : State), Claim.transfer s d) ∧
    (∃ (d : List Byte) (s : State), (mgmtReady s = false ∨ s.ports.update = 0 ∨ s.ports.updOk = true ∨ 256 < d.length ∨ slotBytes s.ports.update < s.ports.updLen + d.length)) ∧
    (∃ (s : State), mgmtReady s = true ∧ (s.ports.update = 1 ∨ s.ports.update = 2)) ∧
    (∃ (s : State), mgmtReady s = true ∧ s.ports.update = 1 ∧ s.ports.updOk = true ∧ s.gate.staging = none ∧ s.gate.switching = none) :=
  ⟨⟨2, mgmt, by decide +kernel⟩,
   ⟨(fun s : State => { s with ports := { s.ports with update := 1 } }) (mgmt), by decide +kernel⟩,
   ⟨0, mgmt, by decide +kernel⟩,
   ⟨(fun s : State => { s with gate := { s.gate with staging := some (true, none) } }) (mgmt), by decide +kernel⟩,
   ⟨List.replicate 256 1#8, (fun s : State => { s with ports := { s.ports with update := 2, updOk := false } }) mgmt, by unfold Claim.transfer; decide +kernel⟩,
   ⟨[], mgmt, by decide +kernel⟩,
   ⟨(fun s : State => { s with ports := { s.ports with update := 1, updOk := false } }) mgmt, by decide +kernel⟩,
   ⟨(fun s : State => { s with ports := { s.ports with update := 1, updOk := true } }) mgmt, by decide +kernel⟩⟩

theorem test_meets_UpdatesAndJtag_2 :
    (∃ (s : State), mgmtReady s = true ∧ s.ports.update = 2 ∧ s.ports.updOk = true ∧ s.gate.staging = none ∧ s.gate.switching = none) ∧
    (∃ (s : State), mgmtReady s = true ∧ s.ports.update ≠ 0 ∧ (s.ports.updOk = false ∨ s.gate.staging.isSome = true ∨ s.gate.switching.isSome = true)) ∧
    (∃ (s : State), mgmtReady s = true ∧ s.ports.update = 0) ∧
    (∃ (n : Nat) (d : Word) (h : Word) (c : Instr) (s : State), mgmtReady s = false ∧ (c = .requestUpdate n ∨ c = .verifyComplete d h n ∨ c = .activateFirmware ∨ c = .cancelUpdate)) ∧
    (∃ (s : State), s.gate.st ≠ .off) ∧
    (∃ (c : Instr) (s : State), s.gate.st = .off ∧ (c = .jtagIdcode ∨ c = .jtagBypass ∨ c = .jtagSample)) :=
  ⟨⟨(fun s : State => { s with ports := { s.ports with update := 2, updOk := true } }) mgmt, by decide +kernel⟩,
   ⟨(fun s : State => { s with ports := { s.ports with update := 1 } }) (mgmt), by decide +kernel⟩,
   ⟨mgmt, by decide +kernel⟩,
   ⟨5, 0#64, 0#64, .requestUpdate 5, up, by decide +kernel⟩,
   ⟨up, by decide +kernel⟩,
   ⟨.jtagIdcode, inState .off, by decide +kernel⟩⟩

theorem test_meets_EmptyQueueIsOneCycle :
    (∃ (s : State), s.pending = [] ∧ s.gate.st ≠ .off) ∧
    (∃ (d : Nat) (n : Nat) (s : State), s.pending = [] ∧ s.gate.st ≠ .off ∧ d < 4 ∧ dieGone s d = false ∧ n = (SMap.get 0 s.ep.cycAcc d + dieClock s d * (if (dieG s d).stretch then 10 else 13)) / 1300) ∧
    (∃ (s : State), s.pending = [] ∧ s.gate.st = .off) :=
  ⟨⟨withRegs [(reg .MBX_ASSIST, 0x2000#64)], by decide +kernel⟩,
   ⟨3, (SMap.get 0 ((up) : State).ep.cycAcc 3 + dieClock ((up)) 3 * (if (dieG ((up)) 3).stretch then 10 else 13)) / 1300, up, by decide +kernel⟩,
   ⟨inState .off, by decide +kernel⟩⟩

/-! ### Hypotheses that need more than evaluation -/

/-- A drain of two tiles on the GX array that has started. -/
def gdD : Drain := { hdr := ⟨1, 0, none⟩, f := { arr := 1, g := 3, ad := 0x80000, tid := 4095 }, first := 2, cnt := 2, started := true }
def gdE : Drain := { gdD with fmt := gdD.f.fo, farr := gdD.f.arro }
def gdS : State := lt { tRun with codeLo := 0x8000, drains := [gdD] }
def gdS1 : State := setDrain 1151 gdE gdS
def gdRows : List ChainRow := rowsOf (chainTile (tileOf gdS1 1151) gdE)

/-- The drain's rows before one written. -/
def gdOut (r : Nat) : State × Option (Nat × Nat) :=
  writePieces 1151 false (tilePieces (ownPlace (tileOf gdS1 1151) gdE) gdE.fmt gdE.farr (convTile gdS1 gdE gdRows) 0 r) gdS1

theorem pairSnd {α β : Type} (x : α × β) (b : β) (h : x.2 = b) : x = (x.1, b) := by
  cases h; rfl

theorem test_meets_GuardDecides_pass : ∃ (rows : List ChainRow) (s2 : State),
    Claim.decides gdS 1151 1 gdD ∧ gdE = { gdD with fmt := gdD.f.fo, farr := gdD.f.arro } ∧ gdS1 = setDrain 1151 gdE gdS ∧ chainTile (tileOf gdS1 1151) gdE = .ok rows ∧
      rows.all (fun r => !r.pois) = true ∧ rows.length = 32 ∧ (passVerdict gdS1 gdE (convTile gdS1 gdE rows)).2 = none ∧ selects gdS1 gdE = false ∧
      writePieces 1151 false (tilePieces (ownPlace (tileOf gdS1 1151) gdE) gdE.fmt gdE.farr (convTile gdS1 gdE rows) 0 32) gdS1 = (s2, none) :=
  ⟨gdRows, (gdOut 32).1, by unfold Claim.decides; decide +kernel, rfl, rfl, okRows _ (by decide +kernel), by decide +kernel, by decide +kernel, by decide +kernel, by decide +kernel,
    pairSnd (gdOut 32) none (by decide +kernel)⟩

theorem test_meets_GuardDecides_fail : ∃ (r : Nat) (rows : List ChainRow) (s2 : State),
    Claim.decides gdS 1151 1 gdD ∧ r < 32 ∧ assist gdS 6 = false ∧ gdE = { gdD with fmt := gdD.f.fo, farr := gdD.f.arro } ∧ gdS1 = setDrain 1151 gdE gdS ∧
      chainTile (tileOf gdS1 1151) gdE = .ok rows ∧ rows.all (fun r => !r.pois) = true ∧ rows.length = 32 ∧ selects gdS1 gdE = false ∧
      writePieces 1151 false (tilePieces (ownPlace (tileOf gdS1 1151) gdE) gdE.fmt gdE.farr (convTile gdS1 gdE rows) 0 r) gdS1 = (s2, none) :=
  ⟨5, gdRows, (gdOut 5).1, by unfold Claim.decides; decide +kernel, by decide, by decide +kernel, rfl, rfl, okRows _ (by decide +kernel), by decide +kernel, by decide +kernel,
    by decide +kernel, pairSnd (gdOut 5) none (by decide +kernel)⟩

/-- A device whose last tile waits to be moved. -/
def mapS : State := { up with cox := { moveCmd := [(1151, cmd7)], running := [cmd7] } }

/-- The last tile may move to the nearest spare, whatever spares the part was shipped with. -/
theorem test_meets_MapMoves_moves : ∃ px py : Nat,
    1151 < numTiles ∧ spareAsked mapS 1151 = true ∧ mapS.cox.movePos = [] ∧ nearestSpare mapS 1151 (px, py) = true ∧ px < 64 ∧ py < 32 ∧ tileState mapS 1151 = 0 ∧
      quiet mapS 1151 = true ∧ (tileOf mapS 1151).scanCmd = none ∧ ownScanDue mapS 1151 = false := by
  obtain ⟨p, hp⟩ := nearestSpare_exists (s := mapS) (t := 1151) (usableSpares_home (by decide) (atHome_shipped (by decide +kernel)) rfl (fun _ => rfl))
  have hb := nearestSpare_bound (by decide) hp
  exact ⟨p.1, p.2, by decide, by decide +kernel, rfl, hp, by omega, by omega, by decide +kernel⟩

/-- A device whose first tile stands at the north-west corner, whatever map the part was shipped with. -/
def cornerS : State := withRaw [(reg .TILE_MAP 0, 0#64)]

/-- Its router goes into pass-through there, and a spare of the die stays usable. -/
theorem test_meets_MapMoves_passes :
    0 < 48 ∧ 0 < 26 ∧ tileAt cornerS (0, 0) = some 0 ∧ cornerS.passThrough = [] ∧ retiring cornerS 0 = false ∧ tileState cornerS 0 = 0 ∧ assist cornerS 7 = false ∧
      (usableSpares { cornerS with passThrough := [(posKey 0 0, true)] } (dieOfTile 0)).isEmpty = false := by
  refine ⟨by decide, by decide, by decide +kernel, rfl, by decide +kernel, by decide +kernel, by decide +kernel, List.isEmpty_eq_false_iff.mpr ?_⟩
  refine usableSpares_home (by decide) (fun t ht => ?_) rfl (fun x => ?_)
  · by_cases z : t = 0
    · exact .inr (by subst z; decide +kernel)
    · refine .inl (physPos_shipped ht (tileMap_shipped ?_))
      have k : (reg .TILE_MAP t).off = 0x1000008 + t * 0x4000 + 0 * 0 := rfl
      rw [k]
      simp [cornerS, withRaw, show (reg .TILE_MAP 0).off = 0x1000008 from rfl]
      omega
  · have k : posKey x 6 ≠ 0 := by simp [posKey]
    show SMap.get false [(0, true)] (posKey x 6) = false
    generalize posKey x 6 = n at k ⊢
    cases n with
    | zero => exact absurd rfl k
    | succ n => simp [SMap.get]

/-- The SPARE_TILE frame that names a tile. -/
def spF (t : Nat) : Frame := fr 0x0701 (dw [(0, t), (31, 1)])
def spRow : CmdForm := { ops := [maskBits 10 0 ||| maskBits 21 16 ||| maskBits 28 24 ||| maskBits 31 31] }

theorem test_meets_SparingCommands_usable :
    Claim.taken ringsOn 7 0x0701 (spF 1151) spRow ∧ Claim.ringOpen ringsOn (cplOf ringsOn 7) = true ∧ 1151 = bits (spF 1151).w1 10 0 ∧ tileState ringsOn 1151 = 0 ∧
      bit (spF 1151).w1 31 = true ∧ spareAsked ringsOn 1151 = false ∧ (usableSpares ringsOn (dieOfTile 1151)).isEmpty = false := by
  unfold Claim.taken
  exact ⟨by decide +kernel, by decide +kernel, by decide +kernel, by decide +kernel, by decide +kernel, by decide +kernel,
    List.isEmpty_eq_false_iff.mpr (usableSpares_home (by decide) (atHome_shipped (by decide +kernel)) (by decide +kernel) (fun _ => rfl))⟩

/-- A device that already moves its first tile. -/
def movS : State := { ringsOn with cox := { tails := [(7, 1)], moveCmd := [(0, cmd7)], running := [cmd7] } }

theorem test_meets_SparingCommands_moving :
    Claim.taken movS 7 0x0701 (spF 0) spRow ∧ Claim.ringOpen movS (cplOf movS 7) = true ∧ bits (spF 0).w1 10 0 < numTiles ∧ tileState movS (bits (spF 0).w1 10 0) ≠ 4 ∧
      bit (spF 0).w1 31 = true ∧ (spareAsked movS (bits (spF 0).w1 10 0) = true ∨ tileState movS (bits (spF 0).w1 10 0) = 2) ∧
      (usableSpares movS (dieOfTile (bits (spF 0).w1 10 0))).isEmpty = false := by
  unfold Claim.taken
  refine ⟨by decide +kernel, by decide +kernel, by decide +kernel, by decide +kernel, by decide +kernel, by decide +kernel, List.isEmpty_eq_false_iff.mpr ?_⟩
  exact usableSpares_home (by decide +kernel) (atHome_shipped (by decide +kernel)) (by decide +kernel) (fun _ => rfl)

/-- A proposed retirement that the host is to decide, and its approval. -/
def prP : Proposal := { num := 77, kind := 4, a := 1151 }
def prS : State := { withRegs [(reg .MBX_ASSIST, 0x80#64)] ringsOn with cox := { tails := [(7, 1)], proposals := [prP] } }
def prF : Frame := fr 0x0702 (dw [(0, 77), (32, 1)])

theorem test_meets_SparingCommands_free :
    Claim.taken prS 7 0x0702 prF { ops := [maskBits 32 0] } ∧ Claim.ringOpen prS (cplOf prS 7) = true ∧ assist prS 7 = true ∧
      prS.cox.proposals.find? (fun p => p.num == bits prF.w1 31 0 && p.kind == 4 && !p.decided) = some prP ∧ bit prF.w1 32 = true ∧ prP.a < numTiles ∧
      (tileOf prS prP.a).scanCmd = none ∧ (usableSpares prS (dieOfTile prP.a)).isEmpty = false := by
  unfold Claim.taken
  refine ⟨by decide +kernel, by decide +kernel, by decide +kernel, by decide +kernel, by decide +kernel, by decide, by decide +kernel, List.isEmpty_eq_false_iff.mpr ?_⟩
  exact usableSpares_home (by decide) (atHome_shipped (by decide +kernel)) (by decide +kernel) (fun _ => rfl)

/-- A device whose sweep has come to a column of die 0's row of spares. -/
def sweepS (c : Nat) : State := withRaw [(reg .ERR_SCAN_POS, dw [(0, c), (8, 6)])]

/-- The sweep comes to a spare that no tile uses, whichever spares the part was shipped with. -/
theorem test_meets_ScansRun_spare : ∃ (px py : Nat) (s : State), Claim.sweepAt s px py ∧ tileAt s (px, py) = none ∧ (px, py) ∈ freeSpares s (dieOfPos px py) := by
  have place : ∀ c, c < 24 → Claim.sweepAt (sweepS c) c 6 ∧ (sweepS c).regs.all (fun e => decide (e.1 < 0x1000000)) = true ∧ dieOfPos c 6 = 0 ∧ sparePos 0 c = (c, 6) := by
    unfold Claim.sweepAt; decide +kernel
  obtain ⟨c, hc, hf⟩ := freeColumn 0
  obtain ⟨h, hr, hd, hp⟩ := place c hc
  obtain ⟨hu, ht⟩ := usableSpare_home (s := sweepS c) (by decide) hc hf (atHome_shipped hr) rfl (fun _ => rfl)
  rw [hp] at hu ht
  exact ⟨c, 6, sweepS c, h, ht, hd ▸ (List.mem_filter.mp hu).1⟩

/-- A die whose confirmed voltage suffices for its target with every trim a part can have. -/
def riseS : State :=
  { up with gov := { dies := [(3, { settled := true })] }, regs := [((reg .CLK_DIE_F 3).off, dw [(0, 600), (11, 700)]), ((reg .CLK_DIE_V 3).off, dw [(10, 1023)])] }

theorem test_meets_PowerIsLimited_rises :
    Claim.dieUp riseS 3 ∧ (dieG riseS 3).stretch = false ∧ dieClock riseS 3 < dieTarget riseS 3 ∧ mayRaise riseS 3 = true := by
  have a : dieTarget riseS 3 = 700 := by decide +kernel
  have b : dieVt riseS 3 = 1023 := by decide +kernel
  have c : (!riseS.gov.clamp && !(dieG riseS 3).avsFault && (dieG riseS 3).settled) = true := by decide +kernel
  have d : nodeVolt 700 ≤ 1000 := by decide
  unfold Claim.dieUp
  refine ⟨by decide +kernel, by decide +kernel, by decide +kernel, ?_⟩
  unfold mayRaise
  rw [a, b, c, Bool.true_and, decide_eq_true_eq]
  unfold dieVolt
  have := (Config.dieTrim 3).isLt
  omega

/-- A restore of the last region, which names no page. -/
def rsX : Restore := { r := 31, base := 0, twin := 0, pages := 0, cmd := cmd7, clear := false }
def rsS : State := { up with restores := [rsX] }

theorem test_meets_GroupsFlip_restore :
    31 < 32 ∧ rsS.gate.frozen = false ∧ rsS.restores = [rsX] ∧ rsX.r = 31 ∧
      (∀ p, shrBase rsS 31 ≤ p * 4096 → p * 4096 < shrBase rsS 31 + shrPages rsS 31 * 4096 →
        stkWaits rsS (p * 4096) 4096 = false ∧ ∀ i, i < 16 → placeCritical rsS (physOf rsS (p * 4096 + i * 256)) = false) := by
  refine ⟨by decide, rfl, rfl, rfl, fun p _ b => absurd b ?_⟩
  have z : shrBase rsS 31 = 0 ∧ shrPages rsS 31 = 0 := by decide +kernel
  rw [z.1, z.2]; omega

theorem test_meets_WindowStaysShown : ∃ s', Claim.windowShown State.reset ∧ step State.reset = .next s' :=
  ⟨_, by unfold Claim.windowShown; decide +kernel, rfl⟩

/-- A device whose window is closed, with one bound written. -/
def shut : State := withRegs [(reg .GATE_LOCK, 1#64), (reg .GATE_PWR_CEIL, 900#64)] { gate := { st := .underway, open_ := false } }

theorem test_meets_BoundsHold : ∃ s', Safety.Bounded (Safety.glWords shut) shut ∧ step shut = .next s' :=
  ⟨_, by unfold Safety.Bounded; decide +kernel, rfl⟩

theorem test_meets_ResetLeaves : ∃ d, d < 4 := ⟨3, by decide⟩

/-! ### Every check of WellFormed refuses an operand out of its range -/

theorem test_wf_refuses_places :
    [WellFormed.tileOk 1152, WellFormed.scanTileOk 3200, WellFormed.ringOk 8, WellFormed.stackOk 8, WellFormed.engOk 8, WellFormed.arrOk 3, WellFormed.linkOk 48, WellFormed.dieOk 4,
     WellFormed.vecOk 64, WellFormed.groupOk 16, WellFormed.regionOk 32, WellFormed.pllOk 26, WellFormed.dimOk 3, WellFormed.partOk 3, WellFormed.colOk 48, WellFormed.rowOk 26,
     WellFormed.chanOk 64, WellFormed.tensorOk 4096, WellFormed.bar2Ok 10, WellFormed.eidOk 7, WellFormed.eidOk 255, WellFormed.addrOk 0, WellFormed.addrOk 128, WellFormed.componentOk 3,
     WellFormed.rateOk 0, WellFormed.rateOk 4, WellFormed.tagOk 16, WellFormed.droopOk 104, WellFormed.paceOk 7, WellFormed.transferOk (List.replicate 257 0#8)].all (fun b => !b) = true := by decide +kernel

theorem test_wf_refuses_commands :
    [Instr.nop 1152 0, .warmReset 8 {}, .pllLock 26, .msixUnmask 64, .bar2Resize 10, .mapMove 1152 0 0 true, .commitFlip 16, .frequencyStep 4].all (fun i => !WellFormed.ok i) = true := by decide

theorem test_wf_accepts : [Instr.nop 1151 0, .warmReset 7 {}, .pllLock 25, .msixUnmask 63, .bar2Resize 9, .commitFlip 15, .frequencyStep 3].all WellFormed.ok = true := by decide

/-! ### Results that the spec states -/

/-- The register block of tile 713 lies at BAR0 0x1B2_4000 (the example of 00_scope.md). -/
theorem test_register_block : (reg .TILE_ID 713).off = 0x1B24000 ∧ dieOfTile 713 = 2 := by decide

/-- Tile 713 sits at logical grid position (17, 17) (the example of 09_work_queues_and_commit_groups.md). -/
theorem test_grid : gridX 713 = 17 ∧ gridY 713 = 17 := by decide

/-- DPA 0x0012_3456_7A40 lies in stack 5, pseudo-channel 31, at P = 0x091A_2B40 (the example of 10_memory_stacks.md). -/
theorem test_interleave : interleave none 0x001234567A40 = (5, 31, 0x091A2B40) := by decide

/-- The fields of AADDR a1 ← a0 + 0x8_0000, word 0x1C01_0000_0008_0000 (the example of 03_tile_instruction_set.md). -/
theorem test_fields_aaddr : aAd 0x01000000080000#56 = 1 ∧ aAs 0x01000000080000#56 = 0 ∧ fImm 0x01000000080000#56 = 0x80000 := by decide

/-- The fields of the example's MMA: F, g0, oi 0, FP4 DQ × FP4 DQ, 32 rows, kb 100. -/
theorem test_fields_mma : (fun m : MmaF => [m.arr, m.g, m.oi, m.fa, m.fw, m.warr, m.larr, m.rows, m.kb]) (mmaFields {} 0x00123775000000#56 0xFFFB1820034834C0#64 false false) = [0, 0, 0, 7, 7, 1, 1, 32, 100] := by decide

/-- The fields of the example's DCLOSE: BF16 plain, SiLU, tensor id 0x0D4, post k0. -/
theorem test_fields_dclose : (fun d : DrainF => (d.arr, d.g, d.dsp, d.fo, d.arro, d.stoch, d.tid)) (drainFields {} 0x00508501000000#56 0xFF0000D400000000#64 false false) = (0, 0, false, 1, 0, false, 0xD4) ∧ dPost 0x00508501000000#56 = some 0 := by decide

/-- The quotients of the example of 07_number_formats_and_scaling.md that its text names: −10 and 48, with zeros beside them. -/
def exQuots : List Num := [.ofInt 4, .ofInt (-10), .ofInt 3, .ofInt 48] ++ List.replicate 12 .zero

/-- Without sillage selection the block scale is 8 (0x50) and the codes are 0x1, 0xA, 0x1, 0x7. -/
theorem test_block_plain :
    (fun u : Unit7 => (u.sb, (u.els.map (·.code)).take 4, u.outl)) (convBlock FP4 1 none none (fun _ => .even) (fun _ => 0) exQuots) = (0x50, [0x1, 0xA, 0x1, 0x7], []) := by decide +kernel

/-- With θ = 40 and 36 as the greatest non-candidate, the scale is 6 (0x4C), and element 3 is an outlier with entry value 0x50. -/
theorem test_block_sillage :
    (fun u : Unit7 => (u.sb, (u.els.map (·.code)).take 4, u.outl)) (convBlock FP4 1 (some (40, 1)) none (fun _ => .even) (fun _ => 0) (exQuots.take 15 ++ [.ofInt 36])) = (0x4C, [0x1, 0xB, 0x1, 0x0], [(3, 0x50)]) := by decide +kernel

/-- Position 1,707 of a bank with segments of 1,000 and 20,000 steps is step 707 of segment 1 (the example of 11_base_note_update.md). -/
theorem test_schedule_place :
    segWalk [⟨2, 0, 0, 1000, 0#32, 0#32, 0#32⟩, ⟨3, 0, 0, 20000, 0#32, 0#32, 0#32⟩] 600 0 1707 none = some (1, 707) := by decide

/-- A PCIe request of 66 bytes from offset 63 on is split at each 64-byte boundary (R44). -/
theorem test_pieces : alignedPieces 66 63 66 = [(63, 1), (64, 64), (128, 1)] := by decide

/-- In a group of 8 the offset 3 is on ports 2 and 9, cabled to 4 and 11 (the example of 12_chip_links.md). -/
theorem test_ports : (List.range 15).filter (fun j => portOffset 8 j == some 3) = [2, 9] ∧ peerPort 8 2 = 4 ∧ peerPort 8 9 = 11 ∧ portOffset 8 11 = some 5 := by decide

/-- A device of an 8 × 8 × 8 fabric with the links of the example up. -/
def fabAt (x y z id : Nat) : State :=
  withRegs ([(reg .FAB_COORD, dw [(0, x), (4, y), (8, z), (12, id), (24, 7), (28, 7), (32, 7)])] ++ [2, 9, 36, 43].map (fun l => (reg .LNK_STAT l, 3#64)))

/-- Device (3, 5, 2) sends a packet with tag 0x40 for (6, 5, 7) out of link 9, and (6, 5, 2) sends it on out of link 43 (the same example). -/
theorem test_route : nextHop (fabAt 3 5 2 595) none 595 1878 0x40 = .out 9 false false ∧ nextHop (fabAt 6 5 2 598) (some 0) 595 1878 0x40 = .out 43 false false := by decide +kernel

/-- An ADD moves the program counter past its one word. -/
theorem test_add_issues : (match exec (.add 1151 (iw [(52, 0), (47, 1), (42, 3), (37, 4)])) (lt tRun) with | .next s => (tileOf s 1151).pc | _ => 0) = 8 := by decide +kernel

end Sys2Proof.Tests
end

section
/-! SUPPORT. What the record of an event is (R410, R411), and which writes of register space the Gate's fields refuse (R11). -/

namespace Sys2Proof.Machine
open Sys2Proof

/-! ### The record of an event -/

/-- The management port's copy of a record leaves the ring of entries and every register but the count of lost copies (R434). -/
theorem portPush_keeps (ws : List Word) (s : State) :
    (portPush ws s).rec_.log = s.rec_.log ∧ ∀ q : Reg, q.off ≠ (reg .ERR_PORT_LOST).off → rget (portPush ws s) q = rget s q := by
  unfold portPush
  split
  · exact ⟨rfl, fun _ _ => rfl⟩
  · split
    · exact ⟨rfl, fun _ _ => rfl⟩
    · exact ⟨rfl, fun q hq => rget_rcount_other _ q _ _ _ hq⟩

/-- Queueing the frames of a record leaves the ring of entries and every register but the count of lost frames of its ring (R383, R396). -/
theorem asyncQueue_keeps (ring : Nat) (ws : List Word) (s : State) :
    (asyncQueue ring ws s).rec_ = s.rec_ ∧ ∀ q : Reg, q.off ≠ (reg .MBX_CPL_OVF ring).off → rget (asyncQueue ring ws s) q = rget s q := by
  unfold asyncQueue
  split
  · exact ⟨rfl, fun _ _ => rfl⟩
  · exact ⟨rfl, fun q hq => rget_rsetBits_other _ q _ _ _ _ hq⟩

/-- Once its entry is written, an event only makes copies of it: the ring and its registers stand as the entry left them (R410). -/
theorem event_keeps_errWrite (code die src : Nat) (a b : Word) (s : State) :
    (event code die src a b s).rec_.log = (errWrite (recordWords s code die src a b ++ [0#64, 0#64, 0#64, 0#64]) s).rec_.log ∧
    ∀ q : Reg, q.off ≠ (reg .ERR_PORT_LOST).off → (∀ k, k < 8 → q.off ≠ (reg .MBX_CPL_OVF k).off) →
      rget (event code die src a b s) q = rget (errWrite (recordWords s code die src a b ++ [0#64, 0#64, 0#64, 0#64]) s) q := by
  unfold event eventX
  extract_lets ws idx e ep s1 s2
  have hring : bits e 2 0 < 8 := bits_lt e 2 0
  have h2 : s2.rec_.log = s1.rec_.log ∧ ∀ q : Reg, q.off ≠ (reg .ERR_PORT_LOST).off → rget s2 q = rget s1 q := by
    by_cases hc : code / 256 = 0x0F
    · simp only [s2, if_pos hc, implies_true, and_self]
    · simpa only [s2, if_neg hc] using portPush_keeps ws s1
  split
  · obtain ⟨hr, hq⟩ := asyncQueue_keeps (bits e 2 0)
      [BitVec.ofNat 64 (0x21 * 2 ^ 16 + 2 ^ 25 + 2 ^ 27), BitVec.ofNat 64 ((code % 65536 + severity code a.toNat * 2 ^ 16 + (die % 256) * 2 ^ 24) * 2 ^ 32), a, ep,
       BitVec.ofNat 64 (0x21 * 2 ^ 16 + 2 ^ 25), BitVec.ofNat 64 ((src % 2 ^ 32) * 2 ^ 32), b, BitVec.ofNat 64 idx] s2
    exact ⟨by rw [hr, h2.1], fun q hp ho => by rw [hq q (ho _ hring), h2.2 q hp]⟩
  · exact ⟨h2.1, fun q hp _ => h2.2 q hp⟩

theorem errWrite_log (ws : List Word) (s : State) : (errWrite ws s).rec_.log = SMap.set s.rec_.log (rbits s (reg .ERR_HEAD) 17 0) ws := rfl

/-- The head goes on by one and turns round at the end of the ring (R411). -/
theorem rbits_errWrite_head (ws : List Word) (s : State) : rbits (errWrite ws s) (reg .ERR_HEAD) 17 0 = (rbits s (reg .ERR_HEAD) 17 0 + 1) % errEntries := by
  have hlt : (rbits s (reg .ERR_HEAD) 17 0 + 1) % errEntries < 163776 := Nat.mod_lt _ (by decide)
  unfold errWrite rcount
  rw [rbits_rsetBits_other _ _ _ _ _ _ _ _ (by decide), rbits, rget_rset_same]
  simp only [bits, BitVec.toNat_ofNat, Nat.shiftRight_zero]
  omega

/-- The count of entries goes on by one (R411). -/
theorem rbits_errWrite_count (ws : List Word) (s : State) : rbits (errWrite ws s) (reg .ERR_COUNT) 47 0 = (rbits s (reg .ERR_COUNT) 47 0 + 1) % 2 ^ 48 := by
  unfold errWrite
  rw [rbits_rcount_same (reg .ERR_COUNT) 48 1 _ (by decide) (by decide), rbits_rset_other _ _ _ _ _ _ (by decide)]
  rfl

/-- An overflow count of a completion ring stands apart from a register of the block at 0x600000. -/
theorem off_ne_cplOvf (q : Reg) (h : 0x600000 ≤ q.off) : ∀ k, k < 8 → q.off ≠ (reg .MBX_CPL_OVF k).off := by
  intro k hk
  show q.off ≠ 0x10218 + k * 0x40 + 0 * 8
  omega

/-- An event writes its entry at the head of the ring, and head and count go on by one (R410, R411). -/
theorem event_recorded (code die src : Nat) (a b : Word) (s : State) : Claim.recorded code die src a b s (event code die src a b s) := by
  obtain ⟨hlog, hreg⟩ := event_keeps_errWrite code die src a b s
  refine ⟨?_, ?_, ?_⟩
  · rw [hlog, errWrite_log, SMap.get_set_same]
  · rw [rbits, hreg _ (by decide) (off_ne_cplOvf _ (by decide))]
    exact rbits_errWrite_head _ s
  · rw [rbits, hreg _ (by decide) (off_ne_cplOvf _ (by decide))]
    exact rbits_errWrite_count _ s

/-- An event leaves every register that is not one of the record's. -/
theorem event_regsKeep (code die src : Nat) (a b : Word) (s : State) : Claim.regsKeep Claim.eventRegs s (event code die src a b s) := by
  intro r hr
  simp only [Claim.eventRegs, List.contains_eq_mem, List.mem_append, List.mem_cons, List.mem_map, List.mem_range, List.not_mem_nil, or_false,
    decide_eq_false_iff_not, not_or, not_exists, not_and] at hr
  obtain ⟨⟨hhead, hcount, hlost⟩, hovf⟩ := hr
  exact rget_event_other code die src a b s r hhead hcount hlost (fun k hk e => hovf k hk e.symm)

/-- An event is a record and nothing else (R410, R411). -/
theorem event_onlyRecorded (code die src : Nat) (a b : Word) (s : State) : Claim.onlyRecorded code die src a b s (event code die src a b s) := by
  refine ⟨event_recorded code die src a b s, ?_, event_regsKeep code die src a b s⟩
  obtain ⟨rg, rc, q, e⟩ := event_eq code die src a b s
  rw [e]

/-! ### Where the Gate's fields stand -/

/-- A register found in a list is one of the list. -/
theorem findReg_mem {l : List RegName} {off : Nat} {n : RegName} {i j : Nat} (h : findReg l off = some (n, i, j)) : n ∈ l := by
  induction l with
  | nil => cases h
  | cons m l ih =>
    rw [findReg] at h
    split at h
    · cases h; exact List.mem_cons_self ..
    · exact List.mem_cons_of_mem _ (ih h)

/-- Above the Gate's block no register holds a GL field (R11, R361). -/
theorem gl_eq_zero_of_above {off : Nat} (h : 0x10000 ≤ off) : ∀ n ∈ blockRegs off, (regInfo n).gl = 0#64 := by
  unfold blockRegs
  rw [if_neg (by omega)]
  repeat' refine iteInduction (motive := fun l => ∀ n ∈ l, (regInfo n).gl = 0#64) (fun _ => ?_) (fun _ => ?_)
  all_goals decide +kernel

/-- Every register with a GL field stands in the Gate's block. -/
theorem lt_of_isGl {n : RegName} {off i j : Nat} (hr : regAt off = some (n, i, j)) (hg : isGl n off = true) : off < 0x10000 := by
  by_contra hlt
  have h0 : (regInfo n).gl = 0#64 := gl_eq_zero_of_above (by omega) n (findReg_mem hr)
  simp [isGl, h0] at hg
  omega

/-- Below the MSI-X table, register space holds the registers of the tables alone (R12). -/
theorem placeAt_of_lt {off : Nat} (h : off < 0x11000) : placeAt off = (regAt off).map (fun p => .reg p.1 p.2.1 p.2.2) := by
  have h1 : (0x11000 ≤ off && off < 0x11400 : Bool) = false := by simp; omega
  have h2 : (0x601000 ≤ off && off < 0x1000000 : Bool) = false := by simp; omega
  unfold placeAt
  rw [h1, h2, if_neg (by decide), if_neg (by omega), if_neg (by decide)]

/-- No tile's registers stand below the tile blocks, so no hold keeps an access there (R12, R31). -/
theorem onHold_of_lt (s : State) {off : Nat} (h : off < 0x1000000) : onHold s off = none := by
  have hb : blockTile off = none := by
    unfold blockTile
    rw [if_neg (by simp; omega)]
  rw [onHold, hb]
  rfl

/-- An aligned write of a register with a GL field is recorded and discarded (R11). -/
theorem barWrite_of_isGl (q : Req) (v : Word) (s : State) {off size i j : Nat} {n : RegName} (hsize : size = 4 ∨ size = 8) (hal : off % size = 0)
    (hp : placeAt (off / 8 * 8) = some (.reg n i j)) (hg : isGl n (off / 8 * 8) = true) :
    barWrite q off size v s = recGlWrite q (off / 8 * 8) v s := by
  have hacc : ¬ ((!(size == 4 || size == 8) || off % size ≠ 0 : Bool) = true) := by
    rcases hsize with rfl | rfl <;> simpa using hal
  unfold barWrite
  rw [if_neg hacc]
  simp only [hp, hg, if_true]

/-- Settles O29: a register with a GL field stands in the Gate's block, where no hold keeps the write and its only effect is the record. -/
theorem glFieldsAreReadOnly : Obligations.GlFieldsAreReadOnly := by
  unfold Obligations.GlFieldsAreReadOnly
  intro q off size v n i j s hon hreach hsize hal hreg hgl
  have hlt : off / 8 * 8 < 0x10000 := lt_of_isGl hreg hgl
  have hplace : placeAt (off / 8 * 8) = some (.reg n i j) := by
    rw [placeAt_of_lt (by omega), hreg]
    rfl
  refine ⟨event 0x0F02 0xFF (Req.code q) (w64 (off / 8 * 8 % 65536)) v s, ?_, event_onlyRecorded ..⟩
  show execRegisterWrite q off size v s = _
  unfold execRegisterWrite
  rw [if_neg (by simp [hon, hreach])]
  simp only [onHold_of_lt s (show off < 0x1000000 by omega), barWrite_of_isGl q v s hsize hal hplace hgl]
  rfl

/-! ### A read that moves the interleave -/

/-- A device with 0xAB at byte 1 of stack memory and one open combining entry on that line, whose use is so large that its count of slots (R416) stands at
MEM_LOC_BASE of region 0 (R243). No command opens such an entry; the statement ranges over every state. -/
def strayUse : State :=
  { gate := { st := .underway, coxValid := true, checkOk := true, boot := 2 },
    stk := { mem := [(1, 0xAB#8)],
             wcb := [{ line := 0, mask := 1#64, use := ((reg .MEM_LOC_BASE).off - (reg .PMC_STK_SLOT).off) / 8 }] } }

/-- Before a read, byte 1 of stack memory is 0xAB. -/
theorem stkPeek_strayUse : rawBytes (stkPeek strayUse 1 1) = [0xAB#8] := by decide +kernel

/-- A read of byte 1 through BAR2 merges the entry first: counting its slot makes region 0 valid, and the byte is then looked for on another stack. -/
theorem bar2Access_strayUse_reads_zero {s' : State} (h : exec (.bar2Access 1 1 false [] false) strayUse = .next s') : s'.ports.rdata = [0#8] := by
  injection h with h
  subst h
  decide +kernel

/-- Refutes O31: the clause on BAR2 reads does not bound the use of the combining entries. Where the line read has an entry whose use is none of the eight of
R416, merging it counts on a register of the interleave before the bytes are delivered. -/
theorem not_hostAccesses : ¬ Obligations.HostAccesses := by
  unfold Obligations.HostAccesses Claim.PcieWindows
  rintro ⟨-, -, -, hread, -⟩
  obtain ⟨s', hexec, hdata, -⟩ := hread 1 1 1 strayUse (by decide) (by decide +kernel) (by decide +kernel) (by decide +kernel) (by decide +kernel) rfl rfl
  rw [bar2Access_strayUse_reads_zero hexec, stkPeek_strayUse] at hdata
  exact absurd hdata (by decide)

end Sys2Proof.Machine
end

section
/-! SUPPORT. Entries of sparse tables kept by their key, and elements of lists. -/

namespace Sys2Proof

variable {α : Type}

/-- Entries kept by their key read as before, and the others as the default. -/
theorem SMap.get_filter (d : α) (m : SMap α) (p : Nat → Bool) (j : Nat) :
    SMap.get d (m.filter (fun e => p e.1)) j = if p j then SMap.get d m j else d := by
  induction m with
  | nil => simp
  | cons e m ih =>
    obtain ⟨k, v⟩ := e
    by_cases hk : k = j
    · subst hk
      by_cases hp : p k = true
      · simp [hp, SMap.get_cons]
      · simpa [List.filter_cons, hp, SMap.get_cons] using ih
    · by_cases hp : p k = true
      · simpa [List.filter_cons, hp, SMap.get_cons, hk] using ih
      · simpa [List.filter_cons, hp, SMap.get_cons, hk] using ih

theorem SMap.mem_insert (m : SMap α) (j : Nat) (x : α) : (j, x) ∈ SMap.insert m j x := by
  induction m with
  | nil => exact List.mem_singleton_self _
  | cons e m ih =>
    obtain ⟨k, v⟩ := e
    unfold SMap.insert
    split
    · exact List.mem_cons_self ..
    · exact List.mem_cons_of_mem _ ih

/-- A value other than the default is listed once it is written. -/
theorem SMap.mem_put [DecidableEq α] {d x : α} (m : SMap α) (j : Nat) (h : x ≠ d) : (j, x) ∈ SMap.put d m j x := by
  unfold SMap.put
  rw [if_neg h]
  exact SMap.mem_insert ..

theorem nth_eq_getD (d : α) (l : List α) (i : Nat) : nth d l i = l.getD i d := by
  induction l generalizing i with
  | nil => rfl
  | cons x l ih =>
    cases i with
    | zero => rfl
    | succ i => exact ih i

end Sys2Proof
end

section
/-! SUPPORT. Registers of the tile blocks (R12), and traffic on the mesh: what the routers count, and what a packet may change on its way (R33, R34, R414). -/

namespace Sys2Proof.Machine
open Sys2Proof

/-! ### Registers of a tile's block (R12) -/

theorem off_tileState (t : Nat) : (reg .TILE_STATE t).off = 0x1000010 + t * 0x4000 := rfl
theorem off_tileMap (t : Nat) : (reg .TILE_MAP t).off = 0x1000008 + t * 0x4000 := rfl
theorem off_sramCe (t : Nat) : (reg .TILE_SRAM_CE t).off = 0x1000018 + t * 0x4000 := rfl
theorem off_sramUe (t : Nat) : (reg .TILE_SRAM_UE t).off = 0x1000020 + t * 0x4000 := rfl
theorem off_sramErr (t : Nat) : (reg .TILE_SRAM_ERR t).off = 0x1000028 + t * 0x4000 := rfl
theorem off_sramUeAddr (t : Nat) : (reg .TILE_SRAM_UE_ADDR t).off = 0x1000030 + t * 0x4000 := rfl
theorem off_meshCe (t : Nat) : (reg .TILE_MESH_CE t).off = 0x1000038 + t * 0x4000 := rfl
theorem off_seqCode (t : Nat) : (reg .TILE_SEQ_CODE t).off = 0x1000100 + t * 0x4000 := rfl
theorem off_taintFlags (t : Nat) : (reg .TILE_TAINT_FLAGS t).off = 0x1000730 + t * 0x4000 := rfl
theorem off_taint (t w : Nat) : (reg .TILE_TAINT t w).off = 0x1000800 + t * 0x4000 + w * 8 := rfl
theorem off_pmcOvf (t : Nat) : (reg .TILE_PMC_OVF t).off = 0x1000A10 + t * 0x4000 := rfl
theorem off_pmcCtr (t k : Nat) : (reg .TILE_PMC_CTR t k).off = 0x1003000 + t * 0x4000 + k * 8 := rfl

/-- A register of the tile blocks: its first place lies in the first block, and its places of one tile within the block. -/
def inTileBlock (n : RegName) : Bool :=
  let r := regInfo n
  r.c1 == 1152 && r.s1 == 0x4000 && decide (0x1000000 ≤ r.base) && decide (r.base < 0x1004000) &&
    (r.c2 == 1 || decide (0 < r.s2) && decide (r.base + r.c2 * r.s2 ≤ 0x1004000))

theorem tileRegs_inTileBlock : ∀ n ∈ tileRegs, inTileBlock n = true := by decide

/-- Whether an offset is a place of a register of the tile blocks does not depend on the tile. -/
theorem regIndex_shift {n : RegName} (hn : inTileBlock n = true) {t o : Nat} (ht : t < 1152) (ho : o < 0x4000) :
    regIndex n (0x1000000 + o + t * 0x4000) = (regIndex n (0x1000000 + o)).map (fun p => (t, p.2)) := by
  obtain ⟨⟨⟨⟨hc, hs⟩, hlo⟩, hhi⟩, htop⟩ : (((((regInfo n).c1 = 1152 ∧ (regInfo n).s1 = 0x4000) ∧ 0x1000000 ≤ (regInfo n).base) ∧ (regInfo n).base < 0x1004000) ∧
      ((regInfo n).c2 = 1 ∨ 0 < (regInfo n).s2 ∧ (regInfo n).base + (regInfo n).c2 * (regInfo n).s2 ≤ 0x1004000)) := by
    simpa [inTileBlock] using hn
  unfold regIndex
  simp only [hc, hs, if_neg (show ¬ 1152 = 1 by decide)]
  generalize (regInfo n).base = b at *
  generalize (regInfo n).c2 = c at *
  generalize (regInfo n).s2 = w at *
  by_cases hb : 0x1000000 + o < b
  · rw [if_pos hb]
    by_cases hb' : 0x1000000 + o + t * 0x4000 < b
    · rw [if_pos hb']; rfl
    · have hd : (0x1000000 + o + t * 0x4000 - b) / 0x4000 = t - 1 ∧ (0x1000000 + o + t * 0x4000 - b) % 0x4000 ≠ 0 ∧
          0x1000000 + o + t * 0x4000 - b - (t - 1) * 0x4000 = 0x1004000 + o - b := by omega
      obtain ⟨hq, hr, he⟩ := hd
      rw [if_neg hb']
      by_cases h1 : c = 1
      · rw [if_pos h1, if_neg (by simp [hr])]; rfl
      · have hw : 0 < w ∧ b + c * w ≤ 0x1004000 := htop.resolve_left h1
        have hlt : ¬ (0x1004000 + o - b) / w < c := by
          rw [Nat.div_lt_iff_lt_mul hw.1]
          omega
        simp only [if_neg h1, hq, he]
        simp [hlt]
  · have hd : (0x1000000 + o + t * 0x4000 - b) / 0x4000 = t ∧ (0x1000000 + o + t * 0x4000 - b) % 0x4000 = 0x1000000 + o - b ∧
        0x1000000 + o + t * 0x4000 - b - t * 0x4000 = 0x1000000 + o - b := by omega
    have hd0 : (0x1000000 + o - b) / 0x4000 = 0 ∧ (0x1000000 + o - b) % 0x4000 = 0x1000000 + o - b := by omega
    obtain ⟨hq, hr, he⟩ := hd
    obtain ⟨hq0, hr0⟩ := hd0
    rw [if_neg hb, if_neg (by omega)]
    simp only [hq, hr, he, hq0, hr0, Nat.zero_mul, Nat.sub_zero, ht]
    by_cases h1 : c = 1
    · by_cases h0 : 0x1000000 + o - b = 0 <;> simp [h1, h0]
    · by_cases h2 : ((0x1000000 + o - b) % w = 0) ∧ (0x1000000 + o - b) / w < c <;> simp [h1, h2]

/-- The register at an offset of the tile blocks is that of the first block at the same place, with the tile's number. -/
theorem regAt_shift {t o : Nat} (ht : t < 1152) (ho : o < 0x4000) :
    regAt (0x1000000 + o + t * 0x4000) = (regAt (0x1000000 + o)).map (fun p => (p.1, t, p.2.2)) := by
  have key : ∀ l : List RegName, (∀ n ∈ l, inTileBlock n = true) →
      findReg l (0x1000000 + o + t * 0x4000) = (findReg l (0x1000000 + o)).map (fun p => (p.1, t, p.2.2)) := by
    intro l
    induction l with
    | nil => intro _; rfl
    | cons n l ih =>
      intro hl
      simp only [findReg, regIndex_shift (hl n (List.mem_cons_self ..)) ht ho]
      cases regIndex n (0x1000000 + o) with
      | none => exact ih (fun m hm => hl m (List.mem_cons_of_mem _ hm))
      | some p => rfl
  have hb : ∀ u, u < 1152 → blockRegs (0x1000000 + o + u * 0x4000) = tileRegs := by
    intro u hu
    unfold blockRegs
    repeat rw [if_neg (by omega)]
    rw [if_pos (by omega)]
  have hb0 : blockRegs (0x1000000 + o) = tileRegs := by simpa using hb 0 (by decide)
  unfold regAt
  rw [hb t ht, hb0]
  exact key tileRegs tileRegs_inTileBlock

theorem isCounter_shift {t o : Nat} (ht : t < 1152) (ho : o < 0x4000) : Claim.isCounter (0x1000000 + o + t * 0x4000) = Claim.isCounter (0x1000000 + o) := by
  unfold Claim.isCounter
  rw [regAt_shift ht ho]
  rcases regAt (0x1000000 + o) with _ | ⟨n, p⟩
  · rfl
  · cases n <;> rfl

theorem isCounter_pmcOvf {t : Nat} (ht : t < 1152) : Claim.isCounter (reg .TILE_PMC_OVF t).off = true := by
  have h := isCounter_shift (o := 0xA10) ht (by decide)
  rw [off_pmcOvf, h]
  decide +kernel

theorem isCounter_pmcCtr {t k : Nat} (ht : t < 1152) (hk : k < 8) : Claim.isCounter (reg .TILE_PMC_CTR t k).off = true := by
  have h := isCounter_shift (o := 0x3000 + k * 8) ht (by omega)
  have h0 : ∀ k, k < 8 → Claim.isCounter (0x1000000 + (0x3000 + k * 8)) = true := by decide +kernel
  rw [off_pmcCtr, show 0x1003000 + t * 0x4000 + k * 8 = 0x1000000 + (0x3000 + k * 8) + t * 0x4000 by omega, h, h0 k hk]

theorem isCounter_tileState {t : Nat} (ht : t < 1152) : Claim.isCounter (reg .TILE_STATE t).off = false := by
  have h := isCounter_shift (o := 0x10) ht (by decide)
  rw [off_tileState, h]
  decide +kernel

/-! ### What routers count (R414) -/

/-- Counters of tiles moved and nothing else. -/
def Counts (s s' : State) : Prop := (∃ rg, s' = { s with regs := rg }) ∧ Claim.counted [] s s'

theorem Counts.refl (s : State) : Counts s s := ⟨⟨s.regs, rfl⟩, fun _ _ _ => rfl⟩

theorem Counts.trans {a b c : State} (h : Counts a b) (k : Counts b c) : Counts a c := by
  obtain ⟨⟨rg, rfl⟩, hr⟩ := h
  obtain ⟨⟨rg', rfl⟩, kr⟩ := k
  exact ⟨⟨rg', rfl⟩, fun r hc ho => (kr r hc ho).trans (hr r hc ho)⟩

theorem Counts.foldl {β : Type} {f : State → β → State} {bs : List β} (h : ∀ s, ∀ b ∈ bs, Counts s (f s b)) (s : State) : Counts s (bs.foldl f s) := by
  induction bs generalizing s with
  | nil => exact Counts.refl s
  | cons b bs ih =>
    exact (h s b (List.mem_cons_self ..)).trans (ih (fun s c hc => h s c (List.mem_cons_of_mem _ hc)) _)

theorem Counts.rget_eq {s s' : State} (h : Counts s s') {r : Reg} (hr : Claim.isCounter r.off = false) : rget s' r = rget s r := h.2 r hr rfl

theorem Counts.tileOf_eq {s s' : State} (h : Counts s s') (u : Nat) : tileOf s' u = tileOf s u := by
  obtain ⟨⟨rg, rfl⟩, _⟩ := h
  rfl

theorem Counts.flitErr_eq {s s' : State} (h : Counts s s') : s'.flitErr = s.flitErr := by
  obtain ⟨⟨rg, rfl⟩, _⟩ := h
  rfl

theorem Counts.tileState_eq {s s' : State} (h : Counts s s') {t : Nat} (ht : t < numTiles) : tileState s' t = tileState s t := by
  unfold tileState rbits
  rw [h.rget_eq (isCounter_tileState ht)]

theorem counts_pmcCount {t : Nat} (ht : t < 1152) (ev n : Nat) (s : State) : Counts s (pmcCount t ev n s) := by
  refine ⟨pmcCount_eq t ev n s, fun r hr _ => rget_pmcCount_other t ev n s r (fun e => ?_) (fun k hk e => ?_)⟩
  · rw [e, isCounter_pmcOvf ht] at hr
    cases hr
  · rw [e, isCounter_pmcCtr ht hk] at hr
    cases hr

/-- The first index of a register stays below its number of places. -/
theorem regIndex_lt {n : RegName} {off i j : Nat} (h : regIndex n off = some (i, j)) : i < (regInfo n).c1 := by
  unfold regIndex at h
  extract_lets r d i' e at h
  split at h
  · cases h
  · split at h
    · split at h
      · next hc =>
        cases h
        exact of_decide_eq_true (Bool.and_eq_true_iff.mp hc).2
      · cases h
    · split at h
      · next hc =>
        obtain rfl : i' = i := congrArg Prod.fst (Option.some.inj h)
        exact of_decide_eq_true (Bool.and_eq_true_iff.mp (Bool.and_eq_true_iff.mp hc).1).1
      · cases h

/-- Every tile that counts is one of the device's. -/
theorem lt_of_mem_pmcTiles {s : State} {t : Nat} (h : t ∈ pmcTiles s) : t < 1152 := by
  obtain ⟨e, _, he⟩ := List.mem_filterMap.mp h
  split at he
  · next i j hij =>
    cases he
    exact regIndex_lt hij
  · cases he

theorem counts_routerCount (ev k : Nat) (ps : List Pos) (s : State) : Counts s (routerCount ev k ps s) := by
  refine Counts.foldl (fun s' t ht => ?_) s
  split
  · exact counts_pmcCount (lt_of_mem_pmcTiles ht) ev k s'
  · exact Counts.refl s'

/-- What the routers of a packet's way count, before its flits meet their inputs. -/
theorem counts_mesh (w : List Pos) (inj ej : Bool) (n : Nat) (s : State) : ∃ s', Counts s s' ∧
    ((meshSend w inj ej n s) = (false, s) ∨ (meshSend w inj ej n s) = w.foldl (fun r p => flitIn p r) (false, s')) := by
  unfold meshSend
  split
  · exact ⟨s, Counts.refl s, .inl rfl⟩
  · extract_lets s1 s2 s3
    have h1 : Counts s s1 := counts_routerCount ..
    have h2 : Counts s1 s2 := by
      unfold s2
      split
      · exact counts_routerCount ..
      · exact Counts.refl s1
    have h3 : Counts s2 s3 := by
      unfold s3
      split
      · exact counts_routerCount ..
      · exact Counts.refl s2
    exact ⟨s3, (h1.trans h2).trans h3, .inr rfl⟩

/-! ### Flits on their way (R33) -/

theorem flitIn_clean (p : Pos) (r : Bool × State) (h : r.2.flitErr = []) : flitIn p r = r := by
  unfold flitIn
  rw [h]
  rfl

theorem flits_clean (w : List Pos) (s : State) (h : s.flitErr = []) : w.foldl (fun r p => flitIn p r) (false, s) = (false, s) := by
  induction w with
  | nil => rfl
  | cons p w ih => rw [List.foldl_cons, flitIn_clean p (false, s) h, ih]

/-- Where no flit is in error, a packet arrives clean and only counters have moved. -/
theorem meshSend_clean (w : List Pos) (inj ej : Bool) (n : Nat) {s : State} (h : s.flitErr = []) : (meshSend w inj ej n s).1 = false ∧ Counts s (meshSend w inj ej n s).2 := by
  obtain ⟨s', hc, e | e⟩ := counts_mesh w inj ej n s
  · rw [e]
    exact ⟨rfl, Counts.refl s⟩
  · rw [e, flits_clean w s' (hc.flitErr_eq.trans h)]
    exact ⟨rfl, hc⟩

theorem tileTrip_clean (p q : Pos) (b : Bool) (n m : Nat) {s : State} (h : s.flitErr = []) : (tileTrip p q b n m s).1 = false ∧ Counts s (tileTrip p q b n m s).2 := by
  unfold tileTrip
  extract_lets a b'
  obtain ⟨ha, hca⟩ : a.1 = false ∧ Counts s a.2 := meshSend_clean _ _ _ _ h
  obtain ⟨hb, hcb⟩ : b'.1 = false ∧ Counts a.2 b'.2 := meshSend_clean _ _ _ _ (hca.flitErr_eq.trans h)
  exact ⟨by rw [ha, hb]; rfl, hca.trans hcb⟩

theorem reqTrip_clean (q : Req) (addr t n m : Nat) {s : State} (h : s.flitErr = []) : (reqTrip q addr t n m s).1 = false ∧ Counts s (reqTrip q addr t n m s).2 := by
  unfold reqTrip
  split
  · exact tileTrip_clean _ _ _ _ _ h
  · exact ⟨rfl, Counts.refl s⟩

/-- What a packet may change on its way whatever errors its flits meet: registers, none of them a tile's state, and the errors that were to come. -/
def Crosses (s s' : State) : Prop := (∃ rg fe, s' = { s with regs := rg, flitErr := fe }) ∧ ∀ t, t < numTiles → tileState s' t = tileState s t

theorem Crosses.refl (s : State) : Crosses s s := ⟨⟨s.regs, s.flitErr, rfl⟩, fun _ _ => rfl⟩

theorem Crosses.trans {a b c : State} (h : Crosses a b) (k : Crosses b c) : Crosses a c := by
  obtain ⟨⟨rg, fe, rfl⟩, hs⟩ := h
  obtain ⟨⟨rg', fe', rfl⟩, ks⟩ := k
  exact ⟨⟨rg', fe', rfl⟩, fun t ht => (ks t ht).trans (hs t ht)⟩

theorem Counts.crosses {s s' : State} (h : Counts s s') : Crosses s s' := by
  have hs := fun t (ht : t < numTiles) => h.tileState_eq ht
  obtain ⟨⟨rg, rfl⟩, _⟩ := h
  exact ⟨⟨rg, s.flitErr, rfl⟩, hs⟩

theorem Crosses.tileOf_eq {s s' : State} (h : Crosses s s') (u : Nat) : tileOf s' u = tileOf s u := by
  obtain ⟨⟨rg, fe, rfl⟩, _⟩ := h
  rfl

theorem tileState_rset (r : Reg) (v : Word) (s : State) (t : Nat) (h : (reg .TILE_STATE t).off ≠ r.off) : tileState (rset r v s) t = tileState s t :=
  rbits_rset_other r _ v s 2 0 h

/-- A flit in error that reaches a tile's router: one bit is corrected and counted, a worse error poisons the flit and shows in the tile's register. -/
theorem flitIn_tile {p : Pos} {t : Nat} {s : State} (b : Bool) (hp : tileAt s p = some t) (h0 : SMap.get 0 s.flitErr (posKey p.1 p.2) ≠ 0) :
    flitIn p (b, s) = if SMap.get 0 s.flitErr (posKey p.1 p.2) = 1
      then (b, rcount (reg .TILE_MESH_CE t) 48 1 { s with flitErr := SMap.put 0 s.flitErr (posKey p.1 p.2) 0 })
      else (true, rsetBit (reg .TILE_SRAM_ERR t) 8 true { s with flitErr := SMap.put 0 s.flitErr (posKey p.1 p.2) 0 }) := by
  have hp' : tileAt { s with flitErr := SMap.put 0 s.flitErr (posKey p.1 p.2) 0 } p = some t := hp
  unfold flitIn
  simp only [if_neg h0, hp']

/-- A flit in error that reaches a router without a tile. -/
theorem flitIn_spare {p : Pos} {s : State} (b : Bool) (hp : tileAt s p = none) (h0 : SMap.get 0 s.flitErr (posKey p.1 p.2) ≠ 0) :
    flitIn p (b, s) = (b || SMap.get 0 s.flitErr (posKey p.1 p.2) != 1, { s with flitErr := SMap.put 0 s.flitErr (posKey p.1 p.2) 0 }) := by
  have hp' : tileAt { s with flitErr := SMap.put 0 s.flitErr (posKey p.1 p.2) 0 } p = none := hp
  unfold flitIn
  simp only [if_neg h0, hp']

theorem crosses_flitIn (p : Pos) (r : Bool × State) : Crosses r.2 (flitIn p r).2 := by
  obtain ⟨b, s⟩ := r
  by_cases h0 : SMap.get 0 s.flitErr (posKey p.1 p.2) = 0
  · unfold flitIn
    rw [if_pos h0]
    exact Crosses.refl s
  · cases hp : tileAt s p with
    | none =>
      rw [flitIn_spare b hp h0]
      exact ⟨⟨_, _, rfl⟩, fun _ _ => rfl⟩
    | some t =>
      rw [flitIn_tile b hp h0]
      split
      · exact ⟨⟨_, _, rfl⟩, fun u _ => (tileState_rset _ _ _ u (by rw [off_tileState, off_meshCe]; omega)).trans rfl⟩
      · exact ⟨⟨_, _, rfl⟩, fun u _ => (tileState_rset _ _ _ u (by rw [off_tileState, off_sramErr]; omega)).trans rfl⟩

theorem crosses_flits (w : List Pos) (r : Bool × State) : Crosses r.2 (w.foldl (fun r p => flitIn p r) r).2 := by
  induction w generalizing r with
  | nil => exact Crosses.refl _
  | cons p w ih => exact (crosses_flitIn p r).trans (ih _)

theorem crosses_meshSend (w : List Pos) (inj ej : Bool) (n : Nat) (s : State) : Crosses s (meshSend w inj ej n s).2 := by
  obtain ⟨s', hc, e | e⟩ := counts_mesh w inj ej n s
  · rw [e]
    exact Crosses.refl s
  · rw [e]
    exact hc.crosses.trans (crosses_flits w (false, s'))

theorem crosses_reqTrip (q : Req) (addr t n m : Nat) (s : State) : Crosses s (reqTrip q addr t n m s).2 := by
  unfold reqTrip
  split
  · exact (crosses_meshSend ..).trans (crosses_meshSend ..)
  · exact Crosses.refl s

end Sys2Proof.Machine
end

section
/-! SUPPORT. Words of a tile's stores in error (R24, R26), and the bytes that a window write stores (R42). -/

namespace Sys2Proof.Machine
open Sys2Proof

/-! ### Records beside tile registers (R410, R411) -/

/-- An event leaves the registers of the tile blocks. -/
theorem rget_event_block (code die src : Nat) (a b : Word) (s : State) {q : Reg} (h : 0x1000000 ≤ q.off) : rget (event code die src a b s) q = rget s q := by
  have hh : (reg .ERR_HEAD).off < 0x1000000 ∧ (reg .ERR_COUNT).off < 0x1000000 ∧ (reg .ERR_PORT_LOST).off < 0x1000000 := by decide
  obtain ⟨h1, h2, h3⟩ := hh
  exact rget_event_other code die src a b s q (by omega) (by omega) (by omega) (off_ne_cplOvf q (by omega))

theorem tileState_event (code die src : Nat) (a b : Word) (s : State) (t : Nat) : tileState (event code die src a b s) t = tileState s t := by
  unfold tileState rbits
  rw [rget_event_block _ _ _ _ _ _ (by rw [off_tileState]; omega)]

/-- The registers that a record reads: the time, the head of the ring and its count. -/
def SameRecordRegs (s s' : State) : Prop :=
  rget s' (reg .EPOCH_NOW) = rget s (reg .EPOCH_NOW) ∧ rget s' (reg .ERR_HEAD) = rget s (reg .ERR_HEAD) ∧ rget s' (reg .ERR_COUNT) = rget s (reg .ERR_COUNT)

/-- Words 0 to 3 of a record depend on the state by the time alone (R410). -/
theorem recordWords_congr {s s' : State} (h : rget s' (reg .EPOCH_NOW) = rget s (reg .EPOCH_NOW)) (code die src : Nat) (a b : Word) :
    recordWords s' code die src a b = recordWords s code die src a b := by
  unfold recordWords coxEpoch epochCopy epoch
  rw [h]

/-- A record made after other parts have moved is the record of the state before them. -/
theorem recorded_of_sameRegs {s s1 s' : State} {code die src : Nat} {a b : Word} (h : SameRecordRegs s s1) (hr : Claim.recorded code die src a b s1 s') :
    Claim.recorded code die src a b s s' := by
  obtain ⟨hnow, hhead, hcount⟩ := h
  unfold Claim.recorded rbits at *
  rwa [recordWords_congr hnow, hhead, hcount] at hr

theorem Counts.sameRecordRegs {s s' : State} (h : Counts s s') : SameRecordRegs s s' :=
  ⟨h.rget_eq (by decide +kernel), h.rget_eq (by decide +kernel), h.rget_eq (by decide +kernel)⟩

/-! ### A word found in error (R24) -/

/-- What finding an uncorrectable word does before its record: the count, the address, the store's bit and the word's mark. -/
def markWord (t o : Nat) (s : State) : State :=
  modTile t (fun x => { x with poison := SMap.put false x.poison (o / 8) true })
    (rset (reg .TILE_SRAM_UE_ADDR t) (w64 (o / 8 * 8)) (rsetBit (reg .TILE_SRAM_ERR t) (storeOf o) true (rcount (reg .TILE_SRAM_UE t) 48 1 s)))

theorem wordErr_corrected (t o : Nat) (s : State) : wordErr t o 1 s = rcount (reg .TILE_SRAM_CE t) 48 1 s := rfl

theorem wordErr_uncorrectable (t o : Nat) {k : Nat} (s : State) (h : k ≠ 1) :
    wordErr t o k s = event 0x0501 (dieOfTile t) t (w64 (o / 8 * 8 + storeOf o * 2 ^ 32)) 0#64 (markWord t o s) := by
  unfold wordErr
  rw [if_neg h]
  rfl

theorem rget_markWord_other (t o : Nat) (s : State) (q : Reg) (h1 : q.off ≠ (reg .TILE_SRAM_UE t).off) (h2 : q.off ≠ (reg .TILE_SRAM_ERR t).off)
    (h3 : q.off ≠ (reg .TILE_SRAM_UE_ADDR t).off) : rget (markWord t o s) q = rget s q := by
  unfold markWord
  rw [rget_modTile, rget_rset_other _ _ _ _ h3, rget_rsetBit_other _ _ _ _ _ h2, rget_rcount_other _ _ _ _ _ h1]

theorem tileOf_markWord_same (t o : Nat) (s : State) :
    tileOf (markWord t o s) t = { tileOf s t with poison := SMap.put false (tileOf s t).poison (o / 8) true } := tileOf_modTile_same ..

theorem tileOf_markWord_other {t u : Nat} (o : Nat) (s : State) (h : u ≠ t) : tileOf (markWord t o s) u = tileOf s u := tileOf_modTile_other _ _ _ _ h

/-- The last 8-byte word below an offset lies in the offset's store (R18). -/
theorem storeOf_word (o : Nat) : storeOf (o / 8 * 8) = storeOf o := by
  unfold storeOf
  repeat' split
  all_goals omega

/-! ### What meeting words in error may change -/

/-- Readers of tile t have met words in error: registers, records, and the marks of the tile's words; the states of the tiles stay. -/
def Meets (t : Nat) (s s' : State) : Prop :=
  (∃ rg ti rc q, s' = { s with regs := rg, tiles := ti, rec_ := rc, cox := { s.cox with async := q } }) ∧ (∀ u, u ≠ t → tileOf s' u = tileOf s u) ∧
  (∃ pz sf, tileOf s' t = { tileOf s t with poison := pz, soft := sf }) ∧ ∀ u, tileState s' u = tileState s u

theorem Meets.refl (t : Nat) (s : State) : Meets t s s :=
  ⟨⟨s.regs, s.tiles, s.rec_, s.cox.async, rfl⟩, fun _ _ => rfl, ⟨(tileOf s t).poison, (tileOf s t).soft, rfl⟩, fun _ => rfl⟩

theorem Meets.trans {t : Nat} {a b c : State} (h : Meets t a b) (k : Meets t b c) : Meets t a c := by
  obtain ⟨⟨rg, ti, rc, q, hb⟩, ho, ⟨pz, sf, ht⟩, hs⟩ := h
  obtain ⟨⟨rg', ti', rc', q', hc⟩, ko, ⟨pz', sf', kt⟩, ks⟩ := k
  refine ⟨⟨rg', ti', rc', q', by rw [hc, hb]⟩, fun u hu => (ko u hu).trans (ho u hu), ⟨pz', sf', by rw [kt, ht]⟩, fun u => (ks u).trans (hs u)⟩

theorem Meets.foldl {β : Type} {t : Nat} {f : State → β → State} (h : ∀ s b, Meets t s (f s b)) (bs : List β) (s : State) : Meets t s (bs.foldl f s) := by
  induction bs generalizing s with
  | nil => exact Meets.refl t s
  | cons b bs ih => exact (h s b).trans (ih _)

theorem meets_modTile {t : Nat} {f : Tile → Tile} (hf : ∀ x, ∃ pz sf, f x = { x with poison := pz, soft := sf }) (s : State) : Meets t s (modTile t f s) := by
  refine ⟨⟨s.regs, _, s.rec_, s.cox.async, rfl⟩, fun u hu => tileOf_modTile_other t u f s hu, ?_, fun u => rfl⟩
  rw [tileOf_modTile_same]
  exact hf _

theorem meets_rset {t : Nat} (r : Reg) (v : Word) (s : State) (h : ∀ u, (reg .TILE_STATE u).off ≠ r.off) : Meets t s (rset r v s) :=
  ⟨⟨_, s.tiles, s.rec_, s.cox.async, rfl⟩, fun _ _ => rfl, ⟨(tileOf s t).poison, (tileOf s t).soft, rfl⟩, fun u => tileState_rset r v s u (h u)⟩

theorem meets_event {t : Nat} (code die src : Nat) (a b : Word) (s : State) : Meets t s (event code die src a b s) := by
  refine ⟨?_, fun u _ => tileOf_event ..,  ⟨(tileOf s t).poison, (tileOf s t).soft, tileOf_event ..⟩, fun u => tileState_event ..⟩
  obtain ⟨rg, rc, q, e⟩ := event_eq code die src a b s
  exact ⟨rg, s.tiles, rc, q, e⟩

theorem meets_wordErr (t o k : Nat) (s : State) : Meets t s (wordErr t o k s) := by
  by_cases h : k = 1
  · subst h
    exact meets_rset _ _ s (fun u => by rw [off_tileState, off_sramCe]; omega)
  · rw [wordErr_uncorrectable t o s h]
    have hmark : Meets t s (markWord t o s) := by
      unfold markWord
      refine (meets_rset (reg .TILE_SRAM_UE t) _ s (fun u => ?_)).trans ((meets_rset (reg .TILE_SRAM_ERR t) _ _ (fun u => ?_)).trans
        ((meets_rset (reg .TILE_SRAM_UE_ADDR t) _ _ (fun u => ?_)).trans (meets_modTile (fun x => ⟨_, x.soft, rfl⟩) _)))
      · rw [off_tileState, off_sramUe]; omega
      · rw [off_tileState, off_sramErr]; omega
      · rw [off_tileState, off_sramUeAddr]; omega
    exact hmark.trans (meets_event ..)

/-- The words of a range that a reader meets in error. -/
def hitRange (o n : Nat) (e : Nat × Nat) : Bool := decide (o ≤ e.1 * 8 + 7) && decide (e.1 * 8 < o + n)

theorem meetWords_eq (t o n : Nat) (s : State) : meetWords t o n s =
    if ((tileOf s t).soft.filter (hitRange o n)).isEmpty then s
    else ((tileOf s t).soft.filter (hitRange o n)).foldl (fun s e => wordErr t (e.1 * 8) e.2 s) (modTile t (fun x => { x with soft := x.soft.filter (fun e => !hitRange o n e) }) s) := rfl

theorem meetWords_clean {t : Nat} (o n : Nat) {s : State} (h : (tileOf s t).soft = []) : meetWords t o n s = s := by
  rw [meetWords_eq, h]
  rfl

theorem meets_meetWords (t o n : Nat) (s : State) : Meets t s (meetWords t o n s) := by
  rw [meetWords_eq]
  split
  · exact Meets.refl t s
  · exact (meets_modTile (fun x => ⟨x.poison, _, rfl⟩) s).trans (Meets.foldl (fun s (e : Nat × Nat) => meets_wordErr t (e.1 * 8) e.2 s) _ _)

theorem meetEnds_clean {t : Nat} (o n : Nat) {s : State} (h : (tileOf s t).soft = []) : meetEnds t o n s = s := by
  simp only [meetEnds, meetWords_clean _ 1 h, ite_self]

theorem meets_meetEnds (t o n : Nat) (s : State) : Meets t s (meetEnds t o n s) := by
  unfold meetEnds
  extract_lets s1
  have h1 : Meets t s s1 := by
    unfold s1
    split
    · exact Meets.refl t s
    · exact meets_meetWords ..
  split
  · exact h1
  · exact h1.trans (meets_meetWords ..)

/-! ### Marks that stay (R24, R25) -/

/-- The word of offset o is marked, and its store shows an error. -/
def Marked (t o : Nat) (s : State) : Prop := SMap.get false (tileOf s t).poison (o / 8) = true ∧ bit (rget s (reg .TILE_SRAM_ERR t)) (storeOf o) = true

theorem storeOf_lt (o : Nat) : storeOf o < 64 := by
  unfold storeOf
  repeat' split
  all_goals omega

theorem marked_event {t o : Nat} {s : State} (code die src : Nat) (a b : Word) (h : Marked t o s) : Marked t o (event code die src a b s) := by
  unfold Marked
  rw [tileOf_event, rget_event_block _ _ _ _ _ _ (by rw [off_sramErr]; omega)]
  exact h

/-- The store's bit after a word of the tile is marked: its own, and those set before. -/
theorem bit_sramErr_markWord (t o i : Nat) (s : State) (hi : i < 64) :
    bit (rget (markWord t o s) (reg .TILE_SRAM_ERR t)) i = (i == storeOf o || bit (rget s (reg .TILE_SRAM_ERR t)) i) := by
  unfold markWord
  rw [rget_modTile, rget_rset_other _ _ _ _ (by rw [off_sramErr, off_sramUeAddr]; omega), rget_rsetBit_same,
    rget_rcount_other _ _ _ _ _ (by rw [off_sramErr, off_sramUe]; omega)]
  by_cases h : i = storeOf o
  · subst h
    rw [bit_setBit_same _ _ _ hi]
    simp
  · rw [bit_setBit_other _ _ _ _ h]
    simp [h]

theorem marked_wordErr {t o k : Nat} {s : State} (h : k ≠ 1) : Marked t o (wordErr t o k s) := by
  rw [wordErr_uncorrectable t o s h]
  refine marked_event _ _ _ _ _ ⟨?_, ?_⟩
  · rw [tileOf_markWord_same, SMap.get_put_same]
  · rw [bit_sramErr_markWord t o _ s (storeOf_lt o)]
    simp

theorem Marked.wordErr {t o : Nat} {s : State} (h : Marked t o s) (o' k : Nat) : Marked t o (wordErr t o' k s) := by
  obtain ⟨hp, hb⟩ := h
  by_cases hk : k = 1
  · subst hk
    refine ⟨hp, ?_⟩
    rw [wordErr_corrected, rget_rcount_other _ _ _ _ _ (by rw [off_sramErr, off_sramCe]; omega)]
    exact hb
  · rw [wordErr_uncorrectable t o' s hk]
    refine marked_event _ _ _ _ _ ⟨?_, ?_⟩
    · rw [tileOf_markWord_same, SMap.get_put]
      split
      · rfl
      · exact hp
    · rw [bit_sramErr_markWord t o' _ s (storeOf_lt o), hb, Bool.or_true]

theorem marked_word {t o : Nat} {s : State} (h : Marked t (o / 8 * 8) s) : Marked t o s := by
  unfold Marked at *
  rwa [storeOf_word, show o / 8 * 8 / 8 = o / 8 by omega] at h

/-- A reader of an uncorrectable word finds it: the word is marked and its store shows the error. -/
theorem marked_meetWords {t o k a n : Nat} {s : State} (hk : k ≠ 1) (he : (o / 8, k) ∈ (tileOf s t).soft) (ha : a ≤ o) (hn : o < a + n) :
    Marked t o (meetWords t a n s) := by
  have hmem : (o / 8, k) ∈ (tileOf s t).soft.filter (hitRange a n) := List.mem_filter.mpr ⟨he, by simp [hitRange]; omega⟩
  have hstay : ∀ (es : List (Nat × Nat)) (s : State), Marked t o s → Marked t o (es.foldl (fun s e => wordErr t (e.1 * 8) e.2 s) s) := by
    intro es
    induction es with
    | nil => exact fun _ h => h
    | cons e es ih => exact fun s h => ih _ (h.wordErr _ _)
  rw [meetWords_eq, if_neg (by simpa using List.ne_nil_of_mem hmem)]
  obtain ⟨l, r, hl⟩ := List.append_of_mem hmem
  rw [hl, List.foldl_append, List.foldl_cons]
  exact hstay r _ (marked_word (marked_wordErr hk))

/-! ### The bytes of a tile's window (R42) -/

theorem nth_rawBytes (d : PBytes) (i : Nat) : nth 0#8 (rawBytes d) i = (nth (0#8, false) d i).1 := by
  rw [nth_eq_getD, nth_eq_getD]
  exact List.getD_map d (0#8, false) Prod.fst

theorem length_rawBytes (d : PBytes) : (rawBytes d).length = d.length := List.length_map ..

theorem byte_low (x : Tile) {o : Nat} (h : o < 0xF6000) : x.byte o = SMap.get 0#8 x.mem o := by
  unfold Tile.byte
  rw [if_pos h]

/-- A store leaves every byte outside its range, the deque store's among them. -/
theorem byte_write_other (x : Tile) (o : Nat) (d : PBytes) (b : Nat) (h : b < o ∨ o + d.length ≤ b) : (x.write o d).byte b = x.byte b := by
  have hdq : (x.write o d).dqMem = x.dqMem := by rw [tileWrite_eq]
  unfold Tile.byte
  rw [tileWrite_other x o d b h, hdq]

/-- A byte stored below the deque store reads as stored. -/
theorem byte_write_same (x : Tile) (o : Nat) (d : PBytes) (i : Nat) (h : i < d.length) (ho : o + i < 0xF6000) :
    (x.write o d).byte (o + i) = nth 0#8 (rawBytes d) i := by
  rw [byte_low _ ho, tileWrite_same x o d i h]
  exact (nth_rawBytes d i).symm

theorem soft_write_clean (x : Tile) (o : Nat) (d : PBytes) (h : x.soft = []) : (x.write o d).soft = [] := by
  have hr : ∀ y : Tile, (y.reevaluate o d.length).soft = y.soft := by
    intro y
    unfold Tile.reevaluate
    split <;> rfl
  unfold Tile.write
  rw [hr, h]
  rfl

/-! ### What a window write stores (R42, R43) -/

/-- A write of a range of tile t's window has stored its data: what a step between two states of it may change, and what not. -/
structure Stores (t off : Nat) (data : List Byte) (s s' : State) : Prop where
  frame : ∃ rg ti w rc q, s' = { s with regs := rg, tiles := ti, watch := w, rec_ := rc, cox := { s.cox with async := q } }
  others : ∀ u, u ≠ t → tileOf s' u = tileOf s u
  tile : ∃ m pz sf sm, tileOf s' t = { tileOf s t with mem := m, poison := pz, soft := sf, summary := sm }
  states : ∀ u, u < numTiles → tileState s' u = tileState s u
  stored : ∀ i, i < data.length → (tileOf s' t).byte (off + i) = nth 0#8 data i
  kept : ∀ b, b < off ∨ off + data.length ≤ b → (tileOf s' t).byte b = (tileOf s t).byte b
  clean : (tileOf s t).soft = [] → (tileOf s' t).soft = [] ∧ s'.rec_ = s.rec_ ∧ s'.cox.async = s.cox.async ∧ Claim.counted [] s s'

theorem Stores.windowStored {t off : Nat} {data : List Byte} {s s' : State} (h : Stores t off data s s') : Claim.windowStored t off data s s' := by
  obtain ⟨hframe, hothers, ⟨m, pz, sf, sm, htile⟩, -, hstored, hkept, hclean⟩ := h
  refine ⟨hstored, hkept, by rw [htile], ?_, hothers, fun hs => (hclean hs).2⟩
  obtain ⟨rg, ti, w, rc, q, e⟩ := hframe
  rw [e]

theorem Stores.flitErr_eq {t off : Nat} {data : List Byte} {s s' : State} (h : Stores t off data s s') : s'.flitErr = s.flitErr := by
  obtain ⟨rg, ti, w, rc, q, e⟩ := h.frame
  rw [e]

/-- The window rules of the tile stay as they were: they depend on its groups and drains (R42). -/
theorem Stores.winWritable_eq {t off : Nat} {data : List Byte} {s s' : State} (h : Stores t off data s s') (o : Nat) :
    winWritable (tileOf s' t) o = winWritable (tileOf s t) o := by
  obtain ⟨m, pz, sf, sm, e⟩ := h.tile
  rw [e]
  rfl

theorem Stores.nil (t off : Nat) (s : State) : Stores t off [] s s where
  frame := ⟨s.regs, s.tiles, s.watch, s.rec_, s.cox.async, rfl⟩
  others := fun _ _ => rfl
  tile := ⟨_, _, _, _, rfl⟩
  states := fun _ _ => rfl
  stored := fun i hi => absurd hi (Nat.not_lt_zero i)
  kept := fun _ _ => rfl
  clean := fun h => ⟨h, rfl, rfl, fun _ _ _ => rfl⟩

/-- Two packets one behind the other store their data one behind the other. -/
theorem Stores.append {t off : Nat} {d e : List Byte} {a b c : State} (h : Stores t off d a b) (k : Stores t (off + d.length) e b c) :
    Stores t off (d ++ e) a c where
  frame := by
    obtain ⟨rg, ti, w, rc, q, hb⟩ := h.frame
    obtain ⟨rg', ti', w', rc', q', hc⟩ := k.frame
    exact ⟨rg', ti', w', rc', q', by rw [hc, hb]⟩
  others := fun u hu => (k.others u hu).trans (h.others u hu)
  tile := by
    obtain ⟨m, pz, sf, sm, hb⟩ := h.tile
    obtain ⟨m', pz', sf', sm', hc⟩ := k.tile
    exact ⟨m', pz', sf', sm', by rw [hc, hb]⟩
  states := fun u hu => (k.states u hu).trans (h.states u hu)
  stored := by
    intro i hi
    rw [List.length_append] at hi
    by_cases hd : i < d.length
    · rw [k.kept _ (by omega), h.stored i hd, nth_eq_getD, nth_eq_getD, List.getD_append _ _ _ _ hd]
    · have hk := k.stored (i - d.length) (by omega)
      rw [show off + d.length + (i - d.length) = off + i by omega] at hk
      rw [hk, ← Laws.nth_append d e, show d.length + (i - d.length) = i by omega]
  kept := by
    intro x hx
    rw [List.length_append] at hx
    rw [k.kept x (by omega), h.kept x (by omega)]
  clean := by
    intro hs
    obtain ⟨hsoft, hrec, hasync, hcount⟩ := h.clean hs
    obtain ⟨ksoft, krec, kasync, kcount⟩ := k.clean hsoft
    exact ⟨ksoft, krec.trans hrec, kasync.trans hasync, fun r hc ho => (kcount r hc ho).trans (hcount r hc ho)⟩

theorem Counts.stores {t off : Nat} {s s' : State} (h : Counts s s') : Stores t off [] s s' := by
  have hs := fun u (hu : u < numTiles) => h.tileState_eq hu
  obtain ⟨⟨rg, rfl⟩, hr⟩ := h
  exact { Stores.nil t off s with
    frame := ⟨rg, s.tiles, s.watch, s.rec_, s.cox.async, rfl⟩
    states := hs
    clean := fun h => ⟨h, rfl, rfl, hr⟩ }

/-- Start words seen met are noted, and nothing else (R252). -/
theorem noteStarts_eq (hit : Nat → Bool) (s : State) : ∃ w, noteStarts hit s = { s with watch := w } := by
  unfold noteStarts
  extract_lets new seen now
  split
  · exact ⟨s.watch, rfl⟩
  · exact ⟨_, rfl⟩

/-- Words met at the ends of a range, its bytes written, the start words there noted: the range holds the data (R24, R252). -/
theorem winPoke_stores (t off : Nat) (d : PBytes) (s : State) (hlow : ∀ i, i < d.length → off + i < 0xF6000) : Stores t off (rawBytes d) s (winPoke t off d s) := by
  obtain ⟨⟨rg, ti, rc, q, hm⟩, hothers, ⟨pz, sf, htile⟩, hstates⟩ := meets_meetEnds t off d.length s
  obtain ⟨w, hw⟩ := noteStarts_eq (fun a => decide (winBase ≤ a) && (a - winBase) / 0x100000 == t && decide (off < (a - winBase) % 0x100000 + 8) &&
    decide ((a - winBase) % 0x100000 < off + d.length)) (modTile t (fun x => x.write off d) (meetEnds t off d.length s))
  have hpoke : winPoke t off d s = { modTile t (fun x => x.write off d) (meetEnds t off d.length s) with watch := w } := hw
  have htiles : ∀ u, tileOf (winPoke t off d s) u = tileOf (modTile t (fun x => x.write off d) (meetEnds t off d.length s)) u := fun u => by rw [hpoke]; rfl
  have hsame : tileOf (winPoke t off d s) t = (tileOf (meetEnds t off d.length s) t).write off d := (htiles t).trans (tileOf_modTile_same ..)
  have hbyte : ∀ b, (tileOf (meetEnds t off d.length s) t).byte b = (tileOf s t).byte b := by
    intro b
    rw [htile]
    rfl
  constructor
  case frame => exact ⟨rg, _, w, rc, q, by rw [hpoke, modTile, setTile, hm]⟩
  case others =>
    intro u hu
    rw [htiles u, tileOf_modTile_other _ _ _ _ hu, hothers u hu]
  case tile => exact ⟨_, _, _, _, by rw [hsame, tileWrite_eq, htile]⟩
  case states =>
    intro u _
    rw [hpoke]
    exact hstates u
  case stored =>
    intro i hi
    rw [length_rawBytes] at hi
    rw [hsame, byte_write_same _ off d i hi (hlow i hi)]
  case kept =>
    intro b hb
    rw [length_rawBytes] at hb
    rw [hsame, byte_write_other _ off d b hb, hbyte]
  case clean =>
    intro hs
    have hmeet := meetEnds_clean off d.length hs
    rw [hmeet] at hsame hpoke
    refine ⟨by rw [hsame]; exact soft_write_clean _ off d hs, by rw [hpoke]; rfl, by rw [hpoke]; rfl, fun r _ _ => by rw [hpoke]; rfl⟩

theorem mem_wordsOf {o n w : Nat} : w ∈ wordsOf o n ↔ 0 < n ∧ w % 8 = 0 ∧ o / 8 * 8 ≤ w ∧ w < o + n := by
  unfold wordsOf
  split
  · simp; omega
  · rw [List.mem_map]
    constructor
    · rintro ⟨i, hi, rfl⟩
      have := List.mem_range.mp hi
      omega
    · rintro ⟨h0, h8, hlo, hhi⟩
      exact ⟨w / 8 - o / 8, List.mem_range.mpr (by omega), by omega⟩

/-- Every byte of a range that the window's rules allow lies below the deque store and the shadow store (R42). -/
theorem lt_of_winWritable {x : Tile} {off n i : Nat} (hw : (wordsOf off n).all (fun w => winWritable x (max w off)) = true) (hi : i < n) :
    off + i < 0xF4000 := by
  have hmem : (off + i) / 8 * 8 ∈ wordsOf off n := mem_wordsOf.mpr (by omega)
  have hadm : winWritable x (max ((off + i) / 8 * 8) off) = true := List.all_eq_true.mp hw _ hmem
  by_contra hge
  have hstore : storeOf (max ((off + i) / 8 * 8) off) = 4 ∨ storeOf (max ((off + i) / 8 * 8) off) = 5 := by
    have : 0xF4000 ≤ max ((off + i) / 8 * 8) off := by omega
    unfold storeOf
    split_ifs <;> omega
  unfold winWritable at hadm
  rcases hstore with h | h <;> rw [h] at hadm <;> cases hadm

end Sys2Proof.Machine
end

section
/-! SUPPORT. Accesses through tile windows, packet by packet (R13, R24, R31, R42 to R44). -/

namespace Sys2Proof.Machine
open Sys2Proof

/-! ### One packet of a write (R42, R43) -/

theorem rawBytes_markBytes (ep : Bool) (bs : List Byte) : rawBytes (markBytes ep bs) = bs := by simp [rawBytes, markBytes, Function.comp_def]

theorem length_markBytes (ep : Bool) (bs : List Byte) : (markBytes ep bs).length = bs.length := List.length_map ..

/-- An error on the way marks the data and leaves the bytes (R33). -/
theorem rawBytes_poisonFlit (hit : Bool) (d : PBytes) : rawBytes (poisonFlit hit d) = rawBytes d := by
  unfold poisonFlit
  split
  · have hfirst : ((d.take 64).map (fun b => (b.1, true))).map Prod.fst = (d.take 64).map Prod.fst := by simp [Function.comp_def]
    rw [rawBytes, List.map_append, hfirst, ← List.map_append, List.take_append_drop]
    rfl
  · rfl

/-- The window of tile t has the range, and the tile is there. -/
def Mapped (s : State) (t top : Nat) : Prop := t < numTiles ∧ tileState s t ≠ 4 ∧ top ≤ winTop

theorem winWrite_unmapped (q : Req) {t off : Nat} {d : PBytes} {s : State} (h : ¬ Mapped s t (off + d.length)) :
    winWrite q t off d s = (false, recUnmapped q (winBase + t * 0x100000 + off) true s) := by
  unfold winWrite
  rw [if_pos (by simp [Mapped] at h ⊢; omega)]

theorem winWrite_stored (q : Req) {t off : Nat} {d : PBytes} {s : State} (h : Mapped s t (off + d.length))
    (hw : (wordsOf off d.length).all (fun w => winWritable (tileOf s t) (max w off)) = true) :
    winWrite q t off d s = (true, winPoke t off (poisonFlit (reqTrip q (winBase + t * 0x100000 + off) t d.length 0 s).1 d)
      (reqTrip q (winBase + t * 0x100000 + off) t d.length 0 s).2) := by
  unfold winWrite
  rw [if_neg (by simp [Mapped] at h ⊢; omega)]
  simp only [hw, if_true]

theorem winWrite_discarded (q : Req) {t off : Nat} {d : PBytes} {s : State} (h : Mapped s t (off + d.length))
    (hw : (wordsOf off d.length).all (fun w => winWritable (tileOf s t) (max w off)) = false) :
    winWrite q t off d s = (false, recDiscarded q (winBase + t * 0x100000 + off) t (reqTrip q (winBase + t * 0x100000 + off) t d.length 0 s).2) := by
  unfold winWrite
  rw [if_neg (by simp [Mapped] at h ⊢; omega)]
  simp only [hw]
  rfl

/-- A write that the window allows crosses the mesh and stores its bytes, whatever its flits meet. -/
theorem winWrite_stores (q : Req) {t off : Nat} (data : List Byte) (ep : Bool) {s : State} (h : Mapped s t (off + data.length))
    (hw : (wordsOf off data.length).all (fun w => winWritable (tileOf s t) (max w off)) = true) :
    Stores t off data (reqTrip q (winBase + t * 0x100000 + off) t data.length 0 s).2 (winWrite q t off (markBytes ep data) s).2 := by
  have hlen := length_markBytes ep data
  rw [winWrite_stored q (by rwa [hlen]) (by rwa [hlen]), hlen]
  generalize reqTrip q (winBase + t * 0x100000 + off) t data.length 0 s = r
  have hraw : rawBytes (poisonFlit r.1 (markBytes ep data)) = data := by rw [rawBytes_poisonFlit, rawBytes_markBytes]
  have hst := winPoke_stores t off (poisonFlit r.1 (markBytes ep data)) r.2 (fun i hi => by
    rw [← length_rawBytes, hraw] at hi
    have := lt_of_winWritable hw hi
    omega)
  rwa [hraw] at hst

/-- Where no flit is in error, only the counters of the routers move besides. -/
theorem winWrite_stores_clean (q : Req) {t off : Nat} (data : List Byte) (ep : Bool) {s : State} (h : Mapped s t (off + data.length)) (hf : s.flitErr = [])
    (hw : (wordsOf off data.length).all (fun w => winWritable (tileOf s t) (max w off)) = true) : Stores t off data s (winWrite q t off (markBytes ep data) s).2 :=
  (reqTrip_clean q _ t _ 0 hf).2.stores.append (winWrite_stores q data ep h hw)

/-- One packet of a window write. -/
def writePacket (q : Req) (t off : Nat) (data : List Byte) (ep : Bool) (s : State) : State :=
  if off < 0x100000 then packetWrite q t off data ep s else (winWrite q t off (markBytes ep data) s).2

/-- A packet to a tile in MAP_HOLD waits (R31). -/
theorem writePacket_held (q : Req) {t off : Nat} (data : List Byte) (ep : Bool) {s : State} (ht : t < numTiles) (h2 : tileState s t = 2) (ho : off < 0x100000) :
    writePacket q t off data ep s = holdAccess t { req := q, off := off, len := data.length, write := true, data := data, ep := ep } s := by
  unfold writePacket packetWrite
  rw [if_pos ho, if_pos (by simp [ht, h2])]

theorem writePacket_through (q : Req) {t : Nat} (off : Nat) (data : List Byte) (ep : Bool) {s : State} (h : t < numTiles → tileState s t ≠ 2) :
    writePacket q t off data ep s = (winWrite q t off (markBytes ep data) s).2 := by
  unfold writePacket packetWrite
  split
  · rw [if_neg (by simpa using h)]
  · rfl

/-! ### The packets of an access in a row (R44) -/

/-- A window write, packet by packet. -/
def windowWrites (q : Req) (t off : Nat) (data : List Byte) (ep : Bool) (s : State) : State :=
  (windowPackets q off data.length).foldl (fun s p => writePacket q t p.1 ((data.drop (p.1 - off)).take p.2) ep s) s

theorem execWindowWrite_eq (q : Req) (t off : Nat) (data : List Byte) (ep : Bool) (s : State) :
    exec (.windowWrite q t off data ep) s = .next (windowWrites q t off data ep s) := rfl

theorem windowPackets_one (q : Req) {off n : Nat} (h : q ≠ .host ∨ Claim.onePacket off n) : windowPackets q off n = [(off, n)] := by
  unfold windowPackets
  split
  · next hq =>
    obtain ⟨h0, h64⟩ := h.resolve_left (not_not_intro hq)
    exact alignedPieces_one off n h0 h64
  · rfl

theorem windowPackets_split {off n : Nat} (h : 64 < off % 64 + n) :
    windowPackets .host off n = (off, 64 - off % 64) :: windowPackets .host (off + (64 - off % 64)) (n - (64 - off % 64)) := alignedPieces_split off n h

/-- The packets of a range lie behind its start. -/
theorem le_of_mem_windowPackets {q : Req} {off n : Nat} {p : Nat × Nat} (h : p ∈ windowPackets q off n) : off ≤ p.1 := by
  have key : ∀ f off n, p ∈ alignedPieces f off n → off ≤ p.1 := by
    intro f
    induction f with
    | zero => intro off n h; cases h
    | succ f ih =>
      intro off n h
      unfold alignedPieces at h
      split at h
      · cases h
      · rcases List.mem_cons.mp h with rfl | h
        · exact Nat.le_refl _
        · exact (Nat.le_add_right ..).trans (ih _ _ h)
  unfold windowPackets at h
  split at h
  · exact key _ _ _ h
  · rw [List.mem_singleton.mp h]

theorem windowWrites_one (q : Req) (t : Nat) {off : Nat} {data : List Byte} (ep : Bool) (s : State) (h : q ≠ .host ∨ Claim.onePacket off data.length) :
    windowWrites q t off data ep s = writePacket q t off data ep s := by
  unfold windowWrites
  rw [windowPackets_one q h, List.foldl_cons, List.foldl_nil, Nat.sub_self, List.drop_zero, List.take_length]

theorem windowWrites_split (t : Nat) {off : Nat} {data : List Byte} (ep : Bool) (s : State) (h : 64 < off % 64 + data.length) :
    windowWrites .host t off data ep s = windowWrites .host t (off + (64 - off % 64)) (data.drop (64 - off % 64)) ep
      (windowWrites .host t off (data.take (64 - off % 64)) ep s) := by
  have hlen : (data.take (64 - off % 64)).length = 64 - off % 64 := by rw [List.length_take]; omega
  have hfirst := windowWrites_one .host t ep s (off := off) (data := data.take (64 - off % 64)) (.inr ⟨by omega, by omega⟩)
  rw [hfirst]
  unfold windowWrites
  rw [windowPackets_split h, List.foldl_cons, List.length_drop, Nat.sub_self, List.drop_zero]
  refine List.foldl_ext _ _ _ (fun s' p hp => ?_)
  have hle := le_of_mem_windowPackets hp
  rw [List.drop_drop, show 64 - off % 64 + (p.1 - (off + (64 - off % 64))) = p.1 - off by omega]

/-! ### Writes of several packets -/

theorem windowOpen_mapped {s : State} {t top : Nat} (h : Claim.windowOpen s t) (htop : top ≤ winTop) : Mapped s t top := ⟨h.1, h.2.2, htop⟩

theorem windowWrites_stores_one (q : Req) {t : Nat} (ep : Bool) {off : Nat} {data : List Byte} {s : State} (hp : q ≠ .host ∨ Claim.onePacket off data.length)
    (hopen : Claim.windowOpen s t) (htop : off + data.length ≤ winTop) (hf : s.flitErr = [])
    (hw : (wordsOf off data.length).all (fun w => winWritable (tileOf s t) (max w off)) = true) : Stores t off data s (windowWrites q t off data ep s) := by
  rw [windowWrites_one q t ep s hp, writePacket_through q off data ep (fun _ => hopen.2.1)]
  exact winWrite_stores_clean q data ep (windowOpen_mapped hopen htop) hf hw

/-- A write that every word of its range allows stores its data, packet behind packet. -/
theorem windowWrites_stores (q : Req) {t : Nat} (ep : Bool) {off : Nat} {data : List Byte} {s : State} (hopen : Claim.windowOpen s t) (htop : off + data.length ≤ winTop)
    (hf : s.flitErr = []) (hw : (wordsOf off data.length).all (fun w => winWritable (tileOf s t) (max w off)) = true) :
    Stores t off data s (windowWrites q t off data ep s) := by
  induction hn : data.length using Nat.strong_induction_on generalizing off data s with
  | _ n ih =>
    by_cases hp : q ≠ .host ∨ Claim.onePacket off data.length
    · exact windowWrites_stores_one q ep hp hopen htop hf hw
    · obtain ⟨rfl, hlong⟩ : q = .host ∧ ¬ Claim.onePacket off data.length := by simpa using hp
      by_cases hz : data = []
      · subst hz
        exact Stores.nil t off s
      · have hpos : 0 < data.length := List.length_pos_iff.mpr hz
        have h64 : 64 < off % 64 + data.length := by
          by_contra hle
          exact hlong ⟨hpos, by omega⟩
        have hk : (data.take (64 - off % 64)).length = 64 - off % 64 := by rw [List.length_take]; omega
        have hd : (data.drop (64 - off % 64)).length = data.length - (64 - off % 64) := List.length_drop
        rw [List.all_eq_true] at hw
        have hfirst := windowWrites_stores_one .host (off := off) (data := data.take (64 - off % 64)) ep (.inr ⟨by omega, by omega⟩) hopen (by omega) hf (by
          rw [hk, List.all_eq_true]
          intro w hmem
          rw [mem_wordsOf] at hmem
          exact hw w (mem_wordsOf.mpr (by omega)))
        have hopen' : Claim.windowOpen (windowWrites .host t off (data.take (64 - off % 64)) ep s) t := by
          unfold Claim.windowOpen
          rw [hfirst.states t hopen.1]
          exact hopen
        have hrest := ih (data.drop (64 - off % 64)).length (by omega) (off := off + (64 - off % 64)) hopen' (by omega) (hfirst.flitErr_eq.trans hf) (by
          rw [hd, List.all_eq_true]
          intro w hmem
          rw [mem_wordsOf] at hmem
          have hadm := hw w (mem_wordsOf.mpr (by omega))
          rw [show max w off = max w (off + (64 - off % 64)) by omega] at hadm
          rwa [hfirst.winWritable_eq]) rfl
        rw [windowWrites_split t ep s h64]
        have hboth := hfirst.append (by rw [hk]; exact hrest)
        rwa [List.take_append_drop] at hboth

/-! ### One packet of a read (R24, R42) -/

theorem winRead_unmapped (q : Req) {t off n : Nat} {s : State} (h : ¬ Mapped s t (off + n)) :
    winRead q t off n s = (cleanBytes (List.replicate n 0#8), recUnmapped q (winBase + t * 0x100000 + off) false s) := by
  unfold winRead
  rw [if_pos (by simp [Mapped] at h ⊢; omega)]

theorem winRead_mapped (q : Req) {t off n : Nat} {s : State} (h : Mapped s t (off + n)) :
    winRead q t off n s = (poisonFlit (reqTrip q (winBase + t * 0x100000 + off) t 0 n s).1 ((tileOf (reqTrip q (winBase + t * 0x100000 + off) t 0 n s).2 t).read off n),
      meetWords t off n (reqTrip q (winBase + t * 0x100000 + off) t 0 n s).2) := by
  unfold winRead
  rw [if_neg (by simp [Mapped] at h ⊢; omega)]

/-- A read of words without error delivers them, and only counters move. -/
theorem winRead_clean (q : Req) {t off n : Nat} {s : State} (h : Mapped s t (off + n)) (hf : s.flitErr = []) (hs : (tileOf s t).soft = []) :
    (winRead q t off n s).1 = (tileOf s t).read off n ∧ Counts s (winRead q t off n s).2 := by
  obtain ⟨hclean, hcount⟩ := reqTrip_clean q (winBase + t * 0x100000 + off) t 0 n hf
  rw [winRead_mapped q h, hclean, hcount.tileOf_eq, meetWords_clean off n ((congrArg Tile.soft (hcount.tileOf_eq t)).trans hs)]
  exact ⟨rfl, hcount⟩

theorem packetReads_one (q : Req) (t : Nat) {off n : Nat} (s : State) (h : q ≠ .host ∨ Claim.onePacket off n) : packetReads q t off n s = winRead q t off n s := by
  unfold packetReads
  rw [windowPackets_one q h]
  rfl

/-- Reads in a row append what they deliver. -/
theorem foldl_winRead (q : Req) (t : Nat) (ps : List (Nat × Nat)) (d : PBytes) (s : State) :
    ps.foldl (fun r p => (r.1 ++ (winRead q t p.1 p.2 r.2).1, (winRead q t p.1 p.2 r.2).2)) (d, s) =
      (d ++ (ps.foldl (fun r p => (r.1 ++ (winRead q t p.1 p.2 r.2).1, (winRead q t p.1 p.2 r.2).2)) ([], s)).1,
        (ps.foldl (fun r p => (r.1 ++ (winRead q t p.1 p.2 r.2).1, (winRead q t p.1 p.2 r.2).2)) ([], s)).2) := by
  induction ps generalizing d s with
  | nil => simp
  | cons p ps ih =>
    rw [List.foldl_cons, List.foldl_cons, ih, ih ([] ++ _), List.nil_append, List.append_assoc]

theorem packetReads_split (t : Nat) {off n : Nat} (s : State) (h : 64 < off % 64 + n) :
    packetReads .host t off n s = ((winRead .host t off (64 - off % 64) s).1 ++
        (packetReads .host t (off + (64 - off % 64)) (n - (64 - off % 64)) (winRead .host t off (64 - off % 64) s).2).1,
      (packetReads .host t (off + (64 - off % 64)) (n - (64 - off % 64)) (winRead .host t off (64 - off % 64) s).2).2) := by
  unfold packetReads
  rw [windowPackets_split h, List.foldl_cons]
  exact foldl_winRead .host t _ _ _

theorem read_append (x : Tile) (off k m : Nat) : x.read off (k + m) = x.read off k ++ x.read (off + k) m := by
  simp [Tile.read, List.range_add, Function.comp_def, Nat.add_assoc]

theorem packetReads_clean (q : Req) (t : Nat) {off n : Nat} {s : State} (h : Mapped s t (off + n)) (hf : s.flitErr = []) (hs : (tileOf s t).soft = []) :
    (packetReads q t off n s).1 = (tileOf s t).read off n ∧ Counts s (packetReads q t off n s).2 := by
  induction hm : n using Nat.strong_induction_on generalizing off n s with
  | _ m ih =>
    subst hm
    obtain ⟨ht, h4, htop⟩ := h
    by_cases hp : q ≠ .host ∨ Claim.onePacket off n
    · rw [packetReads_one q t s hp]
      exact winRead_clean q ⟨ht, h4, htop⟩ hf hs
    · obtain ⟨rfl, hlong⟩ : q = .host ∧ ¬ Claim.onePacket off n := by simpa using hp
      by_cases hz : n = 0
      · subst hz
        exact ⟨rfl, Counts.refl s⟩
      · have h64 : 64 < off % 64 + n := by
          by_contra hle
          exact hlong ⟨by omega, by omega⟩
        obtain ⟨hdata, hcount⟩ := winRead_clean .host (off := off) (n := 64 - off % 64) ⟨ht, h4, by omega⟩ hf hs
        obtain ⟨hdata', hcount'⟩ := ih (n - (64 - off % 64)) (by omega) (off := off + (64 - off % 64)) (s := (winRead .host t off (64 - off % 64) s).2)
          ⟨ht, by rwa [hcount.tileState_eq ht], by omega⟩ (hcount.flitErr_eq.trans hf) ((congrArg Tile.soft (hcount.tileOf_eq t)).trans hs) rfl
        rw [packetReads_split t s h64, hdata, hdata', hcount.tileOf_eq, ← read_append, show 64 - off % 64 + (n - (64 - off % 64)) = n by omega]
        exact ⟨rfl, hcount.trans hcount'⟩

/-! ### Errors that strike a tile's stores (R24) -/

/-- Where no word is struck, every tile stays as it was. -/
theorem strike_nil (t top : Nat) (s : State) : (∃ ti, strike t top [] s = { s with tiles := ti }) ∧ ∀ u, tileOf (strike t top [] s) u = tileOf s u := by
  unfold strike
  split
  · exact ⟨⟨s.tiles, rfl⟩, fun _ => rfl⟩
  · refine ⟨⟨_, rfl⟩, fun u => ?_⟩
    by_cases hu : u = t
    · subst hu
      rw [tileOf_modTile_same]
      rfl
    · exact tileOf_modTile_other _ _ _ _ hu

theorem strike_one {t top o k : Nat} {s : State} (ht : t < numTiles) (h4 : tileState s t ≠ 4) (ho : o < top) (hk : k ≠ 0) :
    strike t top [(o, k)] s = modTile t (fun x => { x with soft := SMap.put 0 x.soft (o / 8) k }) s := by
  unfold strike
  rw [if_neg (by simp [h4]; omega)]
  simp only [List.foldl_cons, List.foldl_nil, show (decide (o < top) && k ≠ 0) = true by simp [ho, hk], if_true]

/-! ### Reads of a window -/

theorem execWindowRead_through (q : Req) {t : Nat} (off len : Nat) (errs : List (Nat × Nat)) {s : State} (h : t < numTiles → tileState s t ≠ 2) :
    exec (.windowRead q t off len errs) s =
      .next (deliver (packetReads q t off len (strike t winTop errs s)).1 (packetReads q t off len (strike t winTop errs s)).2) := by
  show execWindowRead q t off len errs s = _
  unfold execWindowRead
  rw [if_neg (by simp; intro h1 h2; exact absurd h2 (h h1))]

theorem execWindowRead_held (q : Req) {t : Nat} {off : Nat} (len : Nat) (errs : List (Nat × Nat)) {s : State} (ht : t < numTiles) (h2 : tileState s t = 2)
    (ho : off < 0x100000) :
    exec (.windowRead q t off len errs) s = .next (holdAccess t { req := q, off := off, len := len, write := false, data := [] } s) := by
  show execWindowRead q t off len errs s = _
  unfold execWindowRead
  rw [if_pos (by simp [ht, h2, ho])]

/-- A read of words without error delivers them and changes no byte. -/
theorem windowRead_delivers (q : Req) (t off len : Nat) (s : State) (hopen : Claim.windowOpen s t) (htop : off + len ≤ winTop) (hf : s.flitErr = [])
    (hsoft : (tileOf s t).soft = []) :
    Claim.completes (.windowRead q t off len []) s (fun s' =>
      s'.ports = { s.ports with rdata := rawBytes ((tileOf s t).read off len), rpoison := anyPoison ((tileOf s t).read off len) } ∧
      s' = { s with ports := s'.ports, regs := s'.regs, tiles := s'.tiles } ∧ (∀ u, tileOf s' u = tileOf s u) ∧ Claim.counted [] s s') := by
  obtain ⟨⟨ti, hstrike⟩, htiles⟩ := strike_nil t winTop s
  have hstate : tileState (strike t winTop [] s) t = tileState s t := by rw [hstrike]; rfl
  obtain ⟨hdata, hcount⟩ := packetReads_clean q t (off := off) (n := len) (s := strike t winTop [] s) ⟨hopen.1, by rw [hstate]; exact hopen.2.2, htop⟩
    (by rw [hstrike]; exact hf) (by rw [htiles]; exact hsoft)
  refine ⟨_, execWindowRead_through q off len [] (fun _ => hopen.2.1), ?_⟩
  rw [hdata, htiles]
  obtain ⟨rg, hregs⟩ := hcount.1
  have hframe : (packetReads q t off len (strike t winTop [] s)).2 = { s with regs := rg, tiles := ti } := by rw [hregs, hstrike]
  refine ⟨by rw [hframe]; rfl, by rw [hframe]; rfl, fun u => ?_, fun r hc ho => ?_⟩
  · rw [tileOf_deliver, hcount.tileOf_eq, htiles]
  · rw [rget_deliver, hcount.2 r hc ho, hstrike]
    rfl

theorem anyPoison_poisonFlit (hit : Bool) {d : PBytes} (h : anyPoison d = true) : anyPoison (poisonFlit hit d) = true := by
  unfold poisonFlit
  split
  · rw [← List.take_append_drop 64 d] at h
    unfold anyPoison at *
    rw [List.any_append, Bool.or_eq_true] at h ⊢
    refine h.imp (fun h => ?_) id
    obtain ⟨b, hb, _⟩ := List.any_eq_true.mp h
    exact List.any_eq_true.mpr ⟨(b.1, true), List.mem_map.mpr ⟨b, hb, rfl⟩, rfl⟩
  · exact h

/-- A read that meets an uncorrectable word delivers its data poisoned, and the word stays so. -/
theorem windowRead_poisoned (q : Req) (t off len o : Nat) (s : State) (hopen : Claim.windowOpen s t) (hone : Claim.onePacket off len) (htop : off + len ≤ winTop)
    (hlo : off ≤ o) (hhi : o < off + len) :
    Claim.completes (.windowRead q t off len [(o, 2)]) s (fun s' =>
      s'.ports.rpoison = true ∧ (tileOf s' t).wordPoison o = true ∧ bit (rget s' (reg .TILE_SRAM_ERR t)) (storeOf o) = true ∧ (tileOf s' t).mem = (tileOf s t).mem ∧ s'.stk = s.stk ∧
      ∀ u, u ≠ t → tileOf s' u = tileOf s u) := by
  obtain ⟨ht, h2, h4⟩ := hopen
  have hstrike := strike_one (o := o) (k := 2) ht h4 (by omega : o < winTop) (by decide)
  generalize hs1 : strike t winTop [(o, 2)] s = s1 at hstrike
  have htile : tileOf s1 t = { tileOf s t with soft := SMap.put 0 (tileOf s t).soft (o / 8) 2 } := by rw [hstrike, tileOf_modTile_same]
  have hothers : ∀ u, u ≠ t → tileOf s1 u = tileOf s u := fun u hu => by rw [hstrike, tileOf_modTile_other _ _ _ _ hu]
  have hmapped : Mapped s1 t (off + len) := ⟨ht, by rw [hstrike]; exact h4, htop⟩
  have htrip := crosses_reqTrip q (winBase + t * 0x100000 + off) t 0 len s1
  have hread := winRead_mapped q hmapped
  generalize reqTrip q (winBase + t * 0x100000 + off) t 0 len s1 = r at htrip hread
  have htile2 : tileOf r.2 t = { tileOf s t with soft := SMap.put 0 (tileOf s t).soft (o / 8) 2 } := by rw [htrip.tileOf_eq, htile]
  have hword : (tileOf r.2 t).wordPoison o = true := by
    rw [htile2]
    simp [Tile.wordPoison]
  have hpois : anyPoison ((tileOf r.2 t).read off len) = true := by
    refine List.any_eq_true.mpr ⟨_, List.mem_map.mpr ⟨o - off, List.mem_range.mpr (by omega), rfl⟩, ?_⟩
    rw [show off + (o - off) = o by omega]
    exact hword
  have hmark : Marked t o (meetWords t off len r.2) := marked_meetWords (k := 2) (by decide) (by rw [htile2]; exact SMap.mem_put _ _ (show 2 ≠ 0 by decide)) hlo hhi
  obtain ⟨⟨rg, ti, rc, w, hmeet⟩, hmeetOthers, ⟨pz, sf, hmeetTile⟩, -⟩ := meets_meetWords t off len r.2
  refine ⟨_, execWindowRead_through q off len _ (fun _ => h2), ?_⟩
  rw [hs1, packetReads_one q t s1 (.inr hone), hread]
  refine ⟨anyPoison_poisonFlit _ hpois, ?_, ?_, ?_, ?_, fun u hu => ?_⟩
  · rw [tileOf_deliver, Tile.wordPoison, hmark.1]
    rfl
  · rw [rget_deliver]
    exact hmark.2
  · rw [tileOf_deliver, hmeetTile, htile2]
  · obtain ⟨⟨rg', fe, htrip⟩, -⟩ := htrip
    rw [hmeet, htrip, hstrike]
    rfl
  · rw [tileOf_deliver, hmeetOthers u hu, htrip.tileOf_eq, hothers u hu]

/-- A read beyond the stores or of an absent tile is recorded and delivers 0. -/
theorem windowRead_unmapped (q : Req) (t off len : Nat) (s : State) (hone : Claim.onePacket off len) (h2 : t < numTiles → tileState s t ≠ 2)
    (hout : numTiles ≤ t ∨ tileState s t = 4 ∨ winTop < off + len) :
    Claim.completes (.windowRead q t off len []) s (fun s' =>
      s'.ports.rdata = List.replicate len 0#8 ∧ s'.ports.rpoison = false ∧
      Claim.recorded 0x0F03 0xFF (Req.code q) (w64 ((winBase + t * 0x100000 + off) % 2 ^ 48)) 0#64 s s' ∧ Claim.regsKeep Claim.eventRegs s s' ∧
      (∀ u, tileOf s' u = tileOf s u) ∧ s'.stk = s.stk) := by
  obtain ⟨⟨ti, hstrike⟩, htiles⟩ := strike_nil t winTop s
  have hregs : ∀ r, rget (strike t winTop [] s) r = rget s r := fun r => by rw [hstrike]; rfl
  have hstate : tileState (strike t winTop [] s) t = tileState s t := by rw [hstrike]; rfl
  have hunmapped : ¬ Mapped (strike t winTop [] s) t (off + len) := by
    rintro ⟨ht, h4, htop⟩
    rw [hstate] at h4
    omega
  have hrec := event_recorded 0x0F03 0xFF (Req.code q) (w64 ((winBase + t * 0x100000 + off) % 2 ^ 48)) 0#64 (strike t winTop [] s)
  have hkeep := event_regsKeep 0x0F03 0xFF (Req.code q) (w64 ((winBase + t * 0x100000 + off) % 2 ^ 48)) 0#64 (strike t winTop [] s)
  refine ⟨_, execWindowRead_through q off len [] h2, ?_⟩
  rw [packetReads_one q t _ (.inr hone), winRead_unmapped q hunmapped]
  refine ⟨?_, ?_, recorded_of_sameRegs ⟨hregs _, hregs _, hregs _⟩ hrec, fun r hr => (hkeep r hr).trans (hregs r), fun u => ?_, ?_⟩
  · simp [deliver, rawBytes, cleanBytes]
  · simp [deliver, anyPoison, cleanBytes]
  · exact (tileOf_event ..).trans (htiles u)
  · exact (event_stk ..).trans (by rw [hstrike])

/-! ### Writes of a window -/

/-- A write that one of its words does not allow is discarded and recorded. -/
theorem windowWrite_discarded (q : Req) (t off : Nat) (data : List Byte) (ep : Bool) (s : State) (hopen : Claim.windowOpen s t) (hone : Claim.onePacket off data.length)
    (htop : off + data.length ≤ winTop) (hf : s.flitErr = []) (hw : (wordsOf off data.length).all (fun w => winWritable (tileOf s t) (max w off)) = false) :
    Claim.completes (.windowWrite q t off data ep) s
      (Claim.recordedOnArrival 0x0F04 (dieOfTile t) (Req.code q) (w64 ((winBase + t * 0x100000 + off) % 2 ^ 48)) (w64 (t % 2048)) s) := by
  have hlen := length_markBytes ep data
  obtain ⟨-, hcount⟩ := reqTrip_clean q (winBase + t * 0x100000 + off) t data.length 0 hf
  have hmapped := windowOpen_mapped hopen htop
  refine ⟨_, execWindowWrite_eq q t off data ep s, ?_⟩
  rw [windowWrites_one q t ep s (.inr hone), writePacket_through q off data ep (fun _ => hopen.2.1), winWrite_discarded q (by rwa [hlen]) (by rwa [hlen]), hlen]
  generalize (reqTrip q (winBase + t * 0x100000 + off) t data.length 0 s).2 = s1 at hcount
  obtain ⟨hrec, hframe, hkeep⟩ := event_onlyRecorded 0x0F04 (dieOfTile t) (Req.code q) (w64 ((winBase + t * 0x100000 + off) % 2 ^ 48)) (w64 (t % 2048)) s1
  refine ⟨recorded_of_sameRegs hcount.sameRecordRegs hrec, ?_, fun r hc ho => (hkeep r ho).trans (hcount.rget_eq hc)⟩
  obtain ⟨rg, e⟩ := hcount.1
  obtain ⟨rg', rc, w, e'⟩ := event_eq 0x0F04 (dieOfTile t) (Req.code q) (w64 ((winBase + t * 0x100000 + off) % 2 ^ 48)) (w64 (t % 2048)) s1
  unfold recDiscarded
  rw [e', e]

theorem windowWrite_held (q : Req) (t off : Nat) (data : List Byte) (ep : Bool) (s : State) (ht : t < numTiles) (h2 : tileState s t = 2) (hone : Claim.onePacket off data.length)
    (ho : off < 0x100000) :
    Claim.completes (.windowWrite q t off data ep) s (fun s' =>
      tileOf s' t = { tileOf s t with held := (tileOf s t).held ++ [{ req := q, off := off, len := data.length, write := true, data := data, ep := ep }] } ∧
      (∀ u, u ≠ t → tileOf s' u = tileOf s u) ∧ s' = { s with tiles := s'.tiles }) := by
  refine ⟨_, execWindowWrite_eq q t off data ep s, ?_⟩
  rw [windowWrites_one q t ep s (.inr hone), writePacket_held q data ep ht h2 ho]
  exact ⟨tileOf_modTile_same .., fun u hu => tileOf_modTile_other _ _ _ _ hu, rfl⟩

theorem windowRead_held (q : Req) (t off len : Nat) (errs : List (Nat × Nat)) (s : State) (ht : t < numTiles) (h2 : tileState s t = 2) (ho : off < 0x100000) :
    Claim.completes (.windowRead q t off len errs) s (fun s' =>
      tileOf s' t = { tileOf s t with held := (tileOf s t).held ++ [{ req := q, off := off, len := len, write := false, data := [] }] } ∧
      (∀ u, u ≠ t → tileOf s' u = tileOf s u) ∧ s' = { s with tiles := s'.tiles }) :=
  ⟨_, execWindowRead_held q len errs ht h2 ho, tileOf_modTile_same .., fun _ hu => tileOf_modTile_other _ _ _ _ hu, rfl⟩

theorem windowWrite_unmapped (q : Req) (t off : Nat) (data : List Byte) (ep : Bool) (s : State) (hone : Claim.onePacket off data.length)
    (h2 : t < numTiles → tileState s t ≠ 2) (hout : numTiles ≤ t ∨ tileState s t = 4 ∨ winTop < off + data.length) :
    Claim.completes (.windowWrite q t off data ep) s (Claim.onlyRecorded 0x0F03 0xFF (Req.code q) (w64 ((winBase + t * 0x100000 + off) % 2 ^ 48)) (w64 256) s) := by
  refine ⟨_, execWindowWrite_eq q t off data ep s, ?_⟩
  rw [windowWrites_one q t ep s (.inr hone), writePacket_through q off data ep h2, winWrite_unmapped q (by
    rintro ⟨ht, h4, htop⟩
    rw [length_markBytes] at htop
    omega)]
  exact event_onlyRecorded ..

/-- A read delivers, a write stores, is discarded or waits, as the window's rules and the tile's state have it (R24, R31, R42 to R44). -/
theorem windowAccesses : Claim.WindowAccesses := by
  refine ⟨windowRead_delivers, windowRead_poisoned, ?_, windowWrite_discarded, windowWrite_held, windowRead_held, windowWrite_unmapped, windowRead_unmapped, ?_⟩
  · intro q t off data s hopen htop hf hw
    exact ⟨_, execWindowWrite_eq q t off data false s, (windowWrites_stores q false hopen htop hf hw).windowStored⟩
  · intro t off data ep s h
    exact ⟨_, execWindowWrite_eq .host t off data ep s, _, execWindowWrite_eq .., by rw [execWindowWrite_eq, ← windowWrites_split t ep s h]⟩

end Sys2Proof.Machine
end

section
/-! SUPPORT. The scrubber, code bases and flits in error (R24, R26, R31, R33, R87). -/

namespace Sys2Proof.Machine
open Sys2Proof

/-! ### The scrubber (R26) -/

theorem soft_self {x : Tile} {sf : SMap Nat} (h : x.soft = sf) : { x with soft := sf } = x := by
  subst h
  rfl

/-- On a tile without other errors, the scrub meets the one word that was struck. -/
theorem execScrubPeriod_one {t o k : Nat} {s : State} (ht : t < numTiles) (h4 : tileState s t ≠ 4) (ho : o < 0xC0000) (hk : k ≠ 0) (hsoft : (tileOf s t).soft = []) :
    ∃ ti, exec (.scrubPeriod t [(o, k)]) s = .next (wordErr t (o / 8 * 8) k { s with tiles := ti }) ∧ ∀ u, tileOf { s with tiles := ti } u = tileOf s u := by
  generalize hs1 : modTile t (fun x => { x with soft := SMap.put 0 x.soft (o / 8) k }) s = s1
  have hstruck : (tileOf s1 t).soft = [(o / 8, k)] := by
    rw [← hs1, tileOf_modTile_same, hsoft]
    simp [SMap.put, hk, SMap.erase, SMap.insert]
  have hhit : hitRange 0 0xC0000 (o / 8, k) = true := by simp [hitRange]; omega
  generalize hs2 : modTile t (fun x => { x with soft := x.soft.filter (fun e => !hitRange 0 0xC0000 e) }) s1 = s2
  have hmeet : meetWords t 0 0xC0000 s1 = wordErr t (o / 8 * 8) k s2 := by
    rw [meetWords_eq, hs2, hstruck, List.filter_cons_of_pos hhit]
    rfl
  have hframe : s2 = { s with tiles := s2.tiles } := by rw [← hs2, ← hs1]; rfl
  refine ⟨s2.tiles, ?_, fun u => ?_⟩
  · show execScrubPeriod t [(o, k)] s = _
    unfold execScrubPeriod
    rw [if_neg (by simp [h4]; omega), strike_one ht h4 ho hk, hs1, hmeet, ← hframe]
  · rw [← hframe, ← hs2]
    by_cases hu : u = t
    · subst hu
      rw [tileOf_modTile_same, hstruck, List.filter_cons_of_neg (by simp [hhit]), ← hs1, tileOf_modTile_same]
      exact soft_self hsoft
    · rw [tileOf_modTile_other _ _ _ _ hu, ← hs1, tileOf_modTile_other _ _ _ _ hu]

theorem scrub_corrects (t o : Nat) (s : State) (ht : t < numTiles) (h4 : tileState s t ≠ 4) (ho : o < 0xC0000) (hsoft : (tileOf s t).soft = []) :
    Claim.completes (.scrubPeriod t [(o, 1)]) s (fun s' =>
      rbits s' (reg .TILE_SRAM_CE t) 47 0 = (rbits s (reg .TILE_SRAM_CE t) 47 0 + 1) % 2 ^ 48 ∧ Claim.regsKeep [(reg .TILE_SRAM_CE t).off] s s' ∧
      s' = { s with regs := s'.regs, tiles := s'.tiles } ∧ ∀ u, tileOf s' u = tileOf s u) := by
  obtain ⟨ti, hexec, htiles⟩ := execScrubPeriod_one (k := 1) ht h4 ho (by decide) hsoft
  refine ⟨_, hexec, ?_⟩
  rw [wordErr_corrected]
  refine ⟨rbits_rcount_same _ 48 1 _ (by decide) (by decide), fun r hr => ?_, rfl, fun u => (tileOf_rcount ..).trans (htiles u)⟩
  have hne : r.off ≠ (reg .TILE_SRAM_CE t).off := by simpa using hr
  exact rget_rcount_other _ r _ _ _ hne

/-- The record of an uncorrectable word is the one of the state before it was marked. -/
theorem markWord_sameRecordRegs (t o : Nat) (s : State) : SameRecordRegs s (markWord t o s) := by
  have hlow : ∀ q : Reg, q.off < 0x1000000 → rget (markWord t o s) q = rget s q := fun q hq =>
    rget_markWord_other t o s q (by rw [off_sramUe]; omega) (by rw [off_sramErr]; omega) (by rw [off_sramUeAddr]; omega)
  exact ⟨hlow _ (by decide), hlow _ (by decide), hlow _ (by decide)⟩

/-- The count and the address that a word found uncorrectable leaves in its tile's registers. -/
theorem wordErr_counts {t o k : Nat} {s : State} (hk : k ≠ 1) :
    rbits (wordErr t o k s) (reg .TILE_SRAM_UE t) 47 0 = (rbits s (reg .TILE_SRAM_UE t) 47 0 + 1) % 2 ^ 48 ∧
    rget (wordErr t o k s) (reg .TILE_SRAM_UE_ADDR t) = w64 (o / 8 * 8) := by
  rw [wordErr_uncorrectable t o s hk, rbits, rget_event_block _ _ _ _ _ _ (by rw [off_sramUe]; omega), rget_event_block _ _ _ _ _ _ (by rw [off_sramUeAddr]; omega)]
  unfold markWord
  rw [rget_modTile, rget_modTile, rget_rset_same, rget_rset_other _ _ _ _ (by rw [off_sramUe, off_sramUeAddr]; omega),
    rget_rsetBit_other _ _ _ _ _ (by rw [off_sramUe, off_sramErr]; omega)]
  exact ⟨rbits_rcount_same _ 48 1 _ (by decide) (by decide), rfl⟩

theorem scrub_marks (t o : Nat) (s : State) (ht : t < numTiles) (h4 : tileState s t ≠ 4) (ho : o < 0xC0000) (hsoft : (tileOf s t).soft = []) :
    Claim.completes (.scrubPeriod t [(o, 2)]) s (fun s' =>
      (tileOf s' t).wordPoison o = true ∧ rbits s' (reg .TILE_SRAM_UE t) 47 0 = (rbits s (reg .TILE_SRAM_UE t) 47 0 + 1) % 2 ^ 48 ∧
      bit (rget s' (reg .TILE_SRAM_ERR t)) (storeOf o) = true ∧ rget s' (reg .TILE_SRAM_UE_ADDR t) = w64 (o / 8 * 8) ∧
      Claim.recorded 0x0501 (dieOfTile t) t (w64 (o / 8 * 8 + storeOf o * 2 ^ 32)) 0#64 s s' ∧ tileOf s' t = { tileOf s t with poison := (tileOf s' t).poison } ∧
      (∀ u, u ≠ t → tileOf s' u = tileOf s u) ∧ s'.stk = s.stk) := by
  obtain ⟨ti, hexec, htiles⟩ := execScrubPeriod_one (k := 2) ht h4 ho (by decide) hsoft
  generalize hs1 : ({ s with tiles := ti } : State) = s1 at hexec htiles
  have hregs : ∀ q, rget s1 q = rget s q := fun q => by rw [← hs1]; rfl
  have hstk : s1.stk = s.stk := by rw [← hs1]
  have hword : o / 8 * 8 / 8 * 8 = o / 8 * 8 := by omega
  obtain ⟨hpoison, hbit⟩ : Marked t o (wordErr t (o / 8 * 8) 2 s1) := marked_word (marked_wordErr (by decide))
  obtain ⟨hcount, haddr⟩ := wordErr_counts (t := t) (o := o / 8 * 8) (s := s1) (k := 2) (by decide)
  have herr := wordErr_uncorrectable t (o / 8 * 8) s1 (k := 2) (by decide)
  have hrec := event_recorded 0x0501 (dieOfTile t) t (w64 (o / 8 * 8 / 8 * 8 + storeOf (o / 8 * 8) * 2 ^ 32)) 0#64 (markWord t (o / 8 * 8) s1)
  rw [← herr, hword, storeOf_word] at hrec
  rw [hword] at haddr
  refine ⟨_, hexec, ?_, ?_, hbit, haddr, recorded_of_sameRegs ⟨hregs _, hregs _, hregs _⟩ (recorded_of_sameRegs (markWord_sameRecordRegs ..) hrec), ?_, fun u hu => ?_, ?_⟩
  · rw [Tile.wordPoison, hpoison]
    rfl
  · rw [hcount, rbits, hregs]
    rfl
  · rw [herr, tileOf_event, tileOf_markWord_same, htiles]
  · rw [herr, tileOf_event, tileOf_markWord_other _ _ hu, htiles]
  · rw [herr, event_stk, ← hstk]
    rfl

/-! ### Code bases (R31, R87) -/

theorem execTileSeqCodeWrite_through (q : Req) {t : Nat} (v : Word) {s : State} (ht : t < numTiles) (h2 : tileState s t ≠ 2) :
    exec (.tileSeqCodeWrite q t v) s = .next (writeSeqCode q t v s) := by
  show execTileSeqCodeWrite q t v s = _
  unfold execTileSeqCodeWrite
  rw [if_neg (by omega), if_neg h2]

/-- The fields of a code base take the data of a write: all their bits are writable, and no bit of the register clears or sets by 1 (R8, R87). -/
theorem bit_regWritten_seqCode (old v : Word) {i : Nat} (h : (0xF3F#64).getLsbD i = true) : (regWritten .TILE_SEQ_CODE old v).getLsbD i = v.getLsbD i := by
  have hi : i < 64 := BitVec.lt_of_getLsbD h
  have hrw : (regInfo .TILE_SEQ_CODE).rw = 0xF3F#64 ∧ (regInfo .TILE_SEQ_CODE).w1c = 0#64 ∧ (regInfo .TILE_SEQ_CODE).w1s = 0#64 := ⟨rfl, rfl, rfl⟩
  obtain ⟨h1, h2, h3⟩ := hrw
  unfold regWritten
  simp only [h1, h2, h3, BitVec.getLsbD_or, BitVec.getLsbD_and, BitVec.getLsbD_not, h, hi]
  simp

theorem bits_regWritten_seqCode (old v : Word) :
    bits (regWritten .TILE_SEQ_CODE old v) 5 0 = bits v 5 0 ∧ bits (regWritten .TILE_SEQ_CODE old v) 11 8 = bits v 11 8 := by
  have hlow : ∀ i, i < 6 → (0xF3F#64).getLsbD (0 + i) = true := by decide
  have hhigh : ∀ i, i < 4 → (0xF3F#64).getLsbD (8 + i) = true := by decide
  constructor
  · refine Nat.eq_of_testBit_eq (fun i => ?_)
    rw [testBit_bits, testBit_bits]
    by_cases hi : i < 6
    · rw [bit_regWritten_seqCode old v (hlow i hi)]
    · simp [hi]
  · refine Nat.eq_of_testBit_eq (fun i => ?_)
    rw [testBit_bits, testBit_bits]
    by_cases hi : i < 4
    · rw [bit_regWritten_seqCode old v (hhigh i hi)]
    · simp [hi]

theorem seqCode_taken (q : Req) (t : Nat) (v : Word) (s : State) (ht : t < numTiles) (h2 : tileState s t ≠ 2) (hfit : bits v 5 0 + bits v 11 8 + 1 ≤ 64) :
    Claim.completes (.tileSeqCodeWrite q t v) s (fun s' =>
      rbits s' (reg .TILE_SEQ_CODE t) 5 0 = bits v 5 0 ∧ rbits s' (reg .TILE_SEQ_CODE t) 11 8 = bits v 11 8 ∧ Claim.onlyRegs [(reg .TILE_SEQ_CODE t).off] s s') := by
  obtain ⟨hlow, hhigh⟩ := bits_regWritten_seqCode (rget s (reg .TILE_SEQ_CODE t)) v
  refine ⟨_, execTileSeqCodeWrite_through q v ht h2, ?_⟩
  rw [writeSeqCode, if_pos hfit, plainWrite]
  refine ⟨by rwa [rbits, rget_rset_same], by rwa [rbits, rget_rset_same], rfl, fun r hr => rget_rset_other _ r _ _ ?_⟩
  simpa using hr

theorem seqCode_refused (q : Req) (t : Nat) (v : Word) (s : State) (ht : t < numTiles) (h2 : tileState s t ≠ 2) (hover : 64 < bits v 5 0 + bits v 11 8 + 1) :
    Claim.completes (.tileSeqCodeWrite q t v) s (Claim.onlyRecorded 0x0F08 0xFF (Req.code q) (w64 (reg .TILE_SEQ_CODE t).off) v s) := by
  have hoff : (reg .TILE_SEQ_CODE t).off % 2 ^ 48 = (reg .TILE_SEQ_CODE t).off := by
    have : t < 1152 := ht
    rw [off_seqCode]
    omega
  refine ⟨_, execTileSeqCodeWrite_through q v ht h2, ?_⟩
  rw [writeSeqCode, if_neg (by omega), recRegRefused, hoff]
  exact event_onlyRecorded ..

theorem seqCode_held (q : Req) (t : Nat) (v : Word) (s : State) (ht : t < numTiles) (h2 : tileState s t = 2) :
    Claim.completes (.tileSeqCodeWrite q t v) s (fun s' =>
      tileOf s' t = { tileOf s t with held := (tileOf s t).held ++ [{ req := q, off := 0x100100, len := 8, write := true, data := leBytes 8 v.toNat }] } ∧
      (∀ u, u ≠ t → tileOf s' u = tileOf s u) ∧ s' = { s with tiles := s'.tiles }) := by
  refine ⟨holdAccess t (heldWrite q 0x100 v) s, ?_, tileOf_modTile_same .., fun u hu => tileOf_modTile_other _ _ _ _ hu, rfl⟩
  show execTileSeqCodeWrite q t v s = _
  unfold execTileSeqCodeWrite
  rw [if_neg (by omega), if_pos h2]

/-! ### Flits in error (R33) -/

/-- At a tile's router, an error of one bit is corrected and counted, a worse one poisons the flit and shows in the tile's register. -/
theorem flitIn_counts (t px py e : Nat) (s : State) (hp : tileAt s (px, py) = some t) (he : SMap.get 0 s.flitErr (posKey px py) = e) (h0 : e ≠ 0) :
    (flitIn (px, py) (false, s)).1 = (e != 1) ∧ SMap.get 0 (flitIn (px, py) (false, s)).2.flitErr (posKey px py) = 0 ∧
    (e = 1 → rbits (flitIn (px, py) (false, s)).2 (reg .TILE_MESH_CE t) 47 0 = (rbits s (reg .TILE_MESH_CE t) 47 0 + 1) % 2 ^ 48) ∧
    (e ≠ 1 → bit (rget (flitIn (px, py) (false, s)).2 (reg .TILE_SRAM_ERR t)) 8 = true) := by
  subst he
  have hcleared : SMap.get 0 (SMap.put 0 s.flitErr (posKey px py) 0) (posKey px py) = 0 := SMap.get_put_same ..
  rw [flitIn_tile false hp h0]
  by_cases h1 : SMap.get 0 s.flitErr (posKey px py) = 1
  · simp only [h1, if_true]
    exact ⟨rfl, hcleared, fun _ => rbits_rcount_same _ 48 1 _ (by decide) (by decide), fun h => absurd rfl h⟩
  · simp only [if_neg h1]
    refine ⟨by simp [h1], hcleared, fun h => absurd h h1, fun _ => ?_⟩
    rw [rget_rsetBit_same, bit_setBit_same _ _ _ (by decide)]

theorem scrubsAndCodeBases : Claim.ScrubsAndCodeBases := by
  refine ⟨scrub_corrects, scrub_marks, ?_, seqCode_taken, seqCode_refused, seqCode_held, flitIn_counts⟩
  intro t errs s h
  show execScrubPeriod t errs s = _
  unfold execScrubPeriod
  rw [if_pos (by simpa using h)]

end Sys2Proof.Machine
end

section
/-! SUPPORT. Map moves: the move of a quiet tile to a spare, the end of its hold, and routers that pass packets through (R30 to R32, R404, R407). -/

namespace Sys2Proof.Machine
open Sys2Proof

/-! ### The taint log of a tile that moves (R404) -/

/-- The copy of a taint log goes to the records. -/
theorem taintCopy_eq (t : Nat) (s : State) : ∃ rg rc, (taintCopy t s).2 = { s with regs := rg, rec_ := rc } := by
  have hfold : ∀ (ws : List Word) (s : State), ∃ rg rc, ws.foldl (fun s w => errWrite [w, 0#64, 0#64, 0#64, 0#64, 0#64, 0#64, 0#64] s) s = { s with regs := rg, rec_ := rc } := by
    intro ws
    induction ws with
    | nil => exact fun s => ⟨s.regs, s.rec_, rfl⟩
    | cons w ws ih =>
      intro s
      obtain ⟨rg, hw⟩ := errWrite_eq [w, 0#64, 0#64, 0#64, 0#64, 0#64, 0#64, 0#64] s
      obtain ⟨rg', rc', hws⟩ := ih (errWrite [w, 0#64, 0#64, 0#64, 0#64, 0#64, 0#64, 0#64] s)
      exact ⟨rg', rc', by rw [List.foldl_cons, hws, hw]⟩
  unfold taintCopy
  extract_lets idx head words s1
  obtain ⟨rg, hhead⟩ := errWrite_eq head s
  obtain ⟨rg', rc', hwords⟩ := hfold words s1
  exact ⟨rg', rc', by rw [hwords]; unfold s1; rw [hhead]⟩

/-- The clearing of a taint log moves registers alone, and leaves no flag. -/
theorem taintClear_eq (t : Nat) (s : State) : (∃ rg, taintClear t s = { s with regs := rg }) ∧ rget (taintClear t s) (reg .TILE_TAINT_FLAGS t) = 0#64 := by
  have hfold : ∀ (ws : List Nat) (s : State), (∃ rg, ws.foldl (fun s w => rset (reg .TILE_TAINT t w) 0#64 s) s = { s with regs := rg }) ∧
      rget (ws.foldl (fun s w => rset (reg .TILE_TAINT t w) 0#64 s) s) (reg .TILE_TAINT_FLAGS t) = rget s (reg .TILE_TAINT_FLAGS t) := by
    intro ws
    induction ws with
    | nil => exact fun s => ⟨⟨s.regs, rfl⟩, rfl⟩
    | cons w ws ih =>
      intro s
      obtain ⟨⟨rg, hws⟩, hget⟩ := ih (rset (reg .TILE_TAINT t w) 0#64 s)
      exact ⟨⟨rg, hws⟩, hget.trans (rget_rset_other _ _ _ _ (by rw [off_taintFlags, off_taint]; omega))⟩
  unfold taintClear
  extract_lets s1
  obtain ⟨⟨rg, hws⟩, hget⟩ := hfold (List.range 64) s1
  exact ⟨⟨rg, hws⟩, hget.trans (rget_rset_same ..)⟩

/-! ### The move of a quiet tile (R30, R407) -/

theorem bits_w64 (n hi lo : Nat) : bits (w64 n) hi lo = n % 2 ^ 64 / 2 ^ lo % 2 ^ (hi + 1 - lo) := by
  rw [bits, w64, BitVec.toNat_ofNat, Nat.shiftRight_eq_div_pow]

/-- A map word names the position that it was made of (R45). -/
theorem physPos_of_map {s : State} {t px py f n : Nat} (hx : px < 64) (hy : py < 32) (hf : f % 2 ^ 16 = 0)
    (h : rget s (reg .TILE_MAP t) = w64 (px + py * 2 ^ 8 + f + n * 2 ^ 32)) :
    physPos s t = (px, py) := by
  unfold physPos
  simp only [h, bits_w64]
  refine Prod.ext ?_ ?_ <;> simp only [] <;> omega

theorem mapMove_moves (t px py : Nat) (s : State) (ht : t < numTiles) (hasked : spareAsked s t = true) (hpos : s.cox.movePos = []) (hnear : nearestSpare s t (px, py) = true)
    (hx : px < 64) (hy : py < 32) (h0 : tileState s t = 0) (hquiet : quiet s t = true) (hscan : (tileOf s t).scanCmd = none) (hown : ownScanDue s t = false) :
    Claim.completes (.mapMove t px py true) s (fun s' =>
      physPos s' t = (px, py) ∧ tileState s' t = 2 ∧ SMap.get false s'.retired (posKey (physPos s t).1 (physPos s t).2) = true ∧
      (∀ b, b < 0xC0000 → (tileOf s' t).byte b = (tileOf s t).byte b) ∧ (∀ b, 0xC0000 ≤ b → b < 0xF7000 → (tileOf s' t).byte b = 0#8) ∧
      rget s' (reg .TILE_TAINT_FLAGS t) = 0#64 ∧ (∀ u, u ≠ t → tileOf s' u = tileOf s u) ∧ s'.stk = s.stk) := by
  obtain ⟨s', hexec⟩ : ∃ s', execMapMove t px py true s = .next s' := ⟨_, rfl⟩
  refine ⟨s', hexec, ?_⟩
  unfold execMapMove at hexec
  extract_lets fits old s1 s2 keep s3 s4 n s5 s6 s7 s8 at hexec
  have hfits : fits = true := by
    unfold fits
    rw [if_pos hasked, hpos]
    exact hnear
  rw [if_neg (by simp [hown, hasked, h0, hquiet, hfits]; exact ht)] at hexec
  injection hexec with hexec
  have h8 : s8 = s7 := if_pos rfl
  obtain ⟨rg, rc, h1⟩ : ∃ rg rc, s1 = { s with regs := rg, rec_ := rc } := taintCopy_eq t s
  obtain ⟨⟨rg2, h2⟩, hflags⟩ : (∃ rg, s2 = { s1 with regs := rg }) ∧ rget s2 (reg .TILE_TAINT_FLAGS t) = 0#64 := taintClear_eq t s1
  have htiles : ∀ u, tileOf s2 u = tileOf s u := fun u => by rw [h2, h1]; rfl
  have h3 : s3 = s2 := by
    unfold s3
    rw [htiles, hscan]
    rfl
  have hmem : (tileOf s4 t).mem = (tileOf s t).mem.filter (fun e => decide (e.1 < 0xC0000)) := by
    unfold s4
    rw [tileOf_modTile_same, h3, htiles]
    rfl
  have hdq : (tileOf s4 t).dqMem = [] := by
    unfold s4
    rw [tileOf_modTile_same]
  have hothers : ∀ u, u ≠ t → tileOf s4 u = tileOf s u := fun u hu => by
    unfold s4
    rw [tileOf_modTile_other _ _ _ _ hu, h3, htiles]
  have hstk : s4.stk = s.stk := by
    unfold s4
    rw [modTile_stk, h3, h2, h1]
  have hclear : rget s4 (reg .TILE_TAINT_FLAGS t) = 0#64 := by
    unfold s4
    rw [rget_modTile, h3, hflags]
  have h5 : s5 = rset (reg .TILE_MAP t) (w64 (px + py * 2 ^ 8 + (if (px, py) = factoryPos t then 0 else 2 ^ 16) + (n + 1) % 2 ^ 32 * 2 ^ 32)) s4 := rfl
  have h6 : s6 = { s5 with retired := SMap.put false s5.retired (posKey old.1 old.2) true } := rfl
  have h7 : s7 = setTileState t 2 s6 := rfl
  clear_value s8 s7 s6 s5 n s4
  rw [h8, h7] at hexec
  have hkeep : ∀ u, tileOf s' u = tileOf s4 u := fun u => by
    have h6tile : tileOf s6 u = tileOf s5 u := by rw [h6]; rfl
    rw [← hexec, tileOf_event, tileOf_setTileState, h6tile, h5, tileOf_rset]
  have hblock : ∀ q : Reg, 0x1000000 ≤ q.off → q.off ≠ (reg .TILE_STATE t).off → rget s' q = rget s5 q := by
    intro q hq hne
    rw [← hexec, rget_event_block _ _ _ _ _ _ hq, setTileState, rget_rsetBits_other _ _ _ _ _ _ hne, h6]
    rfl
  refine ⟨?_, ?_, ?_, fun b hb => ?_, fun b hlo hhi => ?_, ?_, fun u hu => (hkeep u).trans (hothers u hu), ?_⟩
  · refine physPos_of_map (f := if (px, py) = factoryPos t then 0 else 2 ^ 16) (n := (n + 1) % 2 ^ 32) hx hy (by split <;> rfl) ?_
    rw [hblock _ (by rw [off_tileMap]; omega) (by rw [off_tileMap, off_tileState]; omega), h5, rget_rset_same]
  · rw [← hexec, tileState_event]
    exact rbits_rsetBits_same _ _ _ _ _ (by decide)
  · rw [← hexec, event_retired, setTileState_retired, h6]
    exact SMap.get_put_same false s5.retired (posKey old.1 old.2) true
  · rw [hkeep, byte_low _ (by omega), byte_low _ (by omega), hmem, SMap.get_filter _ _ (fun o => decide (o < 0xC0000)), if_pos (by simpa using hb)]
  · unfold Tile.byte
    rw [hkeep, hmem, hdq, SMap.get_filter _ _ (fun o => decide (o < 0xC0000))]
    simp [Nat.not_lt.mpr hlo]
  · rw [hblock _ (by rw [off_taintFlags]; omega) (by rw [off_taintFlags, off_tileState]; omega), h5,
      rget_rset_other _ _ _ _ (by rw [off_taintFlags, off_tileMap]; omega), hclear]
  · have h6stk : s6.stk = s5.stk := by rw [h6]
    rw [← hexec, event_stk, setTileState_stk, h6stk, h5, rset_stk, hstk]

/-- A tile that its own scan, its work or its state keeps does not move. -/
theorem mapMove_waits (t px py : Nat) (ok : Bool) (s : State) (h : ownScanDue s t = true ∨ quiet s t = false ∨ tileState s t = 2 ∨ tileState s t = 4) :
    exec (.mapMove t px py ok) s = .next s := by
  show execMapMove t px py ok s = _
  unfold execMapMove
  extract_lets fits
  rw [if_pos (by rcases h with h | h | h | h <;> simp [h])]

/-- A retirement without a fresh nearest spare, and a move that nobody asked for, do nothing. -/
theorem mapMove_idle (t px py : Nat) (ok : Bool) (s : State) (hasked : spareAsked s t = false)
    (h : retirement s t = none ∨ spareFresh s (px, py) = false ∨ nearestSpare s t (px, py) = false) : exec (.mapMove t px py ok) s = .next s := by
  show execMapMove t px py ok s = _
  unfold execMapMove
  extract_lets fits
  rw [if_pos (by rcases h with h | h | h <;> simp [fits, hasked, h])]

/-! ### The end of a hold (R30, R31) -/

/-- The tile is in service again and holds no access back. -/
def freeTile (t : Nat) (s : State) : State := setTileState t 0 (modTile t (fun x => { x with held := [] }) s)

/-- The commands that asked for the move of tile t. -/
def moveAsks (t : Nat) (s : State) : List CmdRef := (s.cox.moveCmd.filter (fun e => e.1 == t)).map (·.2) ++ ((retirement s t).bind (·.cmd)).toList

/-- The move of tile t is no longer asked for. -/
def dropMove (t : Nat) (s : State) : State :=
  { s with cox := { s.cox with
      moveCmd := s.cox.moveCmd.filter (fun e => e.1 != t), movePos := s.cox.movePos.filter (fun e => e.1 != t)
      proposals := s.cox.proposals.filter (fun p => !(p.kind == 4 && p.a == t)) } }

theorem execMapHoldClear_eq {t : Nat} {s s2 : State} (ht : t < numTiles) (h2 : tileState s t = 2) (hs : (tileOf s t).held.foldl (fun s h => serveHeld t h s) (freeTile t s) = s2) :
    exec (.mapHoldClear t 1248) s = .next ((moveAsks t s2).foldl (fun s c => finishCmd c stOK 0 0#64 s) (dropMove t s2)) := by
  show execMapHoldClear t 1248 s = _
  unfold execMapHoldClear
  rw [if_neg (by simp [h2]; exact ht)]
  subst hs
  rfl

theorem mapHoldClear_idle (t acks : Nat) (s : State) (h : tileState s t ≠ 2 ∨ acks ≠ 1248) : exec (.mapHoldClear t acks) s = .next s := by
  show execMapHoldClear t acks s = _
  unfold execMapHoldClear
  rw [if_pos (by rcases h with h | h <;> simp [h])]

/-- A move that neither a command nor a retirement asked for ends without an answer. -/
theorem moveAsks_nil {t : Nat} {s : State} (hasked : spareAsked s t = false) (hret : retirement s t = none) : moveAsks t s = [] := by
  have hnone : s.cox.moveCmd.filter (fun e => e.1 == t) = [] := by
    rw [List.filter_eq_nil_iff]
    exact List.any_eq_false.mp hasked
  rw [moveAsks, hnone, hret]
  rfl

/-- What asks for a move is known to the cox. -/
theorem moveAsks_congr {t : Nat} {s s' : State} (hc : s'.cox.moveCmd = s.cox.moveCmd) (hp : s'.cox.proposals = s.cox.proposals) : moveAsks t s' = moveAsks t s := by
  unfold moveAsks retirement
  rw [hc, hp]

theorem tileOf_dropMove (t : Nat) (s : State) (u : Nat) : tileOf (dropMove t s) u = tileOf s u := rfl
theorem rget_dropMove (t : Nat) (s : State) (q : Reg) : rget (dropMove t s) q = rget s q := rfl

theorem tileState_freeTile (t : Nat) (s : State) : tileState (freeTile t s) t = 0 := rbits_rsetBits_same _ _ _ _ _ (by decide)

theorem tileOf_freeTile_same (t : Nat) (s : State) : tileOf (freeTile t s) t = { tileOf s t with held := [] } := by
  rw [freeTile, tileOf_setTileState, tileOf_modTile_same]

theorem tileOf_freeTile_other {t u : Nat} (s : State) (h : u ≠ t) : tileOf (freeTile t s) u = tileOf s u := by
  rw [freeTile, tileOf_setTileState, tileOf_modTile_other _ _ _ _ h]

theorem held_self {x : Tile} {l : List HeldAcc} (h : x.held = l) : { x with held := l } = x := by
  subst h
  rfl

theorem tileOf_freeTile_empty {t : Nat} {s : State} (h : (tileOf s t).held = []) (u : Nat) : tileOf (freeTile t s) u = tileOf s u := by
  by_cases hu : u = t
  · subst hu
    rw [tileOf_freeTile_same, held_self h]
  · exact tileOf_freeTile_other s hu

theorem rget_freeTile_other (t : Nat) (s : State) (q : Reg) (h : q.off ≠ (reg .TILE_STATE t).off) : rget (freeTile t s) q = rget s q := by
  rw [freeTile, setTileState, rget_rsetBits_other _ _ _ _ _ _ h, rget_modTile]

/-- Nothing waited and nobody asked: the tile is in service, and nothing else has moved. -/
theorem mapHoldClear_quiet (t : Nat) (s : State) (ht : t < numTiles) (h2 : tileState s t = 2) (hheld : (tileOf s t).held = []) (hasked : spareAsked s t = false)
    (hret : retirement s t = none) :
    Claim.completes (.mapHoldClear t 1248) s (fun s' =>
      tileState s' t = 0 ∧ (∀ u, tileOf s' u = tileOf s u) ∧ s'.stk = s.stk ∧ Claim.regsKeep [(reg .TILE_STATE t).off] s s') := by
  refine ⟨_, execMapHoldClear_eq (s2 := freeTile t s) ht h2 (by rw [hheld]; rfl), ?_⟩
  rw [moveAsks_congr (s := s) (s' := freeTile t s) rfl rfl, moveAsks_nil hasked hret, List.foldl_nil]
  refine ⟨tileState_freeTile t s, fun u => ?_, rfl, fun r hr => ?_⟩
  · rw [tileOf_dropMove, tileOf_freeTile_empty hheld]
  · rw [rget_dropMove, rget_freeTile_other t s r (by simpa using hr)]

/-- A write that waited is served when the hold ends. -/
theorem mapHoldClear_serves (t off : Nat) (q : Req) (data : List Byte) (s : State) (ht : t < numTiles) (h2 : tileState s t = 2)
    (hheld : (tileOf s t).held = [⟨q, off, data.length, true, data, false, false⟩]) (htop : off + data.length ≤ winTop)
    (hw : (wordsOf off data.length).all (fun w => winWritable (tileOf s t) (max w off)) = true) (hasked : spareAsked s t = false) (hret : retirement s t = none) :
    Claim.completes (.mapHoldClear t 1248) s (fun s' =>
      tileState s' t = 0 ∧ (tileOf s' t).held = [] ∧ (∀ i, i < data.length → (tileOf s' t).byte (off + i) = nth 0#8 data i) ∧
      (∀ b, (b < off ∨ off + data.length ≤ b) → (tileOf s' t).byte b = (tileOf s t).byte b) ∧ (∀ u, u ≠ t → tileOf s' u = tileOf s u)) := by
  generalize hs1 : freeTile t s = s1
  have htile : tileOf s1 t = { tileOf s t with held := [] } := by rw [← hs1, tileOf_freeTile_same]
  have hserve : serveHeld t ⟨q, off, data.length, true, data, false, false⟩ s1 = (winWrite q t off (markBytes false data) s1).2 := by
    unfold serveHeld
    rw [if_neg (show ¬ off ≥ 0x100000 by have : winTop = 0xF7000 := rfl; omega), if_pos rfl]
  have htrip := crosses_reqTrip q (winBase + t * 0x100000 + off) t data.length 0 s1
  have hst := winWrite_stores q data false (s := s1) (t := t) (off := off) ⟨ht, by rw [← hs1, tileState_freeTile]; decide, htop⟩ (by rw [htile]; exact hw)
  have hcox : (winWrite q t off (markBytes false data) s1).2.cox.moveCmd = s.cox.moveCmd ∧ (winWrite q t off (markBytes false data) s1).2.cox.proposals = s.cox.proposals := by
    obtain ⟨rg, ti, w, rc, a, hframe⟩ := hst.frame
    obtain ⟨⟨rg', fe, hcross⟩, -⟩ := htrip
    rw [hframe, hcross, ← hs1]
    exact ⟨rfl, rfl⟩
  generalize (reqTrip q (winBase + t * 0x100000 + off) t data.length 0 s1).2 = s2 at htrip hst
  generalize (winWrite q t off (markBytes false data) s1).2 = s3 at hserve hst hcox
  refine ⟨_, execMapHoldClear_eq (s2 := s3) ht h2 (by rw [hheld, hs1]; exact hserve), ?_⟩
  rw [moveAsks_congr hcox.1 hcox.2, moveAsks_nil hasked hret, List.foldl_nil]
  have hbytes : ∀ b, (tileOf s2 t).byte b = (tileOf s t).byte b := fun b => by
    rw [htrip.tileOf_eq, htile]
    rfl
  refine ⟨?_, ?_, ?_, fun b hb => ?_, fun u hu => ?_⟩
  · show tileState s3 t = 0
    rw [hst.states t ht, htrip.2 t ht, ← hs1, tileState_freeTile]
  · obtain ⟨m, pz, sf, sm, e⟩ := hst.tile
    rw [tileOf_dropMove, e, htrip.tileOf_eq, htile]
  · rw [tileOf_dropMove]
    exact hst.stored
  · rw [tileOf_dropMove, hst.kept b hb, hbytes]
  · rw [tileOf_dropMove, hst.others u hu, htrip.tileOf_eq, ← hs1, tileOf_freeTile_other s hu]

/-! ### The answer of the command that asked (R375 to R379) -/

/-- The ring takes a frame now: enabled, nothing held or waiting before it, a slot free, no switch under way. -/
structure TakesFrame (s : State) (c : Nat) : Prop where
  enabled : cplEnabled s c = true
  unheld : (SMap.get [] s.cox.held c).isEmpty = true
  slot : cplHasSlot s c = true
  order : s.cox.order = []
  steady : s.gate.switching.isNone = true

theorem takesFrame_of_ringOpen {s : State} {c : Nat} (h : Claim.ringOpen s c = true) : TakesFrame s c := by
  simp only [Claim.ringOpen, Bool.and_eq_true] at h
  obtain ⟨⟨⟨⟨⟨henabled, hheld⟩, hslot⟩, horder⟩, -⟩, hsteady⟩ := h
  exact ⟨henabled, hheld, hslot, List.isEmpty_iff.mp horder, hsteady⟩

theorem cplPost_written {s : State} {c : Nat} (h : TakesFrame s c) (f : CplFrame) : cplPost c f s = cplWrite c f s := by
  unfold cplPost
  extract_lets l
  have hl : l.isEmpty = true := h.unheld
  rw [if_neg (by simp [h.enabled]), if_pos (by rw [hl, h.slot, h.steady]; rfl)]

theorem cox_order_self {x : Cox} {l : List OrdFrame} (h : x.order = l) : { x with order := l } = x := by
  subst h
  rfl

theorem releaseOrder_empty {s : State} (ring : Nat) (h : s.cox.order = []) : releaseOrder ring s = s := by
  unfold releaseOrder
  rw [h]
  show { s with cox := { s.cox with order := [] } } = s
  rw [cox_order_self h]

/-- A frame written moves the tail of its ring, its slot, the cox's account of the ring and the message of its vector (R375). -/
theorem cplWrite_slot (c : Nat) (f : CplFrame) (s : State) : ∃ rg ph cu p,
    cplWrite c f s = { s with
      regs := rg
      cox := { s.cox with
        slots := SMap.set s.cox.slots (c * 4096 + rbits s (reg .MBX_CPL_TAIL c) 11 0) (setBit (nth 0#64 f.words 0) 24 (!(SMap.get false s.cox.phase c)) :: f.words.drop 1)
        phase := ph, cplUsed := cu }
      ports := p } ∧
    rg = (rset (reg .MBX_CPL_TAIL c) (w64 ((rbits s (reg .MBX_CPL_TAIL c) 11 0 + 1) % cplFrames s c)) s).regs := by
  unfold cplWrite
  extract_lets tl ph w0 nx vec x s1 s2
  split
  · obtain ⟨p, e⟩ := msixRaise_eq vec s2
    exact ⟨_, _, _, p, e, rfl⟩
  · exact ⟨_, _, _, s.ports, rfl, rfl⟩

/-- A command that is not quiet is answered at once on a ring that takes its frame. -/
theorem finishCmd_written {s : State} {r : CmdRef} (h : TakesFrame s (cplOf s r.ring)) (hquiet : bit r.w0 18 = false) (status detail : Nat) (result : Word) :
    finishCmd r status detail result s = cplWrite (cplOf s r.ring) (cmdFrame s r status detail result) (dropRunning r s) := by
  have hdrop : TakesFrame (dropRunning r s) (cplOf s r.ring) := ⟨h.enabled, h.unheld, h.slot, h.order, h.steady⟩
  have hfinal : postFinal r (cmdFrame s r status detail result) (dropRunning r s) = cplWrite (cplOf s r.ring) (cmdFrame s r status detail result) (dropRunning r s) := by
    unfold postFinal
    rw [show (dropRunning r s).cox.order = [] from h.order]
    exact cplPost_written hdrop _
  unfold finishCmd
  extract_lets s1
  have hs1 : s1 = cplWrite (cplOf s r.ring) (cmdFrame s r status detail result) (dropRunning r s) := by
    unfold s1
    rw [if_neg (by simp [hquiet]), hfinal]
  have horder : s1.cox.order = [] := by
    obtain ⟨rg, ph, cu, p, e, -⟩ := cplWrite_slot (cplOf s r.ring) (cmdFrame s r status detail result) (dropRunning r s)
    rw [hs1, e]
    exact h.order
  rw [releaseOrder_empty r.ring horder, ite_self, hs1]

theorem cplFrames_le (s : State) (c : Nat) : 0 < cplFrames s c ∧ cplFrames s c ≤ 4096 := by
  unfold cplFrames ringFrames
  exact ⟨Nat.two_pow_pos _, Nat.pow_le_pow_right (j := 12) (by decide) (by omega)⟩

/-- What a frame written leaves: the tiles, the moves asked for, and the commands that run. -/
theorem cplWrite_keeps (c : Nat) (f : CplFrame) (s : State) :
    (cplWrite c f s).tiles = s.tiles ∧ (cplWrite c f s).cox.moveCmd = s.cox.moveCmd ∧ (cplWrite c f s).cox.running = s.cox.running := by
  obtain ⟨rg, ph, cu, p, e, -⟩ := cplWrite_slot c f s
  rw [e]
  exact ⟨rfl, rfl, rfl⟩

/-- Of the registers, a frame written moves the tail of its ring. -/
theorem rget_cplWrite (c : Nat) (f : CplFrame) (s : State) (q : Reg) :
    rget (cplWrite c f s) q = rget (rset (reg .MBX_CPL_TAIL c) (w64 ((rbits s (reg .MBX_CPL_TAIL c) 11 0 + 1) % cplFrames s c)) s) q := by
  obtain ⟨rg, ph, cu, p, e, hrg⟩ := cplWrite_slot c f s
  have hregs : (cplWrite c f s).regs = rg := by rw [e]
  unfold rget
  rw [hregs, hrg]

/-- The frame of a command stands in its ring, and the tail goes on by one (R375, R377). -/
theorem cplWrite_framed (r : CmdRef) (status detail : Nat) (result : Word) (s : State) :
    Claim.framed r status detail result s (cplWrite (cplOf s r.ring) (cmdFrame s r status detail result) (dropRunning r s)) := by
  obtain ⟨hpos, hle⟩ := cplFrames_le s (cplOf s r.ring)
  have hlt : (rbits s (reg .MBX_CPL_TAIL (cplOf s r.ring)) 11 0 + 1) % cplFrames s (cplOf s r.ring) < cplFrames s (cplOf s r.ring) := Nat.mod_lt _ hpos
  constructor
  · obtain ⟨rg, ph, cu, p, e, -⟩ := cplWrite_slot (cplOf s r.ring) (cmdFrame s r status detail result) (dropRunning r s)
    rw [Claim.frameAt, e]
    exact SMap.get_set_same ..
  · have htail : rbits (dropRunning r s) (reg .MBX_CPL_TAIL (cplOf s r.ring)) 11 0 = rbits s (reg .MBX_CPL_TAIL (cplOf s r.ring)) 11 0 := rfl
    have hframes : cplFrames (dropRunning r s) (cplOf s r.ring) = cplFrames s (cplOf s r.ring) := rfl
    rw [rbits, rget_cplWrite, rget_rset_same, htail, hframes, bits_w64]
    omega

theorem off_cmdCfg (c : Nat) : (reg .MBX_CMD_CFG c).off = 0x10008 + c * 0x40 := rfl
theorem off_cplCfg (c : Nat) : (reg .MBX_CPL_CFG c).off = 0x10208 + c * 0x40 := rfl
theorem off_cplTail (c : Nat) : (reg .MBX_CPL_TAIL c).off = 0x10210 + c * 0x40 := rfl

/-- The move of a tile leaves the completion ring of a command, whatever its command ring is. -/
theorem cplOf_freeTile (t ring : Nat) (s : State) : cplOf (dropMove t (freeTile t s)) ring = cplOf s ring := by
  unfold cplOf rbits
  rw [rget_dropMove, rget_freeTile_other _ _ _ (by rw [off_cmdCfg, off_tileState]; omega)]

theorem cplFrames_freeTile (t c : Nat) (s : State) : cplFrames (dropMove t (freeTile t s)) c = cplFrames s c := by
  unfold cplFrames rbits
  rw [rget_dropMove, rget_freeTile_other _ _ _ (by rw [off_cplCfg, off_tileState]; omega)]

theorem takesFrame_freeTile {t c : Nat} {s : State} (h : TakesFrame s c) : TakesFrame (dropMove t (freeTile t s)) c where
  enabled := by
    unfold cplEnabled
    rw [rget_dropMove, rget_freeTile_other _ _ _ (by rw [off_cplCfg, off_tileState]; omega)]
    exact h.enabled
  unheld := h.unheld
  slot := by
    unfold cplHasSlot
    rw [cplFrames_freeTile]
    exact h.slot
  order := h.order
  steady := h.steady

/-- A frame of the state after the hold is the frame of the state before it. -/
theorem framed_freeTile {t : Nat} {r : CmdRef} {status detail : Nat} {result : Word} {s s' : State} (hc : cplOf s r.ring < 8)
    (h : Claim.framed r status detail result (dropMove t (freeTile t s)) s') : Claim.framed r status detail result s s' := by
  have hregs : ∀ q : Reg, q.off < 0x1000000 → rget (dropMove t (freeTile t s)) q = rget s q := fun q hq => by
    rw [rget_dropMove, rget_freeTile_other _ _ _ (by rw [off_tileState]; omega)]
  have hwords : frameWords (dropMove t (freeTile t s)) r status detail result = frameWords s r status detail result := by
    unfold frameWords coxEpoch epochCopy epoch
    rw [hregs _ (by decide)]
  unfold Claim.framed Claim.frameAt rbits at h ⊢
  rwa [cplOf_freeTile, cplFrames_freeTile, hregs _ (by rw [off_cplTail]; omega), hwords] at h

/-- The command that asked for the move is answered when the hold ends. -/
theorem mapHoldClear_answers (t : Nat) (c : CmdRef) (s : State) (ht : t < numTiles) (h2 : tileState s t = 2) (hheld : (tileOf s t).held = [])
    (hmove : s.cox.moveCmd = [(t, c)]) (hret : retirement s t = none) (hquiet : bit c.w0 18 = false) (hopen : Claim.ringOpen s (cplOf s c.ring) = true) :
    Claim.completes (.mapHoldClear t 1248) s (fun s' =>
      tileState s' t = 0 ∧ s'.cox.moveCmd = [] ∧ Claim.framed c stOK 0 0#64 s s' ∧ s'.cox.running = s.cox.running.erase c ∧ (∀ u, tileOf s' u = tileOf s u)) := by
  have hc : cplOf s c.ring < 8 := bits_lt _ 6 4
  have hasks : moveAsks t (freeTile t s) = [c] := by
    rw [moveAsks_congr (s := s) (s' := freeTile t s) rfl rfl, moveAsks, hmove, hret]
    simp
  have htakes : TakesFrame (dropMove t (freeTile t s)) (cplOf (dropMove t (freeTile t s)) c.ring) := by
    rw [cplOf_freeTile]
    exact takesFrame_freeTile (takesFrame_of_ringOpen hopen)
  have hframed := framed_freeTile hc (cplWrite_framed c stOK 0 0#64 (dropMove t (freeTile t s)))
  refine ⟨_, execMapHoldClear_eq (s2 := freeTile t s) ht h2 (by rw [hheld]; rfl), ?_⟩
  rw [hasks, List.foldl_cons, List.foldl_nil, finishCmd_written htakes hquiet]
  obtain ⟨htiles, hmoves, hrunning⟩ := cplWrite_keeps (cplOf (dropMove t (freeTile t s)) c.ring) (cmdFrame (dropMove t (freeTile t s)) c stOK 0 0#64)
    (dropRunning c (dropMove t (freeTile t s)))
  refine ⟨?_, ?_, hframed, hrunning, fun u => ?_⟩
  · rw [tileState, rbits, rget_cplWrite, rget_rset_other _ _ _ _ (by rw [cplOf_freeTile, off_cplTail, off_tileState]; omega)]
    exact tileState_freeTile t s
  · rw [hmoves]
    show s.cox.moveCmd.filter (fun e => e.1 != t) = []
    rw [hmove]
    simp
  · rw [tileOf, htiles]
    exact tileOf_freeTile_empty hheld u

/-! ### Routers in pass-through (R32) -/

/-- Tiles were retired: what that may change. -/
def Retires (s s' : State) : Prop := ∃ rg ti gr rc x p, s' = { s with regs := rg, tiles := ti, groups := gr, rec_ := rc, cox := x, ports := p }

theorem Retires.refl (s : State) : Retires s s := ⟨s.regs, s.tiles, s.groups, s.rec_, s.cox, s.ports, rfl⟩

theorem Retires.trans {a b c : State} (h : Retires a b) (k : Retires b c) : Retires a c := by
  obtain ⟨rg, ti, gr, rc, x, p, hb⟩ := h
  obtain ⟨rg', ti', gr', rc', x', p', hc⟩ := k
  exact ⟨rg', ti', gr', rc', x', p', by rw [hc, hb]⟩

theorem Retires.foldl {β : Type} {f : State → β → State} (h : ∀ s b, Retires s (f s b)) (bs : List β) (s : State) : Retires s (bs.foldl f s) := by
  induction bs generalizing s with
  | nil => exact Retires.refl s
  | cons b bs ih => exact (h s b).trans (ih _)

theorem Retires.stk_eq {s s' : State} (h : Retires s s') : s'.stk = s.stk := by
  obtain ⟨rg, ti, gr, rc, x, p, e⟩ := h
  rw [e]

theorem Retires.passThrough_eq {s s' : State} (h : Retires s s') : s'.passThrough = s.passThrough := by
  obtain ⟨rg, ti, gr, rc, x, p, e⟩ := h
  rw [e]

theorem retires_rset (r : Reg) (v : Word) (s : State) : Retires s (rset r v s) := ⟨_, s.tiles, s.groups, s.rec_, s.cox, s.ports, rfl⟩
theorem retires_setTile (t : Nat) (x : Tile) (s : State) : Retires s (setTile t x s) := ⟨s.regs, _, s.groups, s.rec_, s.cox, s.ports, rfl⟩
theorem retires_setCg (g : Nat) (c : CGroup) (s : State) : Retires s (setCg g c s) := ⟨s.regs, s.tiles, _, s.rec_, s.cox, s.ports, rfl⟩
theorem retires_cox (x : Cox) (s : State) : Retires s { s with cox := x } := ⟨s.regs, s.tiles, s.groups, s.rec_, x, s.ports, rfl⟩

theorem retires_event (code die src : Nat) (a b : Word) (s : State) : Retires s (event code die src a b s) := by
  obtain ⟨rg, rc, q, e⟩ := event_eq code die src a b s
  exact ⟨rg, s.tiles, s.groups, rc, _, s.ports, e⟩

theorem retires_finishCmd (r : CmdRef) (status detail : Nat) (result : Word) (s : State) : Retires s (finishCmd r status detail result s) := by
  obtain ⟨rg, x, p, e⟩ := finishCmd_eq r status detail result s
  exact ⟨rg, s.tiles, s.groups, s.rec_, x, p, e⟩

theorem retires_groupSettle (g : Nat) (s : State) : Retires s (groupSettle g s) := by
  unfold groupSettle
  extract_lets c cause
  split
  · split
    · exact (retires_setCg ..).trans (retires_finishCmd ..)
    · exact Retires.refl s
  · exact Retires.refl s

theorem retires_abortGroup (g cause t seq : Nat) (s : State) : Retires s (abortGroup g cause t seq s) := by
  unfold abortGroup
  extract_lets s1 x s2
  split
  · have h1 : Retires s s1 := retires_rset ..
    have h2 : Retires s1 s2 := retires_setCg ..
    have h3 : Retires s2 (setCgState g 3 s2) := (retires_rset ..).trans (retires_rset ..)
    exact (h1.trans h2).trans (h3.trans (retires_groupSettle ..))
  · exact Retires.refl s

theorem retires_failureRecord (exec home ring : Nat) (ws : List Word) (f : FaultInfo) (s : State) : Retires s (failureRecord exec home ring ws f s) := by
  unfold failureRecord
  extract_lets idx ep w0 w1 hasAddr s1
  have h1 : Retires s s1 := by
    obtain ⟨rg, e⟩ := errWrite_eq [w64 (0x0E01 + 2 * 2 ^ 16 + dieOfTile exec * 2 ^ 24 + exec * 2 ^ 32), ep, w64 (f.code % 256 + (f.pc % 2 ^ 18) * 2 ^ 8),
      w64 (home % 2048 + (exec % 2048) * 2 ^ 16 + (ring % 8) * 2 ^ 32), w0, w1, if hasAddr then w64 (f.addr % 2 ^ 48) else 0#64, 0#64] s
    exact ⟨rg, s.tiles, s.groups, _, s.cox, s.ports, e⟩
  refine h1.trans ?_
  obtain ⟨rg, q, e⟩ := asyncQueue_eq (cplOf s1 ring)
    [w64 (0x20 * 2 ^ 16 + 2 ^ 25 + 2 ^ 27), w64 ((f.code % 256 + (f.pc % 2 ^ 18) * 2 ^ 8) * 2 ^ 32), w0, ep,
     w64 (0x20 * 2 ^ 16 + 2 ^ 25), w64 ((home % 2048 + (exec % 2048) * 2 ^ 16) * 2 ^ 32), w1, w64 idx] s1
  exact ⟨rg, s1.tiles, s1.groups, s1.rec_, _, s1.ports, e⟩

/-- A queued descriptor fails: its record, its frames and the abort of its group (R209). -/
theorem retires_failQueued (t home ring : Nat) (ws : List Word) (f : FaultInfo) (s : State) : Retires s (failDescriptor t home ring ws false f s) := by
  unfold failDescriptor
  extract_lets s1 gid
  have h1 : Retires s s1 := retires_failureRecord ..
  split
  · exact h1
  · exact h1.trans (retires_abortGroup ..)

theorem retires_makeAbsent (t cause : Nat) (s : State) : Retires s (makeAbsent t cause s) := by
  unfold makeAbsent
  extract_lets x dq y s1 s2
  have h1 : Retires s s1 := (retires_rset ..).trans (retires_setTile ..)
  exact h1.trans ((Retires.foldl (fun s (e : DqEntry) => retires_failQueued t t e.ring e.words { code := fABSENT } s) dq s1).trans (retires_event ..))

theorem retires_beginDrain (t : Nat) (s : State) : Retires s (beginDrain t s) := by
  unfold beginDrain
  split
  · exact retires_rset ..
  · exact Retires.refl s

/-- A tile whose router fails begins its retirement, or becomes absent (R32, R407). -/
theorem retires_retireTile (t : Nat) (s : State) : Retires s (retireTile t 4 s) := by
  unfold retireTile
  split
  · exact Retires.refl s
  · split
    · extract_lets n
      exact (retires_cox ..).trans (retires_event ..)
    · split
      · exact retires_makeAbsent ..
      · exact (retires_cox ..).trans (retires_beginDrain ..)

/-- The router at p forwards straight on. -/
def passAt (p : Pos) (s : State) : State := { s with passThrough := SMap.put false s.passThrough (posKey p.1 p.2) true }

theorem passRouter_tile {p : Pos} {t : Nat} {s : State} (h : tileAt s p = some t) : passRouter p s = retireTile t 4 (passAt p s) := by
  have hp : tileAt (passAt p s) p = some t := h
  unfold passRouter
  simp only [passAt] at hp ⊢
  rw [hp]

theorem passRouter_spare {p : Pos} {s : State} (h : tileAt s p = none) : passRouter p s = passAt p s := by
  have hp : tileAt (passAt p s) p = none := h
  unfold passRouter
  simp only [passAt] at hp ⊢
  rw [hp]

theorem retires_passRouter (p : Pos) (s : State) : Retires (passAt p s) (passRouter p s) := by
  cases h : tileAt s p with
  | none =>
    rw [passRouter_spare h]
    exact Retires.refl _
  | some t =>
    rw [passRouter_tile h]
    exact retires_retireTile ..

theorem execRouterCheckFailure_eq {px py : Nat} (s : State) (hx : px < 48) (hy : py < 26) :
    exec (.routerCheckFailure px py) s = .next ((cutTiles (passRouter (px, py) s)).foldl (fun s t => retireTile t 4 s) (passRouter (px, py) s)) := by
  show execRouterCheckFailure px py s = _
  unfold execRouterCheckFailure
  rw [if_neg (by simp; omega)]

/-- One router in pass-through cuts nothing off. -/
theorem cutTiles_one {s : State} (h : s.passThrough.length ≤ 1) : cutTiles s = [] := by
  unfold cutTiles
  rw [if_pos h]

theorem routerFails_passes (px py : Nat) (s : State) (hx : px < 48) (hy : py < 26) :
    Claim.completes (.routerCheckFailure px py) s (fun s' =>
      s'.passThrough = SMap.put false s.passThrough (posKey px py) true ∧ s'.stk = s.stk ∧ (tileAt s (px, py) = none → s.passThrough = [] → s' = { s with passThrough := s'.passThrough })) := by
  have hpass := retires_passRouter (px, py) s
  have hall := hpass.trans (Retires.foldl (fun s t => retires_retireTile t s) (cutTiles (passRouter (px, py) s)) (passRouter (px, py) s))
  refine ⟨_, execRouterCheckFailure_eq s hx hy, hall.passThrough_eq, hall.stk_eq, fun hnone hempty => ?_⟩
  have hone : (passAt (px, py) s).passThrough.length ≤ 1 := by
    show (SMap.put false s.passThrough (posKey px py) true).length ≤ 1
    rw [hempty]
    exact Nat.le_refl 1
  rw [passRouter_spare hnone, cutTiles_one hone]
  rfl

/-- The tile of a router that fails begins to drain for a spare. -/
theorem routerFails_drains (px py t : Nat) (s : State) (hx : px < 48) (hy : py < 26) (ht : tileAt s (px, py) = some t) (hempty : s.passThrough = [])
    (hret : retiring s t = false) (h0 : tileState s t = 0) (hassist : assist s 7 = false)
    (hspare : (usableSpares { s with passThrough := [(posKey px py, true)] } (dieOfTile t)).isEmpty = false) :
    Claim.completes (.routerCheckFailure px py) s (fun s' => tileState s' t = 1 ∧ retirement s' t = some { num := 0, kind := 4, a := t, b := 4, decided := true } ∧ s'.stk = s.stk) := by
  have hpass : passAt (px, py) s = { s with passThrough := [(posKey px py, true)] } := by
    unfold passAt
    rw [hempty]
    rfl
  generalize hs1 : ({ s with passThrough := [(posKey px py, true)] } : State) = s1 at hpass hspare
  have hcox : s1.cox = s.cox := by rw [← hs1]
  have hregs : ∀ q, rget s1 q = rget s q := fun q => by rw [← hs1]; rfl
  have hret1 : retiring s1 t = false := by rw [retiring, hcox]; exact hret
  have hstate1 : tileState s1 t = 0 := by rw [tileState, rbits, hregs]; exact h0
  have hassist1 : assist s1 7 = false := by rw [assist, hregs]; exact hassist
  have hrouter : passRouter (px, py) s = setTileState t 1
      { s1 with cox := { s1.cox with proposals := s1.cox.proposals ++ [{ num := 0, kind := 4, a := t, b := 4, decided := true }] } } := by
    rw [passRouter_tile ht, hpass]
    unfold retireTile
    rw [if_neg (by simp [hret1, hstate1]), if_neg (by simp [hassist1]), if_neg (by simp [hspare])]
    exact if_pos hstate1
  have hone : (passRouter (px, py) s).passThrough.length ≤ 1 := by
    rw [hrouter, setTileState_passThrough]
    show s1.passThrough.length ≤ 1
    rw [← hs1]
    exact Nat.le_refl 1
  refine ⟨_, execRouterCheckFailure_eq s hx hy, ?_⟩
  rw [cutTiles_one hone, List.foldl_nil, hrouter]
  refine ⟨rbits_rsetBits_same _ _ _ _ _ (by decide), ?_, ?_⟩
  · have hnone : s1.cox.proposals.find? (fun p => p.kind == 4 && p.a == t && p.decided) = none := by
      rw [List.find?_eq_none]
      intro p hp hd
      exact List.any_eq_false.mp hret1 p hp (Bool.and_eq_true_iff.mp hd).1
    show (s1.cox.proposals ++ [_]).find? _ = _
    rw [List.find?_append, hnone]
    simp
  · rw [setTileState_stk, ← hs1]

theorem mapMoves : Claim.MapMoves := by
  refine ⟨mapMove_moves, mapMove_waits, mapMove_idle, mapHoldClear_quiet, mapHoldClear_serves, mapHoldClear_answers, mapHoldClear_idle, routerFails_passes, routerFails_drains, ?_⟩
  intro px py s h
  show execRouterCheckFailure px py s = _
  unfold execRouterCheckFailure
  rw [if_pos (by simpa using h)]

/-- Settles O30: window accesses packet by packet, the words a scrub meets, code bases, flits in error, and the move of a tile from its map word to the end of its hold. -/
theorem tileWindows : Obligations.TileWindows := ⟨windowAccesses, scrubsAndCodeBases, mapMoves⟩

end Sys2Proof.Machine
end

section
/-! SUPPORT. Issue of an instruction (R56, R65, R66, R81): what accounting, fetch and the advance of the PC move of a tile and of the device, and what they leave. -/

namespace Sys2Proof.Machine
open Sys2Proof

/-! ### The sequential advance (R66) -/

/-- The advance moves the PC and the loops alone. -/
theorem advance_eq (x : Tile) (n : Nat) : ∃ ls p, x.advance n = { x with loops := ls, pc := p } := by
  unfold Tile.advance
  dsimp only
  repeat' split
  all_goals exact ⟨_, _, rfl⟩

/-- The loops decide where the advance goes. -/
theorem advance_congr {x y : Tile} (h : y.loops = x.loops) (n : Nat) : (y.advance n).pc = (x.advance n).pc ∧ (y.advance n).loops = (x.advance n).loops := by
  unfold Tile.advance
  rw [h]
  dsimp only
  repeat' split
  all_goals exact ⟨rfl, rfl⟩

/-! ### What issue may move -/

theorem besideIssue_refl (x : Tile) : Claim.besideIssue x x := ⟨rfl, fun h => ⟨h, rfl⟩⟩

theorem besideIssue_trans {x y z : Tile} (h : Claim.besideIssue x y) (k : Claim.besideIssue y z) : Claim.besideIssue x z := by
  obtain ⟨hstill, hclean⟩ := h
  obtain ⟨kstill, kclean⟩ := k
  refine ⟨kstill.trans hstill, fun hx => ?_⟩
  obtain ⟨hsoft, hpoison⟩ := hclean hx
  obtain ⟨ksoft, kpoison⟩ := kclean hsoft
  exact ⟨ksoft, kpoison.trans hpoison⟩

/-- What issue itself moves does not hold the sequencer's state: it may be set on both sides. -/
theorem besideIssue_setSeq {x y : Tile} (h : Claim.besideIssue x y) (q : Seq) : Claim.besideIssue { x with seq := q } { y with seq := q } :=
  ⟨congrArg (fun z : Tile => { z with seq := q }) h.1, h.2⟩

/-- A register that is none of tile t's event counters, nor their overflow bits. -/
def notCounter (t : Nat) (r : Reg) : Prop := r.off ≠ (reg .TILE_PMC_OVF t).off ∧ ∀ k, k < 8 → r.off ≠ (reg .TILE_PMC_CTR t k).off

/-- From s to s' issue of tile t has moved and nothing else: the tile's own marks, its event counters, and what fetch records of words in error. -/
structure IssueMoves (t : Nat) (s s' : State) : Prop where
  frame : ∃ ti rg fr rc q, s' = { s with tiles := ti, regs := rg, fresh := fr, rec_ := rc, cox := { s.cox with async := q } }
  others : ∀ u, u ≠ t → tileOf s' u = tileOf s u
  beside : Claim.besideIssue (tileOf s t) (tileOf s' t)
  clean : (tileOf s t).soft = [] → s'.rec_ = s.rec_ ∧ s'.cox.async = s.cox.async ∧ ∀ r, notCounter t r → rget s' r = rget s r

theorem IssueMoves.trans {t : Nat} {a b c : State} (h : IssueMoves t a b) (k : IssueMoves t b c) : IssueMoves t a c where
  frame := by
    obtain ⟨ti, rg, fr, rc, q, hb⟩ := h.frame
    obtain ⟨ti', rg', fr', rc', q', hc⟩ := k.frame
    exact ⟨ti', rg', fr', rc', q', by rw [hc, hb]⟩
  others u hu := (k.others u hu).trans (h.others u hu)
  beside := besideIssue_trans h.beside k.beside
  clean hsoft := by
    obtain ⟨hrec, hasync, hreg⟩ := h.clean hsoft
    obtain ⟨krec, kasync, kreg⟩ := k.clean (h.beside.2 hsoft).1
    exact ⟨krec.trans hrec, kasync.trans hasync, fun r hr => (kreg r hr).trans (hreg r hr)⟩

theorem IssueMoves.elsewhere {t : Nat} {s s' : State} (h : IssueMoves t s s') : Claim.elsewhere t s s' := by
  refine ⟨?_, h.others, fun hsoft => ?_⟩
  · obtain ⟨ti, rg, fr, rc, q, rfl⟩ := h.frame
    rfl
  · obtain ⟨hrec, hasync, hreg⟩ := h.clean hsoft
    exact ⟨hrec, hasync, fun r hovf hctr => hreg r ⟨hovf, hctr⟩⟩

/-- What the instruction changes of its own tile is not elsewhere. -/
theorem elsewhere_modTile {t : Nat} {s s' : State} (h : Claim.elsewhere t s s') (f : Tile → Tile) : Claim.elsewhere t s (modTile t f s') := by
  obtain ⟨hframe, hothers, hclean⟩ := h
  exact ⟨congrArg (fun z : State => { z with tiles := (modTile t f s').tiles }) hframe, fun u hu => (tileOf_modTile_other t u f s' hu).trans (hothers u hu), hclean⟩

theorem issueMoves_modTile {t : Nat} {f : Tile → Tile} {s : State} (h : Claim.besideIssue (tileOf s t) (f (tileOf s t))) : IssueMoves t s (modTile t f s) where
  frame := ⟨_, s.regs, s.fresh, s.rec_, s.cox.async, rfl⟩
  others u hu := tileOf_modTile_other t u f s hu
  beside := by rwa [tileOf_modTile_same]
  clean _ := ⟨rfl, rfl, fun _ _ => rfl⟩

/-! ### Accounting (R414, R419) -/

theorem issueMoves_pmcCount (t ev n : Nat) (s : State) : IssueMoves t s (pmcCount t ev n s) where
  frame := by
    obtain ⟨rg, e⟩ := pmcCount_eq t ev n s
    exact ⟨s.tiles, rg, s.fresh, s.rec_, s.cox.async, e⟩
  others u _ := tileOf_pmcCount t ev n s u
  beside := by
    rw [tileOf_pmcCount]
    exact besideIssue_refl _
  clean _ := by
    refine ⟨?_, ?_, fun r hr => rget_pmcCount_other t ev n s r hr.1 hr.2⟩
    all_goals
      obtain ⟨rg, e⟩ := pmcCount_eq t ev n s
      rw [e]

theorem tileOf_sampleIssue_same (t words sn pc : Nat) (i : SampInfo) (s : State) :
    ∃ l r q, tileOf (sampleIssue t words sn pc i s) t = { tileOf s t with sampLeft := l, lfsr := r, samples := q } := by
  obtain ⟨l, r, q, fr, e | e⟩ := sampleIssue_eq t words sn pc i s
  · exact ⟨l, r, q, by rw [e]; exact tileOf_setTile_same ..⟩
  · exact ⟨(tileOf s t).sampLeft, (tileOf s t).lfsr, (tileOf s t).samples, by rw [e]⟩

theorem issueMoves_sampleIssue (t words sn pc : Nat) (i : SampInfo) (s : State) : IssueMoves t s (sampleIssue t words sn pc i s) where
  frame := by
    obtain ⟨l, r, q, fr, e | e⟩ := sampleIssue_eq t words sn pc i s
    · exact ⟨_, s.regs, fr, s.rec_, s.cox.async, e⟩
    · exact ⟨s.tiles, s.regs, s.fresh, s.rec_, s.cox.async, e⟩
  others u hu := by
    obtain ⟨l, r, q, fr, e | e⟩ := sampleIssue_eq t words sn pc i s
    · rw [e]
      exact tileOf_setTile_other t u _ s hu
    · rw [e]
  beside := by
    obtain ⟨l, r, q, e⟩ := tileOf_sampleIssue_same t words sn pc i s
    rw [e]
    exact ⟨rfl, fun h => ⟨h, rfl⟩⟩
  clean _ := by
    obtain ⟨l, r, q, fr, e | e⟩ := sampleIssue_eq t words sn pc i s
    all_goals
      rw [e]
      exact ⟨rfl, rfl, fun _ _ => rfl⟩

theorem issueMoves_accountIssue (t : Nat) (f : Form) (g : Bool) (s : State) : IssueMoves t s (accountIssue t f g s) := by
  unfold accountIssue
  exact ((issueMoves_pmcCount ..).trans (issueMoves_sampleIssue ..)).trans (issueMoves_modTile ⟨rfl, fun h => ⟨h, rfl⟩⟩)

/-- Accounting gives the tile its next sample state and the next instruction number. -/
theorem tileOf_accountIssue_same (t : Nat) (f : Form) (g : Bool) (s : State) :
    ∃ l r q, tileOf (accountIssue t f g s) t = { tileOf s t with sampLeft := l, lfsr := r, samples := q, sn := (tileOf s t).sn + 1 } := by
  unfold accountIssue
  extract_lets x s1 s2
  have h1 : tileOf s1 t = tileOf s t := tileOf_pmcCount ..
  obtain ⟨l, r, q, h2⟩ : ∃ l r q, tileOf s2 t = { tileOf s1 t with sampLeft := l, lfsr := r, samples := q } := tileOf_sampleIssue_same ..
  exact ⟨l, r, q, by rw [tileOf_modTile_same, h2, h1]⟩

@[simp] theorem drained_accountIssue (t : Nat) (f : Form) (g : Bool) (s : State) : (tileOf (accountIssue t f g s) t).drained = (tileOf s t).drained := by
  obtain ⟨l, r, q, e⟩ := tileOf_accountIssue_same t f g s
  rw [e]
  rfl

/-! ### Fetch (R51) and the advance of the PC -/

theorem issueMoves_meetWords (t o n : Nat) (s : State) : IssueMoves t s (meetWords t o n s) := by
  obtain ⟨⟨rg, ti, rc, q, hframe⟩, hothers, ⟨pz, sf, htile⟩, -⟩ := meets_meetWords t o n s
  refine ⟨⟨ti, rg, s.fresh, rc, q, hframe⟩, hothers, ⟨?_, fun hsoft => ?_⟩, fun hsoft => ?_⟩
  · rw [htile]
    rfl
  · rw [meetWords_clean o n hsoft]
    exact ⟨hsoft, rfl⟩
  · rw [meetWords_clean o n hsoft]
    exact ⟨rfl, rfl, fun _ _ => rfl⟩

/-- Fetch meets the words that it reads and puts them into the queue; with a full queue it reads none. -/
theorem fetchTile_eq (t : Nat) (s : State) :
    ∃ s1, (s1 = s ∨ ∃ o n, s1 = meetWords t o n s) ∧ fetchTile t s = modTile t (fun x => { x with pre := x.pre ++ (tileOf s t).fetchFrom.map x.codeWord }) s1 := by
  unfold fetchTile
  cases (tileOf s t).fetchFrom with
  | nil => exact ⟨s, .inl rfl, rfl⟩
  | cons o os => exact ⟨_, .inr ⟨_, _, rfl⟩, rfl⟩

theorem issueMoves_fetchTile (t : Nat) (s : State) : IssueMoves t s (fetchTile t s) := by
  have hpre : ∀ s1, IssueMoves t s1 (modTile t (fun x => { x with pre := x.pre ++ (tileOf s t).fetchFrom.map x.codeWord }) s1) :=
    fun s1 => issueMoves_modTile ⟨rfl, fun h => ⟨h, rfl⟩⟩
  obtain ⟨s1, rfl | ⟨o, n, rfl⟩, e⟩ := fetchTile_eq t s
  · rw [e]
    exact hpre s1
  · rw [e]
    exact (issueMoves_meetWords t o n s).trans (hpre _)

theorem tileOf_fetchTile_same (t : Nat) (s : State) : ∃ pr pz sf, tileOf (fetchTile t s) t = { tileOf s t with pre := pr, poison := pz, soft := sf } := by
  obtain ⟨s1, rfl | ⟨o, n, rfl⟩, e⟩ := fetchTile_eq t s
  · exact ⟨_, (tileOf s1 t).poison, (tileOf s1 t).soft, by rw [e, tileOf_modTile_same]⟩
  · obtain ⟨-, -, ⟨pz, sf, htile⟩, -⟩ := meets_meetWords t o n s
    exact ⟨_, pz, sf, by rw [e, tileOf_modTile_same, htile]⟩

theorem issueMoves_advanceTile (t words : Nat) (s : State) : IssueMoves t s (advanceTile t words s) := by
  refine (issueMoves_modTile ?_).trans (issueMoves_fetchTile ..)
  obtain ⟨ls, p, e⟩ := advance_eq (tileOf s t) ((tileOf s t).pc + 8 * words)
  simp only [e]
  exact ⟨rfl, fun h => ⟨h, rfl⟩⟩

/-- The advance sets PC and loops by the loops' rule and leaves the instruction number. -/
theorem advanceTile_advances (t words : Nat) (s : State) :
    (tileOf (advanceTile t words s) t).pc = ((tileOf s t).advance ((tileOf s t).pc + 8 * words)).pc ∧
    (tileOf (advanceTile t words s) t).loops = ((tileOf s t).advance ((tileOf s t).pc + 8 * words)).loops ∧
    (tileOf (advanceTile t words s) t).sn = (tileOf s t).sn := by
  obtain ⟨ls, p, hadv⟩ := advance_eq (tileOf s t) ((tileOf s t).pc + 8 * words)
  unfold advanceTile moveIssue
  obtain ⟨pr, pz, sf, hfetch⟩ := tileOf_fetchTile_same t
    (modTile t (fun x => { x.advance (x.pc + 8 * words) with pre := (x.advance (x.pc + 8 * words)).keepPre x.pc x.pre }) s)
  rw [hfetch, tileOf_modTile_same, hadv]
  exact ⟨rfl, rfl, rfl⟩

/-! ### An instruction that issues (R56, R81) -/

/-- The state behind an instruction of this form that changes nothing: it is accounted, and issue goes on. -/
def issuePast (t : Nat) (f : Form) (s : State) : State := advanceTile t f.words (accountIssue t f false s)

theorem issueMoves_issuePast (t : Nat) (f : Form) (s : State) : IssueMoves t s (issuePast t f s) :=
  (issueMoves_accountIssue t f false s).trans (issueMoves_advanceTile ..)

theorem advanced_issuePast (t : Nat) (f : Form) (s : State) : Claim.advanced f.words (tileOf s t) (tileOf (issuePast t f s) t) := by
  obtain ⟨hpc, hloops, hsn⟩ := advanceTile_advances t f.words (accountIssue t f false s)
  obtain ⟨l, r, q, hacc⟩ := tileOf_accountIssue_same t f false s
  rw [hacc] at hpc hloops hsn
  obtain ⟨cpc, cloops⟩ := advance_congr (x := tileOf s t) (y := { tileOf s t with sampLeft := l, lfsr := r, samples := q, sn := (tileOf s t).sn + 1 }) rfl
    ((tileOf s t).pc + 8 * f.words)
  exact ⟨hpc.trans cpc, hloops.trans cloops, hsn⟩

/-- What an instruction that can issue needs of its tile, part by part. -/
theorem canIssue_iff {s : State} {t words : Nat} {w : BitVec 56} {rs rp : List Nat} : Claim.canIssue s t w words rs rp = true ↔
    (running s = true ∧ (tileOf s t).seq = .running ∧ (tileOf s t).pcOutside (tileOf s t).pc = false ∧ ((tileOf s t).fetched 0).2 = false ∧
      (words = 1 ∨ (tileOf s t).pcOutside ((tileOf s t).pc + 8) = false ∧ ((tileOf s t).fetched 1).2 = false)) ∧
    (rs.any (tileOf s t).pendS = false ∧ (tileOf s t).pendP (bits w 54 52) = false ∧ rp.any (tileOf s t).pendP = false) ∧ guardOf (tileOf s t) w = true := by
  simp only [Claim.canIssue, Claim.canFetch, Claim.ready, List.any_cons, Bool.and_eq_true, Bool.or_eq_true, Bool.not_eq_true', Bool.or_eq_false_iff, beq_iff_eq, and_assoc]

/-- A one-word instruction that can issue and whose effect sets issue waiting at once: issue has gone on behind it, and its tile waits. -/
theorem issue_waits {t : Nat} {w : BitVec 56} {f : Form} {eff : Hdr → State → Issued} {s : State} {q : Wait} (hcan : Claim.canIssue s t w 1 f.rs f.rp = true)
    (hwords : f.words = 1) (hbad : f.bad = false) (heff : ∀ h, eff h (accountIssue t f false s) = .wait q (accountIssue t f false s)) :
    issue t w true f eff s = modTile t (fun x => { x with seq := .waiting q }) (issuePast t f s) := by
  obtain ⟨⟨hrun, hseq, hpc, hclean, -⟩, ⟨hrs, hguardReg, hrp⟩, hguard⟩ := canIssue_iff.mp hcan
  rw [issue_runs t w true f eff s hrun hseq hpc (by omega) hclean (by omega) (fun _ => rfl) hbad hrs hrp hguardReg hguard, heff]
  rfl

/-- A one-word instruction that can issue and whose effect changes nothing: issue has gone on behind it. -/
theorem issue_passes {t : Nat} {w : BitVec 56} {f : Form} {eff : Hdr → State → Issued} {s : State} (hcan : Claim.canIssue s t w 1 f.rs f.rp = true)
    (hwords : f.words = 1) (hbad : f.bad = false) (heff : ∀ h, eff h (accountIssue t f false s) = .done (accountIssue t f false s)) :
    issue t w true f eff s = issuePast t f s := by
  obtain ⟨⟨hrun, hseq, hpc, hclean, -⟩, ⟨hrs, hguardReg, hrp⟩, hguard⟩ := canIssue_iff.mp hcan
  rw [issue_runs t w true f eff s hrun hseq hpc (by omega) hclean (by omega) (fun _ => rfl) hbad hrs hrp hguardReg hguard, heff]
  rfl

/-- An instruction behind which nothing but issue has moved completes at issue. -/
theorem leaves_of_moves {c : Instr} {t words : Nat} {s s1 : State} (he : exec c s = .next s1) (hmoves : IssueMoves t s s1)
    (hadv : Claim.advanced words (tileOf s t) (tileOf s1 t)) : Claim.leaves c t words (tileOf s t) s :=
  ⟨s1, he, hmoves.beside, hadv, hmoves.elsewhere⟩

/-- An instruction that sets issue waiting, and behind which nothing else but issue has moved. -/
theorem leaves_of_waits {c : Instr} {t words : Nat} {s s1 : State} {q : Wait} (he : exec c s = .next (modTile t (fun x => { x with seq := .waiting q }) s1))
    (hmoves : IssueMoves t s s1) (hadv : Claim.advanced words (tileOf s t) (tileOf s1 t)) : Claim.leaves c t words { tileOf s t with seq := .waiting q } s := by
  refine ⟨_, he, ?_, ?_, elsewhere_modTile hmoves.elsewhere _⟩
  all_goals rw [tileOf_modTile_same]
  · exact besideIssue_setSeq hmoves.beside _
  · exact hadv

/-! ### A tile that does not issue (log 2) -/

/-- The command is an issue of tile t: nothing happens but through `issue`. -/
def Issues (t : Nat) (c : Instr) : Prop := ∀ s, ∃ w second f eff, exec c s = .next (issue t w second f eff s)

/-- A vector instruction issues into its queue. -/
theorem issues_of_issueVec {t : Nat} {c : Instr} (h : ∀ s, ∃ opc w bad form rs, exec c s = .next (issueVec t opc w bad form rs s)) : Issues t c := by
  intro s
  obtain ⟨opc, w, bad, form, rs, e⟩ := h s
  rw [e]
  unfold issueVec
  exact ⟨_, _, _, _, rfl⟩

/-- In the list's order: 32 control, scalar and move instructions, 20 of the vector engine, and 12 that synchronise, push or ask. -/
theorem issues_oneWord (t : Nat) (w : BitVec 56) : ∀ mk ∈ Claim.oneWord, Issues t (mk t w) := by
  dsimp only [Claim.oneWord]
  iterate 32 refine List.forall_mem_cons.mpr ⟨fun _ => ⟨_, _, _, _, rfl⟩, ?_⟩
  iterate 20 refine List.forall_mem_cons.mpr ⟨issues_of_issueVec fun _ => ⟨_, _, _, _, _, rfl⟩, ?_⟩
  iterate 12 refine List.forall_mem_cons.mpr ⟨fun _ => ⟨_, _, _, _, rfl⟩, ?_⟩
  exact List.forall_mem_nil _

theorem issues_twoWord (t : Nat) (w : BitVec 56) (w1 : Word) : ∀ mk ∈ Claim.twoWord, Issues t (mk t w w1) := by
  dsimp only [Claim.twoWord]
  iterate 8 refine List.forall_mem_cons.mpr ⟨fun _ => ⟨_, _, _, _, rfl⟩, ?_⟩
  exact List.forall_mem_nil _

/-- While its tile does not issue, an instruction leaves the state as it is. -/
theorem Issues.idle {t : Nat} {c : Instr} (h : Issues t c) {s : State} (hseq : (tileOf s t).seq ≠ .running) : exec c s = .next s := by
  obtain ⟨w, second, f, eff, e⟩ := h s
  rw [e, issue_idle t w second f eff s (.inr hseq)]

end Sys2Proof.Machine
end

section
/-! SUPPORT. FENCE and its release (R75). -/

namespace Sys2Proof.Machine
open Sys2Proof

/-- The issue form of FENCE whose reserved field is 0. -/
def fenceForm : Form := { opc := 0xC0 }

theorem fenceForm_eq {w : BitVec 56} (hres : bits w 51 0 = 0) : ({ bad := bits w 51 0 != 0, opc := 0xC0 } : Form) = fenceForm := by simp [hres, fenceForm]

/-- With everything issued earlier completed, FENCE passes. -/
theorem exec_fence_drained {t : Nat} {w : BitVec 56} {s : State} (hcan : Claim.canIssue s t w 1 [] [] = true) (hres : bits w 51 0 = 0)
    (hd : (tileOf s t).drained = true) : exec (.fence t w) s = .next (issuePast t fenceForm s) := by
  show execFence t w s = _
  unfold execFence
  rw [fenceForm_eq hres, issue_passes hcan rfl rfl (fun h => by simp [hd])]

/-- With something issued earlier under way, FENCE sets its tile waiting. -/
theorem exec_fence_undrained {t : Nat} {w : BitVec 56} {s : State} (hcan : Claim.canIssue s t w 1 [] [] = true) (hres : bits w 51 0 = 0)
    (hd : (tileOf s t).drained = false) : exec (.fence t w) s = .next (modTile t (fun x => { x with seq := .waiting .fence }) (issuePast t fenceForm s)) := by
  show execFence t w s = _
  unfold execFence
  rw [fenceForm_eq hres, issue_waits (q := .fence) hcan rfl rfl (fun h => by simp [hd])]

theorem fence_leaves (t : Nat) (w : BitVec 56) (s : State) (hcan : Claim.canIssue s t w 1 [] [] = true) (hres : bits w 51 0 = 0) :
    Claim.leaves (.fence t w) t 1 { tileOf s t with seq := if (tileOf s t).drained then .running else .waiting .fence } s := by
  have hmoves : IssueMoves t s (issuePast t fenceForm s) := issueMoves_issuePast t fenceForm s
  have hadv : Claim.advanced 1 (tileOf s t) (tileOf (issuePast t fenceForm s) t) := advanced_issuePast t fenceForm s
  cases hd : (tileOf s t).drained with
  | true =>
    obtain ⟨⟨-, hseq, -⟩, -⟩ := canIssue_iff.mp hcan
    have hsame : { tileOf s t with seq := .running } = tileOf s t := by rw [← hseq]
    rw [if_pos rfl, hsame]
    exact leaves_of_moves (exec_fence_drained hcan hres hd) hmoves hadv
  | false =>
    rw [if_neg Bool.false_ne_true]
    exact leaves_of_waits (exec_fence_undrained hcan hres hd) hmoves hadv

theorem fenceRelease_resumes (t : Nat) (s : State) (hrun : running s = true) (hseq : (tileOf s t).seq = .waiting .fence) (hd : (tileOf s t).drained = true) :
    Claim.completes (.fenceRelease t) s (fun s' =>
      tileOf s' t = { tileOf s t with seq := .running } ∧ (∀ u, u ≠ t → tileOf s' u = tileOf s u) ∧ s' = { s with tiles := s'.tiles }) := by
  refine ⟨setTile t { tileOf s t with seq := .running } s, ?_, tileOf_setTile_same .., fun u hu => tileOf_setTile_other t u _ s hu, rfl⟩
  show execFenceRelease t s = _
  unfold execFenceRelease
  simp [hrun, hseq, hd]

theorem fenceRelease_waits (t : Nat) (s : State) (hd : (tileOf s t).drained = false) : exec (.fenceRelease t) s = .next s := by
  show execFenceRelease t s = _
  unfold execFenceRelease
  simp [hd]

/-- Settles O5: FENCE goes on or waits by whether the tile is drained, a waiting tile issues nothing, and the release needs the drained tile. -/
theorem fencesStall : Obligations.FencesStall := by
  refine ⟨fence_leaves, fenceRelease_resumes, fenceRelease_waits, fun t w w1 s hseq => ?_⟩
  have hwait : (tileOf s t).seq ≠ .running := by rw [hseq]; exact Seq.noConfusion
  exact ⟨fun mk hmk => (issues_oneWord t w mk hmk).idle hwait, fun mk hmk => (issues_twoWord t w w1 mk hmk).idle hwait⟩

end Sys2Proof.Machine
end
